-- ==== Sys2Proof/Word.lean ====
section
/-! DEFINITION. The word types of the KX9: bytes, 32-bit lanes, 64-bit registers (R8, and the sentence on register width in
Scope and conventions). Nothing else stands here. -/
namespace Sys2Proof

/-- One byte of memory. -/
abbrev Byte := BitVec 8

/-- One 32-bit lane or word. -/
abbrev W32 := BitVec 32

/-- One 64-bit register, scalar register or descriptor word. -/
abbrev W64 := BitVec 64

/-- One 256-bit bundle or lane mask. -/
abbrev W256 := BitVec 256

end Sys2Proof
end

