-- ==== Sys2Proof/Syntax.lean ====
section
/-! DEFINITION. The commands of the block: one constructor per row of the opcode table, in the table's order, and the data they carry. -/
namespace Sys2Proof

/-- A fabric message (R436): the fields of its envelope, word 1, and the payload; `idx` is the source's ring entry index, which a loan message makes known to its
destination (R458). DESIGN CHOICE (log entry 19). -/
structure FabMsg where
  cls : Nat
  dst : Nat
  src : Nat
  hops : Nat
  kind : Nat
  w1 : W64
  body : List Byte
  idx : Nat := 0
  deriving DecidableEq, Repr

/-- What the SPD hub of a fitted RDIMM tells the steward (R318, R629): capacity in GiB, ranks, height of a 3DS stack, data width of a DRAM device (4 or 8),
whether it is registered with 40 bits per subchannel, and whether it supports DDR5-6400. -/
structure Dimm where
  gib : Nat
  ranks : Nat
  stack : Nat
  width : Nat
  ecc : Bool
  rated : Bool
  deriving DecidableEq, Repr

/-- IEEE 1149.1 instructions (R631); `vendor` are the further ones that R633 puts behind a debug unlock. -/
inductive TapOp where
  | bypass
  | idcode
  | sample
  | extest
  | highz
  | clamp
  | vendor (code : Nat)
  deriving DecidableEq, Repr

/-- The commands. A command that says what happens inside the block names the unit in which it happens; one that comes from outside carries what arrives. -/
inductive Instr where
  /-- REGISTER_WRITE (R14): the host writes `v` at control-window offset `off`. -/
  | registerWrite (off : Nat) (v : W64)
  /-- UNIT_PORT_NOP (R32) at the head of a port's queue. -/
  | unitPortNop (port : Nat)
  /-- START (R32) at the head of a port's queue. -/
  | start (port : Nat)
  /-- STOP (R32) at the head of a port's queue. -/
  | stop (port : Nat)
  /-- HSET (R32) at the head of a port's queue. -/
  | hset (port : Nat)
  /-- HINC (R32) at the head of a port's queue. -/
  | hinc (port : Nat)
  /-- HWAIT (R32) at the head of a port's queue. -/
  | hwait (port : Nat)
  /-- UNIT_PORT_RESET (R32) at the head of a port's queue. -/
  | unitPortReset (port : Nat)
  /-- FCLR (R33) at the head of a port's queue. -/
  | fclr (port : Nat)
  /-- UNIT_PORT_PUSH (R31): the driver writes `cmd` to UP_CMD_PUSH of a port. -/
  | unitPortPush (port : Nat) (cmd : W64)
  /-- COMMAND_FAN_OUT (R33): the head of a port's queue is copied to the members. -/
  | commandFanOut (port : Nat)
  /-- UP_RESET (R50): a write of UP_RESET. -/
  | upReset (port : Nat) (v : W64)
  /-- UNIT_RESET_WIPE_DONE (R51). -/
  | unitResetWipeDone (port : Nat)
  /-- FAULT_SUM_CLEAR (R45): a write of UP_FAULT_SUM. -/
  | faultSumClear (port : Nat) (v : W64)
  /-- HOLD_COUNTER_WRITE (R39): a write of UP_HOLD[i]. -/
  | holdCounterWrite (port i : Nat) (v : W64)
  /-- TRACE_FUNNEL_WRITE (R48): a write of UP_TRACE. -/
  | traceFunnelWrite (port : Nat) (v : W64)
  /-- BUNDLE_ISSUE (R240): the docent of a cell looks at the bundle at its PC. -/
  | bundleIssue (cell : Nat)
  /-- PLINTH_READY (R132). -/
  | plinthReady (cell : Nat)
  /-- FWD_PENDING_START (R137). -/
  | fwdPendingStart (cell : Nat)
  /-- BACKWARD_BUFFER_READY (R185): of BLDW (0), BLDX (1) or BLDY (2). -/
  | backwardBufferReady (cell which : Nat)
  /-- PAIR_SCAN (R188). -/
  | pairScan (cell : Nat)
  /-- BWD_PENDING_START (R190). -/
  | bwdPendingStart (cell : Nat)
  /-- DWACC_COMPLETE (R196). -/
  | dwaccComplete (cell : Nat)
  /-- VSOLVE_COMPLETE (R231). -/
  | vsolveComplete (cell : Nat)
  /-- HOLD_OVERRUN (R285). -/
  | holdOverrun (cell : Nat)
  /-- DMA_TAKE (R324): the engine of a gallery takes a transfer. -/
  | dmaTake (gallery : Nat)
  /-- DMA_PIECE_TRANSFER (R332): the next piece of active transfer `idx`, read or written. -/
  | dmaPieceTransfer (gallery idx : Nat) (write : Bool)
  /-- DMA_COMPLETE (R325) of active transfer `idx`. -/
  | dmaComplete (gallery idx : Nat)
  /-- LAUNCH (R354): the next command that the device takes, if it is a LAUNCH. -/
  | launch
  /-- BARO_SCALES_READY (R106). -/
  | baroScalesReady
  /-- BARO_HIST_WRITE (R106) of the `n`-th committed record that is pending. -/
  | baroHistWrite (n : Nat)
  /-- FLIP (R356). -/
  | flip
  /-- GATE_OPEN (R357). -/
  | gateOpen
  /-- COMMIT (R358). -/
  | commit
  /-- ABANDON_COMPLETE (R361). -/
  | abandonComplete
  /-- ABANDON (R473): the next command that the device takes, if it is an ABANDON. -/
  | abandon
  /-- RING_HANDOVER (R385): a DWACC of a cell hands its tile over. -/
  | ringHandover (cell : Nat)
  /-- RING_PARTIAL_RECEIVE (R389): a message arrives on a ring's receive port, or (none) the oldest one that waits there is looked at again. -/
  | ringPartialReceive (ring : Nat) (msg : Option (List Byte))
  /-- RING_ADD (R391) of tile-quarter `q` of tile `j` of bucket `n`. -/
  | ringAdd (n j q : Nat)
  /-- RING_DELIVER (R398). -/
  | ringDeliver (n j q : Nat)
  /-- BUCKET_COMPLETE (R392). -/
  | bucketComplete (n : Nat)
  /-- FLUSH_MARKER_RECEIVE (R528). -/
  | flushMarkerReceive (port : Nat) (msg : FabMsg)
  /-- MAXIMA_FIRST_PASS (R401): the first position starts the pass (none), or the message arrives. -/
  | maximaFirstPass (msg : Option (List Byte))
  /-- MAXIMA_SECOND_PASS (R401): the message arrives, or (none) position 0 starts the pass. -/
  | maximaSecondPass (msg : Option (List Byte))
  /-- LINK_LOSS (R429) of a fabric port. -/
  | linkLoss (port : Nat)
  /-- CABLE_MATE (R621): CAB_PRSNT_N of a cage changes. -/
  | cableMate (cage : Nat) (present : Bool)
  /-- ROUTED_MESSAGE_FORWARD (R433): the message at the head of a port's buffer. -/
  | routedMessageForward (port : Nat) (msg : FabMsg)
  /-- FAB_RING_POLL (R440). -/
  | fabRingPoll (ring : Nat)
  /-- FAB_TRANSFER_TAKE (R440): the engine takes the next entry (none), or active transfer `k` sends its next message. -/
  | fabTransferTake (k : Option Nat)
  /-- FAB_DATA_RECEIVE (R441). -/
  | fabDataReceive (port : Nat) (msg : FabMsg)
  /-- FAB_SOURCE_READ_DONE (R441) of active transfer `k`. -/
  | fabSourceReadDone (k : Nat)
  /-- RELAY_REQUEST_RECEIVE (R444). -/
  | relayRequestReceive (port : Nat) (msg : FabMsg)
  /-- RELAY_REPLY_RECEIVE (R446). -/
  | relayReplyReceive (port : Nat) (msg : FabMsg)
  /-- RELAY_TIMEOUT (R447) of the command with number `id`. -/
  | relayTimeout (id : Nat)
  /-- WALL_TICK_EXCHANGE (R449). -/
  | wallTickExchange
  /-- WALL_TICK_REQUEST_RECEIVE (R449). -/
  | wallTickRequestReceive (port : Nat) (msg : FabMsg)
  /-- WALL_TICK_REPLY_RECEIVE (R450). -/
  | wallTickReplyReceive (port : Nat) (msg : FabMsg)
  /-- SQUALL_RECEIVE (R453). -/
  | squallReceive (port : Nat) (msg : FabMsg)
  /-- LOAN_ACK_RECEIVE (R458). -/
  | loanAckReceive (port : Nat) (msg : FabMsg)
  /-- HOST_LINK_LOSS (R460). -/
  | hostLinkLoss
  /-- HOST_WINDOW_ACCESS (R466): a read of `len` bytes at an offset of a window, or a write of the bytes given. -/
  | hostWindowAccess (window off len : Nat) (data : Option (List Byte))
  /-- HOST_ACCESS_TIMEOUT (R466). -/
  | hostAccessTimeout
  /-- COMMAND_RING_ENABLE (R470): a write of CQ_BASE. -/
  | commandRingEnable (ring : Nat) (v : W64)
  /-- DOORBELL (R470): a write of CQ_DB. -/
  | doorbell (ring : Nat) (v : W64)
  /-- COMMAND_TAKE (R471): the device takes the next command. -/
  | commandTake
  /-- PROGLOAD_COMPLETE (R480) of the command with number `id`. -/
  | progloadComplete (id : Nat)
  /-- COPY_COMPLETE (R482) of the command with number `id`. -/
  | copyComplete (id : Nat)
  /-- EVENT_WRITE (R479). -/
  | eventWrite
  /-- CRATE_WRITE (R488): a write of a register that has ST fields. -/
  | crateWrite (off : Nat) (v : W64)
  /-- CRATE_DISCARD (R491): a write of ACC_CTL. -/
  | crateDiscard (v : W64)
  /-- CONDITION_CHECK (R495): the check ends. -/
  | conditionCheck
  /-- ACCESSION_APPLY (R499). -/
  | accessionApply
  /-- LEDGER_UPDATE (R509): a write of LDG_UPD. -/
  | ledgerUpdate (v : W64)
  /-- LEDGER_UPDATE_DONE (R510): the update ends; `readback` says that the copy read back as programmed. -/
  | ledgerUpdateDone (readback : Bool)
  /-- FAULT_LOG_CLEAR (R519): a write of FLT_CTL. -/
  | faultLogClear (v : W64)
  /-- WARM_LINKS_DOWN (R428). -/
  | warmLinksDown
  /-- WIPE_COMPLETE (R526). -/
  | wipeComplete
  /-- WARM_RETRAIN_DONE (R522): the host link has trained to `lanes` lanes. -/
  | warmRetrainDone (lanes : Nat)
  /-- COLD_RESET (R522): MOD_RST_N is released. -/
  | coldReset
  /-- TRACE_SYNC_PERIODIC (R544). -/
  | traceSyncPeriodic (cell : Nat)
  /-- TRACE_STREAM_ENABLE (R547): a write of TRC_BASE. -/
  | traceStreamEnable (gallery : Nat) (v : W64)
  /-- TRACE_STREAM (R548). -/
  | traceStream (gallery : Nat)
  /-- COUNTER_CLEAR (R556): a write of CNT_CTL with CLEAR = 1. -/
  | counterClear (v : W64)
  /-- COUNTER_FREEZE (R556): a write of CNT_CTL. -/
  | counterFreeze (v : W64)
  /-- DUMP_DONE (R560); `ok` is false after a write fault. -/
  | dumpDone (ok : Bool)
  /-- POWER_QUANTUM (R584): mean input power of the quantum and of the last 10 ms, in W. -/
  | powerQuantum (p1 p10 : Nat)
  /-- THERMAL_SENSOR_READ (R586): readings in 1/16 degree, 16 of each compute die and 8 of the I/O die. -/
  | thermalSensorRead (readings : List Int)
  /-- THERMAL_SHUTDOWN (R588). -/
  | thermalShutdown
  /-- DROOP_TRIP (R568): the detector of a gallery trips, or clears. -/
  | droopTrip (gallery : Nat) (tripped : Bool)
  /-- PLL_LOCK_LOSS (R564) of a die. -/
  | pllLockLoss (die : Nat)
  /-- SUPPLY_VOLTAGE_CHANGE (R573): the input in mV, and its power in W. -/
  | supplyVoltageChange (mV pin : Nat)
  /-- SUPPLY_BAND_EXPIRY (R573). -/
  | supplyBandExpiry
  /-- FREEZE_EDGES_STOP (R574). -/
  | freezeEdgesStop
  /-- FREEZE_LIFT (R575). -/
  | freezeLift
  /-- RAIL_OUT_OF_REGULATION (R573) of a die. -/
  | railOutOfRegulation (die : Nat)
  /-- SHUTDOWN (R576). -/
  | shutdown
  /-- POWER_ON (R577). -/
  | powerOn
  /-- ATTEST (R601): the attestation that SEC_CMD started ends. -/
  | attest
  /-- TRANSITION (R609): the transition that SEC_CMD started ends; `burnt` of its fuse banks and bits read back blown. -/
  | transition (burnt : Nat)
  /-- DEBUG_UNLOCK (R613): the unlock that SEC_CMD started ends; `burnt` says that its fuse bit reads back blown. -/
  | debugUnlock (burnt : Bool)
  /-- PROVISION (R608): the provisioning that SEC_CMD started ends; `burnt` of its three fuse steps read back blown. -/
  | provision (burnt : Nat)
  /-- MGMT_BUS_WRITE (R625): an offset and the data bytes of a write transaction. -/
  | mgmtBusWrite (off : Nat) (data : List Byte)
  /-- FLASH_ERASE (R627): a write of MB_FCTL with OP 1, on the host link or the management bus. -/
  | flashErase (bus : Bool)
  /-- FLASH_PROGRAM (R627): a write of MB_FCTL with OP 2. -/
  | flashProgram (bus : Bool)
  /-- FLASH_READ (R627): a write of MB_FCTL with OP 3. -/
  | flashRead (bus : Bool)
  /-- FLASH_OPERATION_DONE (R628); `ok` is false after a flash error. -/
  | flashOperationDone (ok : Bool)
  /-- TAP_INSTRUCTION (R632): an instruction is loaded in die 0 (I/O) or 1–4 (w0–w3). -/
  | tapInstruction (die : Nat) (op : TapOp)
  /-- LINK_TRAINING_DONE (R428): an attempt at a fabric port, or at the host link (15), ends; what the far end reports, and the lanes of the host link. -/
  | linkTrainingDone (port : Nat) (ok : Bool) (peer pport lanes : Nat)
  /-- BOOT_COMPLETE (R507): what the SPD hubs of the sockets 0 to 7 report, and how many FWSVN bits of a commit read back blown. -/
  | bootComplete (dimms : List (Option Dimm)) (burnt : Nat)
  /-- FORWARDED_EVENT_RECEIVE (R479). -/
  | forwardedEventReceive (port : Nat) (msg : FabMsg)
  /-- UNKNOWN_CLASS_DISCARD (R437). -/
  | unknownClassDiscard (port : Nat) (msg : FabMsg)
  /-- HOST_LINE_INVALIDATE (R463): the host writes bytes of its own memory. -/
  | hostLineInvalidate (off : Nat) (data : List Byte)
  /-- MOD_RST_N_ASSERT (R577). -/
  | modRstNAssert
  /-- TAP_RESET (R631). -/
  | tapReset
  /-- STRETCH_DECAY (R570) of a wing. -/
  | stretchDecay (wing : Nat)
  /-- DYNAMIC_ADDRESS_ASSIGN (R624). -/
  | dynamicAddressAssign (addr : Nat)
  /-- CONVERTER_DONE (R157). -/
  | converterDone (cell : Nat)
  /-- DRAIN_PATH_DONE (R192). -/
  | drainPathDone (cell : Nat)
  /-- DW_PATH_DONE (R194). -/
  | dwPathDone (cell : Nat)
  /-- TRANSCENDENTAL_PIPE_FREE (R211). -/
  | transcendentalPipeFree (cell : Nat)
  deriving DecidableEq, Repr

end Sys2Proof
end

