-- ==== Sys2Proof/Decode.lean ====
section
/-! DEFINITION. The command that a word spells: the block's commands have no encoding, since no row of the opcode table gives bits. -/
namespace Sys2Proof

/-- The command that an instruction word of `nbits` bits spells by the table's bits: none, for every word. DESIGN CHOICE (log entry 1). -/
def decodeTableWord (_nbits _w : Nat) : Option Instr := none

end Sys2Proof
end

