-- ==== Sys2Proof/Config.lean ====
section
/-! DEFINITION. What the specification leaves open, as constants with no body: nothing can evaluate them, so whatever is proved holds for every
value of them. -/
namespace Sys2Proof.Config

/-- The n-th unspecified 64-bit value the machine draws (R21, R51, R59, R213, R298, R314): the spec gives it no value. DESIGN CHOICE (log entry 5). -/
opaque freeWord : Nat → W64

/-- The n-th unspecified byte. DESIGN CHOICE (log entry 5). -/
opaque freeByte : Nat → Byte

/-- The n-th draw of the steward's hardware random source (R599, R606), as a number below 2^521. DESIGN CHOICE (log entry 5). -/
opaque randomDraw : Nat → Nat

/-- The configuration flash as shipped (R502): the spec gives the layout of its contents and no bytes. DESIGN CHOICE (log entry 9). -/
opaque flashShipped : Nat → Byte

/-- Fuse bank VKH, written at manufacture (R592): the SHA-512 digest of the vendor public key, as 64 bytes. DESIGN CHOICE (log entry 9). -/
opaque vendorKeyHash : List Byte

/-- REV of ID_STATUS: the silicon revision (R468). DESIGN CHOICE (log entry 8). -/
opaque revision : BitVec 8

end Sys2Proof.Config
end

