-- ==== Sys2Proof/Machine/Tab.lean ====
section
/-! DEFINITION. The sparse table: a list of (key, value) pairs in ONE canonical form, keys strictly rising and no entry equal
to what an unlisted key reads as. Memory, register files, lanes, accumulators and the control-window register bank
are all held in it, so that equal contents are equal data. -/
namespace Sys2Proof

/-- A sparse table over natural-number keys. -/
abbrev Tab (α : Type) := List (Nat × α)

namespace Machine

/-- The value at key `k`; an unlisted key reads as `d k`. -/
def tabGet {α : Type} (d : Nat → α) : Tab α → Nat → α
  | [], k => d k
  | (j, v) :: t, k => if j = k then v else tabGet d t k

/-- The table without an entry for `k`. -/
def tabDel {α : Type} (t : Tab α) (k : Nat) : Tab α := t.filter fun e => e.1 != k

/-- The table with the entry `(k, x)`, in its place. -/
def tabIns {α : Type} : Tab α → Nat → α → Tab α
  | [], k, x => [(k, x)]
  | (j, v) :: t, k, x =>
    if j = k then (k, x) :: t else if k < j then (k, x) :: (j, v) :: t else (j, v) :: tabIns t k x

/-- Writes `x` at `k` and keeps the canonical form: writing what an unlisted key reads as removes the entry. -/
def tabPut {α : Type} [DecidableEq α] (d : Nat → α) (t : Tab α) (k : Nat) (x : α) : Tab α :=
  if x = d k then tabDel t k else tabIns t k x

/-- Removes every entry whose key `p` selects: those keys then read as unlisted. -/
def tabClear {α : Type} (p : Nat → Bool) (t : Tab α) : Tab α :=
  t.filter (fun e => !p e.1)

/-- The first key of the table lies above `lo` (or there is none), and keys rise strictly from there. -/
def tabSorted {α : Type} : Nat → Tab α → Bool
  | _, [] => true
  | lo, (j, _) :: t => decide (lo ≤ j) && tabSorted (j + 1) t

/-- The canonical form. -/
def tabWf {α : Type} [DecidableEq α] (d : Nat → α) (t : Tab α) : Bool :=
  tabSorted 0 t && t.all (fun e => !decide (e.2 = d e.1))

end Machine
end Sys2Proof
end

