-- ==== Sys2Proof/Machine/Formats.lean ====
section
/-! DEFINITION. The number formats of the KX9, their decoding, their rounding and their encoders (02_number_formats.md, R66–R84),
the choice of block scales (R95), the B16 residue (R80) and the dice function (R82). -/
namespace Sys2Proof.Machine

/-- The element formats a tensor descriptor can name (TD_ID.FMT, R312). -/
inductive Fmt where
  | p32 | i32 | g16 | b16 | a8 | g8 | v8 | f4 | i4
  deriving DecidableEq, Repr

/-- The value of a code (R67, R70): an annex marker, a special, or `(−1)^s × sig × 2^ex` exactly. -/
inductive Val where
  | marker
  | nan
  | inf (s : Bool)
  | fin (s : Bool) (sig : Nat) (ex : Int)
  deriving DecidableEq, Repr

/-- The encoder parameters of one floating format (R75). -/
structure FloatParams where
  eb : Nat
  mb : Nat
  bias : Int
  signed : Bool
  emax : Nat
  mmax : Nat
  deriving DecidableEq, Repr

/-- The rounding mode: ties away from zero (R72), or stochastic with one dice output (R73). -/
inductive Rnd where
  | rna
  | sr (d : W32)
  deriving DecidableEq, Repr

/-- Bits of one element. -/
def fmtBits : Fmt → Nat
  | .p32 => 32 | .i32 => 32 | .g16 => 16 | .b16 => 16
  | .a8 => 8 | .g8 => 8 | .v8 => 8 | .f4 => 4 | .i4 => 4

/-- The format of a TD_ID.FMT code (R312); codes 0x9–0xF are reserved. -/
def fmtOfCode : Nat → Option Fmt
  | 0 => some .p32 | 1 => some .i32 | 2 => some .g16 | 3 => some .b16 | 4 => some .a8
  | 5 => some .g8 | 6 => some .v8 | 7 => some .f4 | 8 => some .i4 | _ => none

/-- The TD_ID.FMT code of a format (R312). -/
def fmtCode : Fmt → Nat
  | .p32 => 0 | .i32 => 1 | .g16 => 2 | .b16 => 3 | .a8 => 4 | .g8 => 5 | .v8 => 6 | .f4 => 7 | .i4 => 8

/-- R75. The integer formats take no row there; their parameters are not read. -/
def floatParams : Fmt → FloatParams
  | .f4 => { eb := 2, mb := 1, bias := 1, signed := true, emax := 3, mmax := 1 }
  | .a8 => { eb := 4, mb := 3, bias := 7, signed := true, emax := 15, mmax := 6 }
  | .g8 => { eb := 5, mb := 2, bias := 15, signed := true, emax := 30, mmax := 3 }
  | .v8 => { eb := 5, mb := 3, bias := 15, signed := false, emax := 31, mmax := 6 }
  | .g16 => { eb := 8, mb := 7, bias := 127, signed := true, emax := 254, mmax := 127 }
  | .p32 => { eb := 8, mb := 23, bias := 127, signed := true, emax := 254, mmax := 0x7F_FFFF }
  | .i32 => { eb := 0, mb := 0, bias := 0, signed := true, emax := 0, mmax := 0 }
  | .b16 => { eb := 0, mb := 0, bias := 0, signed := true, emax := 0, mmax := 0 }
  | .i4 => { eb := 0, mb := 0, bias := 0, signed := true, emax := 0, mmax := 0 }

/-- The finite value of a two's-complement code of `w` bits. -/
def decodeInt (w c : Nat) : Val :=
  if c < 2 ^ (w - 1) then .fin false c 0 else .fin true (2 ^ w - c) 0

/-- The finite value of a floating code (the last part of R70). -/
def decodeFinite (p : FloatParams) (c : Nat) : Val :=
  let m := c % 2 ^ p.mb
  let e := (c >>> p.mb) % 2 ^ p.eb
  let s := p.signed && (c >>> (p.eb + p.mb)) % 2 == 1
  if e = 0 then .fin s m (1 - p.bias - p.mb) else .fin s (m + 2 ^ p.mb) ((e : Int) - p.bias - p.mb)

/-- The class and value of every code (R67, R70). A P32 subnormal code reads as zero of its sign (R71); a G16 subnormal keeps
its value here and is flushed by `toP32Val` alone. A B16 code decodes in units of its block. -/
def decodeCode (f : Fmt) (c : Nat) : Val :=
  match f with
  | .f4 => if c = 8 then .marker else decodeFinite (floatParams .f4) c
  | .i4 => if c = 8 then .marker else decodeInt 4 c
  | .a8 => if c % 128 = 0x7F then .nan else decodeFinite (floatParams .a8) c
  | .g8 =>
    if (c >>> 2) % 32 = 31 then (if c % 4 = 0 then .inf ((c >>> 7) % 2 == 1) else .nan)
    else decodeFinite (floatParams .g8) c
  | .v8 => if c = 0xFF then .nan else decodeFinite (floatParams .v8) c
  | .g16 =>
    if (c >>> 7) % 256 = 255 then (if c % 128 = 0 then .inf ((c >>> 15) % 2 == 1) else .nan)
    else decodeFinite (floatParams .g16) c
  | .p32 =>
    if (c >>> 23) % 256 = 255 then (if c % 2 ^ 23 = 0 then .inf ((c >>> 31) % 2 == 1) else .nan)
    else if (c >>> 23) % 256 = 0 then .fin ((c >>> 31) % 2 == 1) 0 (-149)
    else decodeFinite (floatParams .p32) c
  | .i32 => decodeInt 32 c
  | .b16 => if c = 0x8000 then .nan else decodeInt 16 c

/-- Multiplies a finite value by `2^k`; specials keep their meaning. -/
def scaleVal (v : Val) (k : Int) : Val :=
  match v with
  | .fin s sig ex => .fin s sig (ex + k)
  | v => v

/-- Index of the highest set bit (R74's msb). -/
def msb (n : Nat) : Nat := n.log2

/-- R74 round_unit: the magnitude in units of `2^qx`. R72 for RNA, R73 for SR. The procedure's cap of the shift at 127 cuts
nothing off here, because a natural number has no width. -/
def roundUnit (sig : Nat) (ex qx : Int) (mode : Rnd) : Nat :=
  if qx ≤ ex then sig <<< (ex - qx).toNat
  else
    let sh := (qx - ex).toNat
    let n := sig >>> sh
    let rem := sig - (n <<< sh)
    if rem = 0 then n
    else match mode with
      | .rna => if 1 <<< (sh - 1) ≤ rem then n + 1 else n
      | .sr d =>
        let f24 := if 24 ≤ sh then rem >>> (sh - 24) else rem <<< (24 - sh)
        if 2 ^ 24 ≤ f24 + (d.toNat >>> 8) then n + 1 else n

/-- The sign bit of a code of format `f`. -/
def signCode (f : Fmt) (s : Bool) : Nat := if s then 2 ^ (fmtBits f - 1) else 0

/-- R69: the zero an encoder writes. -/
def zeroCode (f : Fmt) (s : Bool) : Nat :=
  match f with
  | .a8 | .g8 | .g16 | .p32 => signCode f s
  | _ => 0

/-- R75, R76: the code of a finite magnitude beyond the range. -/
def overflowCode (f : Fmt) (s : Bool) : Nat :=
  match f with
  | .f4 => signCode f s + 0x7
  | .a8 => signCode f s + 0x7E
  | .g8 => signCode f s + 0x7C
  | .v8 => 0xFE
  | .g16 => signCode f s + 0x7F80
  | .p32 => signCode f s + 0x7F80_0000
  | .i4 => if s then 9 else 7
  | .i32 => if s then 0x8000_0001 else 0x7FFF_FFFF
  | .b16 => if s then 0x8001 else 0x7FFF

/-- What an encode did, for the gauges (R116): nothing, or a finite input limited or turned into an infinity. -/
structure Enc where
  code : Nat
  overflow : Bool
  deriving DecidableEq, Repr

/-- R74 encode_float of `(−1)^s × sig × 2^ex`. -/
def encodeFloat (f : Fmt) (s : Bool) (sig : Nat) (ex : Int) (mode : Rnd) : Enc :=
  let p := floatParams f
  if sig = 0 then { code := zeroCode f s, overflow := false }
  else
    let qx0 := max ((msb sig : Int) + ex) (1 - p.bias) - p.mb
    let n0 := roundUnit sig ex qx0 mode
    let n := if n0 = 2 ^ (p.mb + 1) then 2 ^ p.mb else n0
    let qx := if n0 = 2 ^ (p.mb + 1) then qx0 + 1 else qx0
    if n = 0 then { code := zeroCode f s, overflow := false }
    else if n < 2 ^ p.mb then
      (if f = .p32 then { code := zeroCode f s, overflow := false } else { code := signCode f s + n, overflow := false })
    else
      let e := (qx + p.mb + p.bias).toNat
      let m := n - 2 ^ p.mb
      if p.emax < e ∨ (e = p.emax ∧ p.mmax < m) then { code := overflowCode f s, overflow := true }
      else { code := (if p.signed then signCode f s else 0) + e * 2 ^ p.mb + m, overflow := false }

/-- R77 encode_int. `over` says that the limit acted. -/
def encodeInt (s : Bool) (sig : Nat) (ex qx : Int) (limit bits : Nat) : Enc :=
  let n0 := roundUnit sig ex qx .rna
  let n := min n0 limit
  { code := if s && n != 0 then 2 ^ bits - n else n, overflow := decide (limit < n0) }

/-- The NaN code the KX9 writes (R67, R76). -/
def nanCode : Fmt → Nat
  | .a8 => 0x7F | .g8 => 0x7E | .v8 => 0xFF | .g16 => 0x7FC0 | .p32 => 0x7FC0_0000 | .b16 => 0x8000 | _ => 0

/-- R76: the code of an infinity. -/
def infCode (f : Fmt) (s : Bool) : Nat :=
  match f with
  | .a8 => 0x7F
  | .g8 => signCode f s + 0x7C
  | .v8 => 0xFF
  | .g16 => signCode f s + 0x7F80
  | .p32 => signCode f s + 0x7F80_0000
  | .b16 => 0x8000
  | _ => 0

/-- Encodes any value (R74, R76, R77). An F4 or I4 special does not reach this encoder: R79 acts on its block. -/
def encodeVal (f : Fmt) (v : Val) (mode : Rnd) : Enc :=
  match v with
  | .nan => { code := nanCode f, overflow := false }
  | .inf s => { code := infCode f s, overflow := false }
  | .marker => { code := zeroCode f false, overflow := false }
  | .fin s sig ex =>
    match f with
    | .i4 => encodeInt s sig ex 0 7 4
    | .b16 => encodeInt s sig ex 0 32767 16
    | .v8 => if s && sig != 0 then { code := 0xFF, overflow := false } else encodeFloat .v8 false sig ex mode
    | f => encodeFloat f s sig ex mode

/-- The value as a decode into P32 sees it (R71): a subnormal magnitude (a G16 subnormal among them) is the zero of its sign. -/
def flushVal (v : Val) : Val :=
  match v with
  | .fin s sig ex => if sig != 0 && (msb sig : Int) + ex < -126 then .fin s 0 0 else .fin s sig ex
  | v => v

/-! ### P32 codes -/

/-- The NaN the KX9 writes (R88). -/
def qnan : W32 := 0x7FC0_0000#32

/-- The value of a P32 code. -/
def p32Val (x : W32) : Val := decodeCode .p32 x.toNat

/-- R74 with RNA into P32. -/
def p32Enc (v : Val) : W32 := BitVec.ofNat 32 (encodeVal .p32 v .rna).code

/-- One code of a scaled tensor as a P32 operand (R71, R78, R90): `k` is the sum of the scale exponents. Under a block scale of
0xFF every code that is not a special of its format decodes as NaN (R78); an annex marker reads as +0 (R68). -/
def elemVal (f : Fmt) (c : Nat) (eb : Nat) (k : Int) : Val :=
  match decodeCode f c with
  | .fin s sig ex => if eb = 0xFF then .nan else .fin s sig (ex + k)
  | .marker => if eb = 0xFF then .nan else .fin false 0 0
  | v => v

/-- R71 for a B16 element `q` of a block with exponent `e`: a magnitude of at least 2^128 gives an infinity of its sign, one
below 2^-126 gives +0. Every element of a block with E = 0xFF is NaN (R78, R80). -/
def b16Val (q e : Nat) : Val :=
  match decodeCode .b16 q with
  | .fin s sig ex => if e = 0xFF then .nan else .fin s sig (ex + (e : Int) - 127)
  | _ => .nan

/-- The P32 code a B16 element loads as (R71). -/
def b16ToP32 (q e : Nat) : W32 :=
  match b16Val q e with
  | .fin s sig ex =>
    if sig = 0 then 0
    else if (msb sig : Int) + ex < -126 then 0
    else if 128 ≤ (msb sig : Int) + ex then p32Enc (.inf s)
    else p32Enc (.fin s sig ex)
  | _ => qnan

/-! ### Block scales (R95) -/

/-- Largest finite magnitude of a scaled format as `fs × 2^fe` (R95). -/
def blockMax : Fmt → Nat × Int
  | .f4 => (3, 1) | .i4 => (7, 0) | .a8 => (7, 6) | .g8 => (7, 13) | .v8 => (7, 14) | _ => (1, 0)

/-- R95 block_exp for the greatest magnitude `sigM × 2^exM`. -/
def blockExp (sigM : Nat) (exM : Int) (f : Fmt) : Nat :=
  if sigM = 0 then 0x7F
  else
    let (fs, fe) := blockMax f
    let k0 : Int := ((msb sigM : Int) + exM) - ((msb fs : Int) + fe)
    let k := if fs <<< msb sigM < sigM <<< msb fs then k0 + 1 else k0
    (max 0 (min (127 + k) 254)).toNat

/-- Is `a` a smaller magnitude than `b`? Exact, for values `sig × 2^ex`. -/
def magLt (a b : Nat × Int) : Bool :=
  let e := min a.2 b.2
  decide (a.1 <<< (a.2 - e).toNat < b.1 <<< (b.2 - e).toNat)

/-- The greatest magnitude among the finite values of a list; `(0, 0)` when there is none. -/
def maxMag : List Val → Nat × Int
  | [] => (0, 0)
  | .fin _ sig ex :: t => let m := maxMag t; if magLt m (sig, ex) then (sig, ex) else m
  | _ :: t => maxMag t

/-! ### B16 blocks (R80) -/

/-- A B16 code as an integer; 0x8000 counts as 0. -/
def b16Int (q : Nat) : Int := if q = 0x8000 then 0 else if q < 0x8000 then (q : Int) else (q : Int) - 65536

/-- R80: the residue of a block. -/
def b16Residue (qs : List Nat) : Nat := ((qs.map b16Int).sum % 255).toNat

/-- The element rule of R197 and R391: integer sum limited to ±32,767, or "not a value". The flag says that the limit acted. -/
def b16Add (a b : Nat) : Nat × Bool :=
  if a = 0x8000 ∨ b = 0x8000 then (0x8000, false)
  else
    let s := b16Int a + b16Int b
    let r := max (-32767) (min s 32767)
    ((r % 65536).toNat, decide (r ≠ s))

/-- R198 steps 2 to 4 on whole blocks: the residue the adder expects from the two residues, and whether it equals the residue of
the result. -/
def b16AddCheck (as bs : List Nat) (ra rb : Nat) (rs : List Nat) : Bool :=
  let corr := ((as.zip (bs.zip rs)).map fun (a, b, r) => (b16Int a + b16Int b - b16Int r) % 255).sum
  decide ((((ra : Int) + rb - corr) % 255).toNat = b16Residue rs)

/-- The side word of R81: exponent in the low byte, residue above it. -/
def sideWord (e r : Nat) : Nat := e % 256 + 256 * (r % 256)

/-! ### The dice function (R82) -/

/-- One round of R82's loop over `(a, b, c, d, k, j)`. -/
def diceRound (x : W32 × W32 × W32 × W32 × W32 × W32) : W32 × W32 × W32 × W32 × W32 × W32 :=
  let (a, b, c, d, k, j) := x
  let p : W64 := (a ^^^ k).setWidth 64 * 0xA4F1_3C6B#64
  let q : W64 := (c ^^^ j).setWidth 64 * 0x8E2D_57B5#64
  let pl : W32 := p.setWidth 32
  let ql : W32 := q.setWidth 32
  let ph : W32 := (p >>> 32).setWidth 32
  let qh : W32 := (q >>> 32).setWidth 32
  (qh ^^^ b ^^^ pl.rotateLeft 11, ql, ph ^^^ d ^^^ ql.rotateLeft 19, pl, k + 0x7F4A_7C15#32, j.rotateLeft 5 + 0xC13F_A9A9#32)

/-- R82. -/
def dice (seed : W64) (stamp : BitVec 48) (tid : W32) (idx : BitVec 48) (use : BitVec 8) : W32 :=
  let b : W32 := (idx >>> 32).setWidth 32 ||| ((stamp >>> 32).setWidth 32 <<< 16)
  let k : W32 := seed.setWidth 32 ^^^ (use.setWidth 32 <<< 24)
  let s0 := (idx.setWidth 32, b, stamp.setWidth 32, tid, k, (seed >>> 32).setWidth 32)
  let r := diceRound (diceRound (diceRound (diceRound (diceRound (diceRound s0)))))
  r.1 ^^^ r.2.2.1.rotateLeft 16

end Sys2Proof.Machine
end

