-- ==== Sys2Proof/Machine/P32.lean ====
section
/-! DEFINITION. P32 arithmetic: adds, multiplies and fused forms rounded once (R87, R88, R151), the orders and compares of R208,
the conversions of R209 and the transcendental operations of R210, which round the exact mathematical result once. -/
namespace Sys2Proof.Machine

/-- What a lane operation reports beside its result (R212). The order is that of R219's KIND. -/
inductive LaneEvent where
  | invalid | divz | range
  deriving DecidableEq, Repr

/-- The KIND code of R219. -/
def laneEventKind : LaneEvent → Nat
  | .invalid => 1 | .divz => 2 | .range => 3

/-- A P32 operand as the operations see it: a subnormal is the zero of its sign, and every NaN is the one NaN (R88). -/
def p32Flush (x : W32) : W32 :=
  if (x >>> 23) &&& 0xFF#32 = 0 then x &&& 0x8000_0000#32
  else if (x >>> 23) &&& 0xFF#32 = 0xFF#32 ∧ x &&& 0x7F_FFFF#32 ≠ 0 then qnan
  else x

/-- Is `x` a NaN code? -/
def p32IsNan (x : W32) : Bool := decide (p32Val x = .nan)

/-- A signed integer in units of `2^e` for a finite value whose exponent is at least `e`. -/
def finInt (s : Bool) (sig : Nat) (ex e : Int) : Int :=
  let m : Int := (sig <<< (ex - e).toNat : Nat)
  if s then -m else m

/-- Is the value a zero of negative sign? -/
def valNegZero : Val → Bool
  | .fin true 0 _ => true
  | _ => false

/-- The exact sum of two values; the flag says that a NaN arose from operands that are none (R212). A zero sum is +0 unless both
terms are zeros of negative sign (R87). -/
def valAdd (x y : Val) : Val × Bool :=
  match x, y with
  | .inf s, .inf t => if s = t then (.inf s, false) else (.nan, true)
  | .inf s, .fin _ _ _ => (.inf s, false)
  | .fin _ _ _, .inf s => (.inf s, false)
  | .fin s a i, .fin t b j =>
    let e := min i j
    let n := finInt s a i e + finInt t b j e
    if n = 0 then (.fin (valNegZero x && valNegZero y) 0 0, false)
    else (.fin (decide (n < 0)) n.natAbs e, false)
  | _, _ => (.nan, false)

/-- The exact product; the flag marks 0 × ∞. -/
def valMul (x y : Val) : Val × Bool :=
  match x, y with
  | .fin s a i, .fin t b j => (.fin (s != t) (a * b) (i + j), false)
  | .inf s, .inf t => (.inf (s != t), false)
  | .inf s, .fin t b _ => if b = 0 then (.nan, true) else (.inf (s != t), false)
  | .fin s a _, .inf t => if a = 0 then (.nan, true) else (.inf (s != t), false)
  | _, _ => (.nan, false)

/-- The value with its sign turned. -/
def valNeg : Val → Val
  | .fin s a i => .fin (!s) a i
  | .inf s => .inf (!s)
  | v => v

/-- R87: an add rounded once. -/
def p32AddE (a b : W32) : W32 × Bool := let r := valAdd (p32Val a) (p32Val b); (p32Enc r.1, r.2)
/-- R87: a − b. -/
def p32SubE (a b : W32) : W32 × Bool := let r := valAdd (p32Val a) (valNeg (p32Val b)); (p32Enc r.1, r.2)
/-- R87: a × b. -/
def p32MulE (a b : W32) : W32 × Bool := let r := valMul (p32Val a) (p32Val b); (p32Enc r.1, r.2)

/-- R71, R552: a value as its P32 code gives it. -/
def p32Round (v : Val) : Val := p32Val (p32Enc (flushVal v))

/-- The exact product of two P32 codes whose significands' product is off by `off` (R213). -/
def movedMul (a b : W32) (off : Int) : Val × Bool :=
  let m := valMul (p32Val a) (p32Val b)
  (match m.1 with | .fin s sig ex => if off = 0 then m.1 else .fin s ((sig : Int) + off).natAbs ex | v => v, m.2)

/-- R87: the product `p` plus `c`, rounded once. A NaN operand raises no event (R212). -/
def p32Fused (neg : Bool) (a b c : W32) : W32 × Bool :=
  let p := valMul (p32Val a) (p32Val b)
  let r := valAdd (if neg then valNeg p.1 else p.1) (p32Val c)
  (p32Enc r.1, (p.2 || r.2) && !(p32IsNan a || p32IsNan b || p32IsNan c))

/-- R87, R207: a × b + c. -/
def p32FmaE (a b c : W32) : W32 × Bool := p32Fused false a b c
/-- R87, R207: −(a × b) + c. -/
def p32FmsE (a b c : W32) : W32 × Bool := p32Fused true a b c

/-- The sum without its event. -/
def p32Add (a b : W32) : W32 := (p32AddE a b).1
/-- The difference without its event. -/
def p32Sub (a b : W32) : W32 := (p32SubE a b).1
/-- The product without its event. -/
def p32Mul (a b : W32) : W32 := (p32MulE a b).1
/-- The fused multiply-add without its event. -/
def p32Fma (a b c : W32) : W32 := (p32FmaE a b c).1

/-- R208: the rank of a code that is no NaN; −0 lies just below +0. -/
def p32Key (x : W32) : Int :=
  let m : Int := ((p32Flush x).toNat % 2 ^ 31 : Nat)
  if x.msb then -m - 1 else m

/-- R208. -/
def p32Min (a b : W32) : W32 :=
  if p32IsNan a || p32IsNan b then qnan else if p32Key b < p32Key a then p32Flush b else p32Flush a
/-- R208. -/
def p32Max (a b : W32) : W32 :=
  if p32IsNan a || p32IsNan b then qnan else if p32Key a < p32Key b then p32Flush b else p32Flush a
/-- R208. -/
def p32Abs (a : W32) : W32 := if p32IsNan a then qnan else p32Flush a &&& 0x7FFF_FFFF#32
/-- R208. -/
def p32Neg (a : W32) : W32 := if p32IsNan a then qnan else p32Flush a ^^^ 0x8000_0000#32

/-- The number a finite or infinite code stands for, ordered: +0 and −0 are equal. -/
def p32Num (x : W32) : Int :=
  let m : Int := ((p32Flush x).toNat % 2 ^ 31 : Nat)
  if x.msb then -m else m

/-- R208. -/
def p32Eq (a b : W32) : Bool := !(p32IsNan a || p32IsNan b) && decide (p32Num a = p32Num b)
/-- R208. -/
def p32Lt (a b : W32) : Bool := !(p32IsNan a || p32IsNan b) && decide (p32Num a < p32Num b)
/-- R208. -/
def p32Le (a b : W32) : Bool := !(p32IsNan a || p32IsNan b) && decide (p32Num a ≤ p32Num b)
/-- R208. -/
def p32Un (a b : W32) : Bool := p32IsNan a || p32IsNan b

/-- R209. An infinity is limited as any value beyond the range is. -/
def p32ToInt (a : W32) : W32 × Option LaneEvent :=
  match p32Val a with
  | .nan => (0, some .invalid)
  | .inf s => (if s then 0x8000_0000#32 else 0x7FFF_FFFF#32, none)
  | .marker => (0, none)
  | .fin s sig ex =>
    let n := roundUnit sig ex 0 .rna
    (if s then BitVec.ofInt 32 (-(min n (2 ^ 31) : Nat)) else BitVec.ofNat 32 (min n (2 ^ 31 - 1)), none)

/-- R209. -/
def intToP32 (x : W32) : W32 :=
  p32Enc (.fin x.msb x.toInt.natAbs 0)

/-! ### Transcendental operations (R210)

Each is computed in fixed point with 340 fraction bits. The exact results of VEXP and VLOG are irrational away from the special operands,
so a value known to within 2^-300 of it rounds as the exact value does: no P32 operand comes closer to a rounding boundary. -/

/-- Fraction bits of the fixed-point work. -/
def txFrac : Nat := 340

/-- ln 2 in units of `2^-340`, rounded down. -/
def txLn2 : Nat := 0xb17217f7d1cf79abc9e3b39803f2f6af40f343267298b62d8a0d175b8baafa2be7b876206debac9855955

/-- Horner's form of the exponential series for `r` in units of `2^-340`, from term `n` down. -/
def txExpSeries (r : Nat) : Nat → Nat → Nat
  | 0, acc => acc
  | n + 1, acc => txExpSeries r n (1 <<< txFrac + ((r * acc) >>> txFrac) / (n + 1))

/-- R210: e^a. -/
def p32Exp (a : W32) : W32 :=
  match p32Val a with
  | .nan | .marker => qnan
  | .inf s => if s then 0 else 0x7F80_0000#32
  | .fin s sig ex =>
    if sig = 0 then 0x3F80_0000#32
    else if 7 ≤ (msb sig : Int) + ex then (if s then 0 else 0x7F80_0000#32)
    else
      let x : Int := finInt s sig ex (-(txFrac : Int))
      let k : Int := x / (txLn2 : Int)
      let r := (x - k * txLn2).toNat
      p32Enc (.fin false (txExpSeries r 80 (1 <<< txFrac) * 2 + 1) (k - txFrac - 1))

/-- The sum of `z^(2i+1) / (2i+1)` for `n` terms, `zp` the next power and `z2` the square, both in units of `2^-340`. -/
def txAtanhSeries (z2 : Nat) : Nat → Nat → Nat → Nat → Nat
  | 0, _, _, acc => acc
  | n + 1, i, zp, acc => txAtanhSeries z2 n (i + 2) ((zp * z2) >>> txFrac) (acc + zp / i)

/-- R210: the natural logarithm. -/
def p32Log (a : W32) : W32 × Option LaneEvent :=
  match p32Val a with
  | .nan | .marker => (qnan, none)
  | .inf s => if s then (qnan, some .invalid) else (0x7F80_0000#32, none)
  | .fin s sig ex =>
    if sig = 0 then (0xFF80_0000#32, some .divz)
    else if s then (qnan, some .invalid)
    else if sig = 2 ^ msb sig ∧ (msb sig : Int) + ex = 0 then (0, none)
    else
      -- a = 2^e × sig / 2^m with the quotient in [0.7, 1.5)
      let up := decide (3 * 2 ^ msb sig ≤ 2 * sig)
      let m := if up then msb sig + 1 else msb sig
      let e : Int := (m : Int) + ex
      let neg := decide (sig < 2 ^ m)
      let z := ((if neg then 2 ^ m - sig else sig - 2 ^ m) <<< txFrac) / (sig + 2 ^ m)
      let t : Int := (2 * txAtanhSeries ((z * z) >>> txFrac) 80 1 z 0 : Nat)
      let y : Int := e * txLn2 + (if neg then -t else t)
      (p32Enc (.fin (decide (y < 0)) (y.natAbs * 2 + 1) (-(txFrac : Int) - 1)), none)

/-- R210: the reciprocal. The quotient carries a last bit that says whether a remainder is left. -/
def p32Rcp (a : W32) : W32 × Option LaneEvent :=
  match p32Val a with
  | .nan | .marker => (qnan, none)
  | .inf s => (if s then 0x8000_0000#32 else 0, none)
  | .fin s sig ex =>
    if sig = 0 then (p32Enc (.inf s), some .divz)
    else
      let q := 2 ^ 64 / sig
      (p32Enc (.fin s (q * 2 + (if q * sig = 2 ^ 64 then 0 else 1)) (-65 - ex)), none)

/-- The integer square root of `n`, bit by bit from bit `b - 1`. -/
def isqrtBits (n : Nat) : Nat → Nat → Nat
  | 0, acc => acc
  | b + 1, acc => isqrtBits n b (if (acc + 2 ^ b) * (acc + 2 ^ b) ≤ n then acc + 2 ^ b else acc)

/-- R210: the reciprocal square root. -/
def p32Rsqrt (a : W32) : W32 × Option LaneEvent :=
  match p32Val a with
  | .nan | .marker => (qnan, none)
  | .inf s => if s then (qnan, some .invalid) else (0, none)
  | .fin s sig ex =>
    if sig = 0 then (p32Enc (.inf s), some .divz)
    else if s then (qnan, some .invalid)
    else
      let sg := if ex % 2 = 0 then sig else sig * 2
      let e := if ex % 2 = 0 then ex else ex - 1
      let q := isqrtBits (2 ^ 120 / sg) 61 0
      (p32Enc (.fin false (q * 2 + (if q * q * sg = 2 ^ 120 then 0 else 1)) (-61 - e / 2)), none)

end Sys2Proof.Machine
end

