-- ==== Sys2Proof/Machine/Conv.lean ====
section
/-! DEFINITION. The converters on whole blocks (03_scales_and_annex.md, R92, R95, R109–R116; R78–R80): the choice of block scales,
the selection of annex entries, the encodes into scaled formats, and the blocks that the update converter re-encodes
(12_parameter_update.md, R412, R413). -/
namespace Sys2Proof.Machine

/-- Clamp of an integer. -/
def clampI (x lo hi : Int) : Int := max lo (min x hi)

/-- Is the value a NaN or an infinity? -/
def valSpecial : Val → Bool
  | .nan => true
  | .inf _ => true
  | _ => false

/-- An encoded block with what its gauges count (R116): elements limited or turned into an infinity, elements written as NaN. -/
structure BlockEnc where
  scale : Nat
  codes : List Nat
  overflow : Nat
  nans : Nat
  deriving DecidableEq, Repr

/-- Is `c` a NaN code of format `f`? -/
def isNanCode (f : Fmt) (c : Nat) : Bool := decide (decodeCode f c = .nan)

/-- R95: the block scale for the greatest magnitude among `vs`, which are already divided by T. -/
def chooseScale (f : Fmt) (vs : List Val) : Nat := let m := maxMag vs; blockExp m.1 m.2 f

/-- R92 steps 1, 3, 4 and 5 for one block. `none` is a place that holds no element (masked off, or padding beyond the tensor); `true` beside a value says
that the annex has taken it, so its place holds the marker (R112). `rnd i` is the rounding of place `i`. -/
def encodeBlk (f : Fmt) (texp : Int) (rnd : Nat → Rnd) (xs : List (Option Val × Bool)) : BlockEnc :=
  let live := xs.filterMap (·.1)
  let narrow := f == .f4 || f == .i4
  if narrow && live.any valSpecial then
    { scale := 0xFF, codes := xs.map fun _ => 0, overflow := 0, nans := live.length }
  else if !narrow && !live.isEmpty && live.all valSpecial then
    let cs := xs.map fun x => match x.1 with | none => 0 | some v => (encodeVal f v .rna).code
    { scale := 0xFF, codes := cs, overflow := 0, nans := (cs.filter (isNanCode f)).length }
  else
    let rest := xs.filterMap fun x => if x.2 then none else x.1.map (scaleVal · (-texp))
    let eb := chooseScale f rest
    let es := xs.zipIdx.map fun (x, i) =>
      match x.1 with
      | none => ({ code := 0, overflow := false } : Enc)
      | some v =>
        if x.2 then { code := 8, overflow := false }
        else encodeVal f (scaleVal v (-texp - ((eb : Int) - 127))) (rnd i)
    { scale := eb, codes := es.map (·.code), overflow := (es.filter (·.overflow)).length
      nans := ((xs.zip es).filter fun (x, e) => x.1.isSome && !x.2 && isNanCode f e.code).length }

/-- The annex settings of a conversion (R101 BARO_ANX, R105): the tensor takes entries when POOL is not 0 and THETA is not 0xFF. -/
structure AnnexCfg where
  theta : Nat
  pool : Nat
  texp : Int
  taexp : Int
  deriving DecidableEq, Repr

/-- The entries of one annex tile so far, oldest first, and what the gauges count. -/
structure AnnexSel where
  entries : List Nat
  ovf : Nat
  sat : Nat
  deriving DecidableEq, Repr

/-- R109: a finite magnitude that exceeds θ × T. -/
def isOutlier (c : AnnexCfg) : Val → Bool
  | .fin _ sig ex => magLt (1, (c.theta : Int) - 127 + c.texp) (sig, ex)
  | _ => false

/-- R113. -/
def annexEntry (code row col : Nat) : Nat := code * 2 ^ 24 + 2 ^ 23 + row % 128 * 256 + col % 256

/-- R111, R112 for the elements of one row, ascending column: each with its column within the tile and whether its block is special
(R79). The list answered says which places the annex takes. -/
def annexRow (c : AnnexCfg) (row : Nat) : List (Nat × Option Val × Bool) → AnnexSel → List Bool × AnnexSel
  | [], st => ([], st)
  | (col, v, special) :: t, st =>
    match v with
    | none => let r := annexRow c row t st; (false :: r.1, r.2)
    | some v =>
      if special || !isOutlier c v then let r := annexRow c row t st; (false :: r.1, r.2)
      else if c.pool ≤ st.entries.length then
        let r := annexRow c row t { st with ovf := st.ovf + 1 }; (false :: r.1, r.2)
      else
        let e := encodeVal .a8 (scaleVal v (-c.taexp)) .rna
        let r := annexRow c row t
          { st with entries := st.entries ++ [annexEntry e.code row col], sat := st.sat + (if e.overflow then 1 else 0) }
        (true :: r.1, r.2)

/-- PSTRIDE of a pool (R114). -/
def poolStride (pool : Nat) : Nat := (4 * pool + 63) / 64 * 64

/-- Splits a list into pieces of `n`; `fuel` bounds the pieces. -/
def chunksOf {α : Type} (n : Nat) : Nat → List α → List (List α)
  | 0, _ => []
  | fuel + 1, xs => if xs.isEmpty then [] else xs.take n :: chunksOf n fuel (xs.drop n)

/-- Column `i` of a list of rows. -/
def columnOf {α : Type} (d : α) (rows : List (List α)) (i : Nat) : List α := rows.map fun r => r.getD i d

/-- What one conversion of rows gives: codes row by row, the scale rows, and the counts of R116 by gauge number. -/
structure ConvOut where
  codes : List (List Nat)
  scales : List (List Nat)
  sel : AnnexSel
  overflow : Nat
  nans : Nat
  deriving DecidableEq, Repr

/-- R92 for one row in row direction with blocks of `b`: annex marks first, then block by block. -/
def convRow (f : Fmt) (b : Nat) (cfg : Option AnnexCfg) (texp : Int) (tileRow col0 : Nat) (row : List (Option Val))
    (sel : AnnexSel) : ConvOut :=
  let blks := chunksOf b row.length row
  let spec := blks.flatMap fun blk => let s := (blk.filterMap id).any valSpecial; blk.map fun _ => s
  let am := match cfg with
    | none => (row.map fun _ => false, sel)
    | some c => annexRow c tileRow ((row.zip spec).zipIdx.map fun ((v, s), i) => (col0 + i, v, s)) sel
  let es := (chunksOf b row.length (row.zip am.1)).map (encodeBlk f texp (fun _ => .rna))
  { codes := [es.flatMap (·.codes)], scales := [es.map (·.scale)], sel := am.2
    overflow := (es.map (·.overflow)).sum, nans := (es.map (·.nans)).sum }

/-- Annex marks of consecutive rows. -/
def annexRows (c : AnnexCfg) (tileRow col0 : Nat) (spec : List Bool) :
    List (List (Option Val)) → AnnexSel → List (List Bool) × AnnexSel
  | [], st => ([], st)
  | row :: t, st =>
    let r := annexRow c tileRow ((row.zip spec).zipIdx.map fun ((v, s), i) => (col0 + i, v, s)) st
    let u := annexRows c (tileRow + 1) col0 spec t r.2
    (r.1 :: u.1, u.2)

/-- R92 for a group of rows in column direction: each column of the group is one block. -/
def convGroup (f : Fmt) (cfg : Option AnnexCfg) (texp : Int) (tileRow col0 : Nat) (rows : List (List (Option Val)))
    (sel : AnnexSel) : ConvOut :=
  let n := (rows.headD []).length
  let spec := (List.range n).map fun i => ((columnOf none rows i).filterMap id).any valSpecial
  let am := match cfg with
    | none => (rows.map fun (r : List (Option Val)) => r.map fun _ => false, sel)
    | some c => annexRows c tileRow col0 spec rows sel
  let es := (List.range n).map fun i =>
    encodeBlk f texp (fun _ => .rna) ((columnOf none rows i).zip (columnOf false am.1 i))
  { codes := (List.range rows.length).map fun k => es.map fun e => e.codes.getD k 0
    scales := [es.map (·.scale)], sel := am.2
    overflow := (es.map (·.overflow)).sum, nans := (es.map (·.nans)).sum }

/-- R412 for one block of a moment tensor: each lane with its old code, its new value (none when the lane is kept) and its dice
output. A block whose every lane is kept answers its old codes and scale. -/
def momentBlk (f : Fmt) (texp : Int) (oldScale : Nat) (xs : List (Nat × Option Val × W32)) : BlockEnc :=
  if xs.all (fun x => x.2.1.isNone) then { scale := oldScale, codes := xs.map (·.1), overflow := 0, nans := 0 }
  else
    let vals := xs.map fun x =>
      match x.2.1 with
      | some v => scaleVal v (-texp)
      | none => elemVal f x.1 oldScale ((oldScale : Int) - 127)
    let eb := if vals.all valSpecial then 0xFF else chooseScale f vals
    let es := (xs.zip vals).map fun (x, v) =>
      let v' := if eb = 0xFF then v else scaleVal v (-((eb : Int) - 127))
      (x.2.1.isSome, encodeVal f v' (if x.2.1.isSome then .sr x.2.2 else .rna))
    { scale := eb, codes := es.map (·.2.code), overflow := (es.filter fun e => e.1 && e.2.overflow).length, nans := 0 }

/-- Keeps the 64 most significant bits of a magnitude (R413). -/
def trunc64 (sig : Nat) (ex : Int) : Nat × Int :=
  if sig.log2 < 64 then (sig, ex) else (sig >>> (sig.log2 - 63), ex + (sig.log2 - 63 : Nat))

/-- R413 nm_store of a lane that is not kept. -/
def nmStore (mo : Nat) (v : W32) (texp : Int) (d : W32) : Enc :=
  let x := (valAdd (decodeCode .g16 mo) (valNeg (scaleVal (p32Val v) texp))).1
  match x with
  | .fin s sig ex => let t := trunc64 sig ex; encodeVal .g16 (.fin s t.1 t.2) (.sr d)
  | x => encodeVal .g16 x (.sr d)

/-- R107, R196: one B16 block of 32 values under exponent `e`: codes, elements limited (B16_SAT), elements written as NaN. -/
def b16Block (e : Nat) (vs : List Val) : BlockEnc :=
  if e = 0xFF then { scale := e, codes := vs.map fun _ => 0x8000, overflow := 0, nans := vs.length }
  else
    let es := vs.map fun v => encodeVal .b16 (scaleVal v (127 - (e : Int))) .rna
    { scale := e, codes := es.map (·.code), overflow := (es.filter (·.overflow)).length
      nans := (es.filter fun x => x.code == 0x8000).length }

/-- R105 ceil_log2 of a positive P32 code. -/
def ceilLog2 (x : Nat) : Int :=
  let e : Int := ((x >>> 23) % 256 : Nat)
  if x % 2 ^ 23 = 0 then e - 127 else e - 126

end Sys2Proof.Machine
end

