-- ==== Sys2Proof/Machine/ArrayMath.lean ====
section
/-! DEFINITION. The arithmetic of the two arrays, of the derivative unit, of the lane-reduction tree and of the small solves, on plain
values: block values of the forward array (04_forward_array.md, R140–R144), of the backward pair (05_backward_pair.md, R170–R182), the
tree of R222 and the factorisations of R228 and R229. -/
namespace Sys2Proof.Machine

/-- The exact sum of integers, each in units of its own power of two. -/
def sumTerms (ts : List (Int × Int)) : Val :=
  let e := (ts.map (·.2)).foldl min 0
  let n : Int := (ts.map fun t => t.1 * ((1 <<< (t.2 - e).toNat : Nat) : Int)).sum
  .fin (decide (n < 0)) n.natAbs e

/-! ### Residue checks (R158, R159) -/

/-- An error that a checked unit makes in its next operation (R158, R159, R199, R213): `sub` names the unit as R520 does (1 forward multiplier, 2 forward
block register, 3 backward multiplier, 4 backward block register or shifter, 5 derivative unit, 6 vector lane), `col`, `blk`, `part` and `row` the site
in it, and its result is off by `delta`. No command of the table brings one about. DESIGN CHOICE (log entry 13). -/
structure Slip where
  sub : Nat
  col : Nat
  blk : Nat
  part : Nat
  row : Nat
  delta : Int
  deriving DecidableEq, Repr

/-- R158: the product of two significands agrees with them modulo 3. -/
def mod3Ok (a b p : Int) : Bool := a.natAbs % 3 * (b.natAbs % 3) % 3 == p.natAbs % 3

/-- R159: what a product enters into the residue of its part under a shift of `j` places. -/
def residueIn (p : Int) (j : Nat) : Int := (if p < 0 then -1 else 1) * ((p.natAbs * 2 ^ (j % 8) % 255 : Nat) : Int)

/-- R159: the residue that the products (with their shifts) carry agrees with the part's final integer. -/
def residueOk (ps : List (Int × Nat)) (final : Int) : Bool := ((ps.map fun p => residueIn p.1 p.2).sum - final) % 255 == 0

/-- How far the slips that `p` selects move one result. -/
def slipSum (slips : List Slip) (p : Slip → Bool) : Int := ((slips.filter p).map (·.delta)).sum

/-! ### Forward array -/

/-- A forward operand code as a signed significand and the places by which it stands above 2^-9 (R140); markers and specials count as zero. -/
def fwdSig (f : Fmt) (c : Nat) : Int × Nat :=
  match decodeCode f c with
  | .fin s sig ex => (if s then -(sig : Int) else sig, (ex + 9).toNat)
  | _ => (0, 0)

/-- Does a code record a NaN in the special lane (R143)? -/
def fwdNan (f : Fmt) (c eb : Nat) : Bool := eb == 0xFF || decide (decodeCode f c = .nan)

/-- The marker of an F4 or I4 tensor (R68). -/
def isMarker (f : Fmt) (c : Nat) : Bool := decide (decodeCode f c = .marker)

/-- One operand block of 32 codes with its block scale. -/
structure FwdBlk where
  fmt : Fmt
  codes : List Nat
  eb : Nat
  deriving DecidableEq, Repr

/-- One multiplier of a block: its row, its operands' significands, and the places by which the product stands above 2^-18 (R140, R142). -/
structure FwdTerm where
  row : Nat
  a : Int
  b : Int
  j : Nat
  deriving DecidableEq, Repr

/-- The multiplier of operands `x` and `y` in row `k`. -/
def fwdTerm (k : Nat) (x y : Int × Nat) : FwdTerm := { row := k, a := x.1, b := y.1, j := x.2 + y.2 }

/-- R141: the multipliers of the four parts of a block: main, weight annex, activation annex, double annex. `wann` are the weight annex sites of the
column and block (row within the block, A8 code), `aann` the buffered activation annex entries of the token in the block. -/
def fwdTerms (x w : FwdBlk) (wann aann : List (Nat × Nat)) : List (List FwdTerm) :=
  let sx (k : Nat) : Int × Nat := fwdSig x.fmt (x.codes.getD k 0)
  let sw (k : Nat) : Int × Nat := fwdSig w.fmt (w.codes.getD k 0)
  let plain := aann.filter fun p => !isMarker w.fmt (w.codes.getD p.1 0)
  let both := aann.filter fun p => isMarker w.fmt (w.codes.getD p.1 0)
  let site (k : Nat) : Int × Nat := match wann.find? fun q => q.1 == k with | some q => fwdSig .a8 q.2 | none => (0, 0)
  [ ((x.codes.map (fwdSig x.fmt)).zip (w.codes.map (fwdSig w.fmt))).zipIdx.map fun (p, k) => fwdTerm k p.1 p.2,
    wann.map fun p => fwdTerm p.1 (fwdSig .a8 p.2) (sx p.1),
    plain.map fun p => fwdTerm p.1 (fwdSig .a8 p.2) (sw p.1),
    both.map fun p => fwdTerm p.1 (fwdSig .a8 p.2) (site p.1) ]

/-- The product that a multiplier of part `k` forms, in units of its own. -/
def fwdProduct (slips : List Slip) (k : Nat) (t : FwdTerm) : Int :=
  t.a * t.b + slipSum slips fun s => s.sub == 1 && s.part == k && s.row == t.row

/-- R142: the integer that the block register holds for part `k`, in units of 2^-18. -/
def fwdPart (slips : List Slip) (k : Nat) (ts : List FwdTerm) : Int :=
  (ts.map fun t => fwdProduct slips k t * ((2 ^ t.j : Nat) : Int)).sum + slipSum slips fun s => s.sub == 2 && s.part == k

/-- R158–R160: the SUB of the first check of a block that fails: 1 for a product, 2 for a block register. -/
def fwdChecks (slips : List Slip) (parts : List (List FwdTerm)) : Option Nat :=
  if parts.zipIdx.any fun (ts, k) => ts.any fun t => !mod3Ok t.a t.b (fwdProduct slips k t) then some 1
  else if parts.zipIdx.any fun (ts, k) => !residueOk (ts.map fun t => (fwdProduct slips k t, t.j)) (fwdPart slips k ts) then some 2
  else none

/-- The checks of a block. Right products pass them all (`fwdChecks_nil`), so a block with no slip is not looked at. -/
def fwdCheck (slips : List Slip) (parts : List (List FwdTerm)) : Option Nat := if slips.isEmpty then none else fwdChecks slips parts

/-- R141–R143: the rounded block value of one column, and the check that fails. `tx`, `ax`, `tw`, `aw` are exponents; `slips` the errors of the block's
column. -/
def fwdBlock (x w : FwdBlk) (tx ax tw aw : Int) (wann aann : List (Nat × Nat)) (slips : List Slip) : W32 × Option Nat :=
  let parts := fwdTerms x w wann aann
  let bad := fwdCheck slips parts
  if x.codes.any (fwdNan x.fmt · x.eb) || w.codes.any (fwdNan w.fmt · w.eb) then (qnan, bad)
  else
    let ex : Int := (x.eb : Int) - 127 + tx
    let ew : Int := (w.eb : Int) - 127 + tw
    let sums := parts.zipIdx.map fun (ts, k) => fwdPart slips k ts
    match sumTerms (sums.zip [ex + ew - 18, aw + ex - 18, ax + ew - 18, ax + aw - 18]) with
    | .fin s sig e => (if sig = 0 then 0 else p32Enc (.fin s sig e), bad)
    | _ => (qnan, bad)

/-- R151: block values added into an accumulator entry in order, one RNA add each. -/
def accumulate (clr : Bool) (acc : W32) (blocks : List W32) : W32 := blocks.foldl p32Add (if clr then 0 else acc)

/-! ### Backward pair -/

/-- R170: an image element in the common form, as its exact value; `eb` is its strip byte and `texp` the tensor scale. G16 takes
neither. -/
def commonForm (f : Fmt) (c eb : Nat) (texp : Int) : Val :=
  match f with
  | .g16 => decodeCode .g16 c
  | f => elemVal f c eb ((eb : Int) - 127 + texp)

/-- R170: an annex entry's A8 value with the annex scale. -/
def annexForm (c : Nat) (taexp : Int) : Val := scaleVal (decodeCode .a8 c) taexp

/-- Is the product of the two operands an invalid product (R177)? -/
def invalidProd (a b : Val) : Bool := (valMul a b).2

/-- Product exponent of a finite non-zero product (R175). -/
def prodExp : Val → Option Int
  | .fin _ sig ex => if sig = 0 then none else some ((msb sig : Int) + ex)
  | _ => none

/-- R175: the alignment exponent of a block's products, when it has a non-zero finite one. -/
def blockEmax (ps : List Val) : Option Int :=
  (ps.filterMap prodExp).foldl (fun m e => match m with | none => some e | some x => some (max x e)) none

/-- R175, R199: one product on its way into a block register: its operands' significands, itself as a signed integer, the shift that aligns it (to the
right when positive), and the aligned term with whether bits fell off. -/
structure BwdTerm where
  row : Nat
  a : Nat
  b : Nat
  p : Int
  sh : Int
  t : Int
  sticky : Bool
  deriving DecidableEq, Repr

/-- R175: the product of a pair aligned to a block register whose bit 0 weighs `2^(emax - 40)`; none for a product that is not finite. -/
def bwdTerm (slips : List Slip) (emax : Int) (k : Nat) (q : Val × Val) : Option BwdTerm :=
  match q.1, q.2 with
  | .fin s a i, .fin t b j =>
    let m : Int := (a * b : Nat) + slipSum slips fun u => u.sub == 3 && u.row == k
    let p : Int := if s != t then -m else m
    let sh := emax - 40 - (i + j)
    let off := slipSum slips fun u => u.sub == 4 && u.row == k
    if m = 0 then some { row := k, a := a, b := b, p := 0, sh := 0, t := off, sticky := false }
    else if sh ≤ 0 then some { row := k, a := a, b := b, p := p, sh := sh, t := p * ((2 ^ (-sh).toNat : Nat) : Int) + off, sticky := false }
    else
      let n := (min sh 16).toNat
      some { row := k, a := a, b := b, p := p, sh := sh, t := p / ((2 ^ n : Nat) : Int) + off
             sticky := decide (16 ≤ sh) || decide (m % ((2 ^ n : Nat) : Int) ≠ 0) }
  | _, _ => none

/-- R199: the shifter's identity for a term shifted right: the residues of the term and of the bits that it drops give the product's. -/
def shiftOk (u : BwdTerm) : Bool :=
  let n := (min u.sh 16).toNat
  let drop := u.p % ((2 ^ n : Nat) : Int)
  if u.sh ≤ 0 then true else (u.t % 255 * ((2 ^ (n % 8) : Nat) : Int) + drop % 255 - u.p % 255) % 255 == 0

/-- R199: the SUB of the first check of a block that fails: 3 for a product, 4 for the shifter or the block register. -/
def bwdChecks (ts : List BwdTerm) (reg : Int) : Option Nat :=
  if ts.any fun u => !mod3Ok u.a u.b u.p then some 3
  else if ts.any fun u => !shiftOk u then some 4
  else
    let carried := (ts.map fun u => if u.sh ≤ 0 then residueIn u.p (-u.sh).toNat else u.t % 255).sum
    if (carried - reg) % 255 == 0 then none else some 4

/-- The checks of a block. Right products and terms pass them all (`bwdChecks_nil`), so a block with no slip is not looked at. -/
def bwdCheck (slips : List Slip) (ts : List BwdTerm) (reg : Int) : Option Nat := if slips.isEmpty then none else bwdChecks ts reg

/-- R175 block_value of the finite products under the alignment exponent `emax`, with the check that fails. -/
def blockValueFin (slips : List Slip) (emax : Option Int) (ops : List (Val × Val)) : W32 × Option Nat :=
  match emax with
  | none => (0, none)
  | some e =>
    let ts := ops.zipIdx.filterMap fun q => bwdTerm slips e q.2 q.1
    let reg := (ts.map (·.t)).sum + slipSum slips fun u => u.sub == 4 && decide (32 ≤ u.row)
    let sticky := ts.any (·.sticky)
    let bad := bwdCheck slips ts reg
    if reg = 0 ∧ !sticky then (0, bad)
    else
      let w := 2 * reg + (if sticky then 1 else 0)
      (p32Enc (.fin (decide (w < 0)) w.natAbs (e - 41)), bad)

/-- What a block close gives: the block value, the number of invalid products (R178), and the check that fails (R199). -/
structure BwdOut where
  value : W32
  inv : Nat
  bad : Option Nat
  deriving DecidableEq, Repr

/-- R177: the block of 32 operand pairs under the alignment exponent `emax`. -/
def bwdBlockAt (slips : List Slip) (emax : Option Int) (ops : List (Val × Val)) : BwdOut :=
  let ps := ops.map fun p => valMul p.1 p.2
  let inv := (ps.filter (·.2)).length
  let vs := ps.map (·.1)
  let pinf := vs.any (· == .inf false)
  let ninf := vs.any (· == .inf true)
  let f := blockValueFin slips emax ops
  let v := if vs.any (· == .nan) then qnan
    else if pinf && ninf then qnan
    else if pinf then 0x7F80_0000#32
    else if ninf then 0xFF80_0000#32
    else f.1
  { value := v, inv := inv, bad := f.2 }

/-- R175: the alignment exponent of 32 operand pairs. -/
def pairEmax (ops : List (Val × Val)) : Option Int := blockEmax (ops.map fun p => (valMul p.1 p.2).1)

/-- R175, R177 for a block that finds its alignment exponent itself. -/
def bwdBlock (slips : List Slip) (ops : List (Val × Val)) : BwdOut := bwdBlockAt slips (pairEmax ops) ops

/-- R181, R182: what the derivative unit writes for one element, with its events: an invalid product, a finite product that became
an infinity, a NaN written; and whether its multiplier's check failed (R199). -/
structure DerivOut where
  code : Nat
  invalid : Bool
  inf : Bool
  nan : Bool
  bad : Bool
  deriving DecidableEq, Repr

/-- R181: the row of the function: the gradient itself, +0, or a product with the derivative `d`. -/
inductive DerivSel where
  | grad
  | zero
  | mul (d : W32)
  deriving DecidableEq, Repr

/-- R181: the selection for FN 1 to 8; the parameters are P32. -/
def derivSel (fn : Nat) (y p0 p1 : W32) : DerivSel :=
  let one := 0x3F80_0000#32
  let pos := p32Lt 0 y
  match fn with
  | 1 => if pos then .grad else .zero
  | 2 => if pos then .grad else .mul p0
  | 3 => .mul (p32Mul y (p32Sub one y))
  | 4 => .mul (p32Sub one (p32Mul y y))
  | 5 => .mul (p32Sub one (p32Exp (p32Neg y)))
  | 6 => if pos then .grad else .mul (p32Add y p0)
  | 7 => .mul y
  | 8 => if p32Lt p0 y && p32Lt y p1 then .grad else .zero
  | _ => .grad

/-- R182 for the gradient code `g` and the saved output `y`; `off` is by how much the multiplier's product of significands is off (R199). -/
def derivative (fn g : Nat) (y p0 p1 : W32) (off : Int) : DerivOut :=
  let plain (code : Nat) (nan : Bool) : DerivOut := { code := code, invalid := false, inf := false, nan := nan, bad := false }
  let gv := decodeCode .g16 g
  if fn = 0 then plain g (decide (gv = .nan))
  else if gv = .nan ∨ p32IsNan y then plain 0x7FC0 true
  else match derivSel fn y p0 p1 with
  | .grad => plain g false
  | .zero => plain 0 false
  | .mul d =>
    let m := valMul gv (p32Val d)
    let moved : Val := match m.1 with | .fin s sig ex => .fin s ((sig : Int) + off).natAbs ex | v => v
    let bad := match gv, p32Val d with | .fin _ a _, .fin _ b _ => !mod3Ok a b ((a * b : Nat) + off) | _, _ => false
    let v := if off = 0 then m.1 else moved
    let e := encodeVal .g16 v .rna
    { code := e.code, invalid := m.2, inf := e.overflow, nan := decide (v = .nan), bad := bad }

/-! ### Lane reduction -/

/-- One level of the tree (R222). -/
def treeLevel {α : Type} (comb : α → α → α) : List (Option α) → List (Option α)
  | some a :: some b :: t => some (comb a b) :: treeLevel comb t
  | some a :: none :: t => some a :: treeLevel comb t
  | none :: y :: t => y :: treeLevel comb t
  | [x] => [x]
  | [] => []

/-- R222: the tree of 8 levels over 256 lanes. -/
def laneTree {α : Type} (comb : α → α → α) (xs : List (Option α)) : Option α :=
  ((List.range 8).foldl (fun l _ => treeLevel comb l) xs).headD none

/-- R221: the order in which RARGMAX ranks P32 codes: NaN above every value. -/
def argGe (int : Bool) (a b : W32) : Bool :=
  if int then decide (b.toInt ≤ a.toInt)
  else if p32IsNan a then true
  else if p32IsNan b then false
  else decide (p32Key b ≤ p32Key a)

/-- R221: the larger of two, of the type named. -/
def redMax (int : Bool) (a b : W32) : W32 := if int then (if a.toInt < b.toInt then b else a) else p32Max a b
/-- R221: the smaller of two, of the type named. -/
def redMin (int : Bool) (a b : W32) : W32 := if int then (if b.toInt < a.toInt then b else a) else p32Min a b

/-- R221, R222: the tree result over the active lanes as an s64 pattern; none when every lane is masked off. Lanes are
(active, value). -/
def redTree (op : Nat) (int : Bool) (xs : List (Bool × W32)) : Option W64 :=
  let lane (g : W32 → W32) : List (Option W32) := xs.map fun p => if p.1 then some (g p.2) else none
  let canon : W32 → W32 := if int then id else p32Flush
  let lo (o : Option W32) : Option W64 := o.map (·.setWidth 64)
  match op with
  | 1 => -- RSUM
    if int then laneTree (· + ·) (xs.map fun p => if p.1 then some (p.2.signExtend 64) else none)
    else lo (laneTree p32Add (lane canon))
  | 2 => lo (laneTree p32Add (lane fun x => p32Mul x x))
  | 3 => lo (laneTree (redMax int) (lane canon))
  | 4 => lo (laneTree (redMin int) (lane canon))
  | 5 => (laneTree (fun a b : Nat × W32 => if argGe int a.2 b.2 then a else b)
      (xs.zipIdx.map fun (p, i) => if p.1 then some (i, p.2) else none)).map fun r => BitVec.ofNat 64 r.1
  | _ => -- RCOUNT
    if xs.any (·.1) then
      some (BitVec.ofNat 64 (xs.filter fun p => p.1 && !(if int then p.2 == 0 else p32Num p.2 == 0 && !p32IsNan p.2)).length)
    else none

/-- R221: the result when every lane is masked off and ACC = 0. -/
def redEmpty (op : Nat) (int : Bool) : W64 :=
  match op with
  | 3 => if int then 0x8000_0000#64 else 0x7FC0_0000#64
  | 4 => if int then 0x7FFF_FFFF#64 else 0x7FC0_0000#64
  | 5 => 0xFFFF_FFFF#64
  | _ => 0

/-- R223: the tree result combined with the current value of the destination (its 64 bits, or a lane). -/
def redAcc (op : Nat) (int : Bool) (cur r : W64) : W64 :=
  let c : W32 := cur.setWidth 32
  let v : W32 := r.setWidth 32
  match op with
  | 1 => if int then cur + r else (p32Add c v).setWidth 64
  | 2 => (p32Add c v).setWidth 64
  | 3 => (redMax int c v).setWidth 64
  | 4 => (redMin int c v).setWidth 64
  | _ => cur + r

/-! ### Small solves -/

/-- Reads a matrix table; row `i`, column `j`. -/
def mGet (t : Tab W32) (i j : Nat) : W32 := tabGet (fun _ => 0) t (64 * i + j)
/-- Writes a matrix table. -/
def mPut (t : Tab W32) (i j : Nat) (x : W32) : Tab W32 := tabPut (fun _ => 0) t (64 * i + j) x

/-- `n - 1` down to `lo`. -/
def downTo (n lo : Nat) : List Nat := ((List.range (n - lo)).map (· + lo)).reverse

/-- `lo` up to `n - 1`. -/
def upFrom (lo n : Nat) : List Nat := (List.range (n - lo)).map (· + lo)

/-- The threshold of R228 and R229: |τ| × dmax, or 2^-126 where that is zero. -/
def pivotFloor (a : Tab W32) (n : Nat) (tau : W32) : W32 :=
  let dmax := (List.range n).foldl (fun m i => p32Max m (p32Abs (mGet a i i))) 0
  let t := p32Mul (p32Abs tau) dmax
  if !p32IsNan t && p32Num t == 0 then 0x0080_0000#32 else t

/-- Σ by fused steps: s ← fma(−a k, b k, s) over `ks` in order. -/
def fmaChain (ks : List Nat) (a b : Nat → W32) (s : W32) : W32 := ks.foldl (fun s k => p32Fma (p32Neg (a k)) (b k) s) s

/-- What a factorisation holds: the factor, the reciprocals by column, the row order, the pivots replaced. -/
structure Factor where
  m : Tab W32
  r : List W32
  perm : List Nat
  rep : Nat
  deriving DecidableEq, Repr

/-- R228: the factor L column by column, left-looking. -/
def cholFactor (a : Tab W32) (n : Nat) (tau : W32) : Factor :=
  let t := pivotFloor a n tau
  (List.range n).foldl (fun f j =>
    let d0 := fmaChain (List.range j) (mGet f.m j) (mGet f.m j) (mGet a j j)
    let low := p32Lt d0 t
    let d := if low then t else d0
    let rj := (p32Rsqrt d).1
    let m := (upFrom (j + 1) n).foldl (fun m i =>
      mPut m i j (p32Mul (fmaChain (List.range j) (mGet m i) (mGet m j) (mGet a i j)) rj)) f.m
    { m := m, r := f.r ++ [rj], perm := [], rep := f.rep + (if low then 1 else 0) })
    { m := [], r := [], perm := [], rep := 0 }

/-- R228: one right-hand side. -/
def cholSolve (f : Factor) (n : Nat) (b : List W32) : List W32 :=
  let r (i : Nat) : W32 := f.r.getD i 0
  let y := (List.range n).foldl (fun (y : List W32) i =>
    y ++ [p32Mul (fmaChain (List.range i) (mGet f.m i) (fun k => y.getD k 0) (b.getD i 0)) (r i)]) []
  (downTo n 0).foldl (fun (x : Tab W32) i =>
    mPut x 0 i (p32Mul (fmaChain (downTo n (i + 1)) (fun k => mGet f.m k i) (mGet x 0) (y.getD i 0)) (r i))) []
  |> fun x => (List.range n).map (mGet x 0)

/-- R229: the row in `j` to `n - 1` with the greatest magnitude in column `j`, ranked as RARGMAX ranks. -/
def pivotRow (u : Tab W32) (n j : Nat) : Nat :=
  (upFrom (j + 1) n).foldl (fun p i => if argGe false (p32Abs (mGet u p j)) (p32Abs (mGet u i j)) then p else i) j

/-- Exchanges two rows. -/
def swapRows (u : Tab W32) (n i j : Nat) : Tab W32 :=
  (List.range n).foldl (fun m c => mPut (mPut m i c (mGet u j c)) j c (mGet u i c)) u

/-- Exchanges two places of a list. -/
def swapList (l : List Nat) (i j : Nat) : List Nat := (l.set i (l.getD j 0)).set j (l.getD i 0)

/-- R229: the factors, right-looking with partial pivoting. -/
def luFactor (a : Tab W32) (n : Nat) (tau : W32) : Factor :=
  let t := pivotFloor a n tau
  (List.range n).foldl (fun f j =>
    let p := pivotRow f.m n j
    let u := swapRows f.m n j p
    let d0 := mGet u j j
    let low := p32Lt (p32Abs d0) t
    let piv := if low then t ||| (d0 &&& 0x8000_0000#32) else d0
    let u := if low then mPut u j j piv else u
    let rj := (p32Rcp piv).1
    let m := (upFrom (j + 1) n).foldl (fun m i =>
      let q := p32Mul (mGet m i j) rj
      (upFrom (j + 1) n).foldl (fun m c => mPut m i c (p32Fma (p32Neg q) (mGet m j c) (mGet m i c))) (mPut m i j q)) u
    { m := m, r := f.r ++ [rj], perm := swapList f.perm j p, rep := f.rep + (if low then 1 else 0) })
    { m := a, r := [], perm := List.range n, rep := 0 }

/-- R229: one right-hand side. -/
def luSolve (f : Factor) (n : Nat) (b : List W32) : List W32 :=
  let y := (List.range n).foldl (fun (y : List W32) i =>
    y ++ [fmaChain (List.range i) (mGet f.m i) (fun k => y.getD k 0) (b.getD (f.perm.getD i 0) 0)]) []
  (downTo n 0).foldl (fun (x : Tab W32) i =>
    mPut x 0 i (p32Mul (fmaChain (downTo n (i + 1)) (mGet f.m i) (mGet x 0) (y.getD i 0)) (f.r.getD i 0))) []
  |> fun x => (List.range n).map (mGet x 0)

/-- R228, R229: the four solutions and the number of pivots replaced. -/
def solve (lu : Bool) (a : Tab W32) (n : Nat) (bs : List (List W32)) (tau : W32) : List (List W32) × Nat :=
  if lu then let f := luFactor a n tau; (bs.map (luSolve f n), f.rep)
  else let f := cholFactor a n tau; (bs.map (cholSolve f n), f.rep)

end Sys2Proof.Machine
end

