-- ==== Sys2Proof/Machine/Bundle.lean ====
section
/-! DEFINITION. The bundle of the docent: the operations of its seven slots and their encodings (07_docent_isa.md, R238–R264), with
the legality check of R244. Decoding answers none for an illegal slot. Every table here follows the table of the rule its
docstring names. -/
namespace Sys2Proof.Machine

/-- Bits `hi` to `lo` of a word. -/
def fld (w hi lo : Nat) : Nat := (w >>> lo) % 2 ^ (hi + 1 - lo)

/-- One bit of a word. -/
def bitAt (w i : Nat) : Bool := (w >>> i) % 2 == 1

/-- A two-operand integer operation of the scalar slot (R246). -/
inductive SAlu where
  | add | sub | and | or | xor | shl | shr | sra | mul | min | max | slt | sltu | seq
  deriving DecidableEq, Repr

/-- A scalar P32 operation (R246). -/
inductive SFp where
  | fadd | fsub | fmul
  deriving DecidableEq, Repr

/-- A branch condition (R246). -/
inductive BrCond where
  | always | zero | nonzero | negative
  deriving DecidableEq, Repr

/-- The operations of the scalar slot (R245, R246). `sz` is the access width in bytes. -/
inductive ScalarOp where
  | snop
  | alu (op : SAlu) (d a b : Nat)
  | aluImm (op : SAlu) (d a : Nat) (imm : W64)
  | li (d : Nat) (imm : W64)
  | lih (d a : Nat) (imm : W32)
  | fp (op : SFp) (d a b : Nat)
  | load (w : Bool) (sz d a : Nat) (imm : W64)
  | store (w : Bool) (sz d a : Nat) (imm : W64)
  | setwb (a : Nat)
  | getwb (d : Nat)
  | rdstamp (d : Nat)
  | rdid (d : Nat)
  | rdlc (d n : Nat)
  | br (c : BrCond) (a target : Nat)
  | loop (l : Nat) (fromReg : Bool) (a count stop : Nat)
  | halt
  deriving DecidableEq, Repr

/-- The operations of the forward-array slot (R256). The layer-input converter of R121 has no operation. DESIGN CHOICE (log entry 44). -/
inductive FwdOp where
  | fnop
  | pload (desc a : Nat) (vslot : Bool)
  | pswap
  | fwd (desc a cnt : Nat) (bank clr aanx : Bool)
  | fcvt (desc a cnt : Nat) (bank w128 : Bool)
  | fdrain (a cnt : Nat) (bank : Bool)
  deriving DecidableEq, Repr

/-- The operations of the backward-pair slot (R257). -/
inductive BwdOp where
  | bnop
  | bldw (desc a : Nat) (vslot snap : Bool)
  | bldx (desc a : Nat)
  | bldy (desc a fn p : Nat)
  | bswap (w xy : Bool)
  | bwd (l r lb clrl rb clrr : Bool) (tid : Nat)
  | lfill (bank : Bool) (a : Nat)
  | ldrain (bank mode : Bool) (desc a : Nat)
  | dwacc (src rb clr last : Bool) (desc a b h : Nat)
  deriving DecidableEq, Repr

/-- The vector operations (R259). -/
inductive VOp where
  | vadd | vsub | vmul | vfma | vfms | vmin | vmax | vabs | vneg
  | vcmpEq | vcmpLt | vcmpLe | vcmpUn
  | vsel
  | vexp | vlog | vrcp | vrsq
  | viadd | visub | vimul | vand | vor | vxor | vshl | vshrl | vshra | vimin | vimax
  | vicmpEq | vicmpLt | vicmpLtu
  | vcvtfi | vcvtif
  | vmov | vbcast | vlaneget | vlaneset | vgath
  | mand | mor | mxor | mnot | mfirst
  | vld | vst | vsolve
  deriving DecidableEq, Repr

/-- A vector-slot operation with the fields of R258. -/
structure VecOp where
  op : VOp
  d : Nat
  a : Nat
  b : Nat
  c : Nat
  mask : Nat
  ba : Bool
  bb : Bool
  x : Nat
  deriving DecidableEq, Repr

/-- The operations of the lane-reduction slot (R261). -/
inductive RedOp where
  | rsum | rssq | rmax | rmin | rargmax | rcount
  deriving DecidableEq, Repr

/-- A lane reduction: destination scalar `dst` (`dv` false) or lane `dst` of register `a` (`dv` true). -/
structure LaneRed where
  op : RedOp
  a : Nat
  mask : Nat
  int : Bool
  acc : Bool
  dv : Bool
  dst : Nat
  deriving DecidableEq, Repr

/-- The operations of the DMA slot (R262). `n` is the number of bundles. -/
inductive DmaOp where
  | dnop
  | dq (dd a b h : Nat)
  | pdma (first a n h : Nat)
  deriving DecidableEq, Repr

/-- The operations of the sync slot (R264). -/
inductive SyncOp where
  | none
  | waith (h : Nat)
  | seth (h s : Nat)
  | inch (h s : Nat)
  | waitp (h p : Nat)
  | pcmd (c p : Nat)
  | mark (v : Nat)
  deriving DecidableEq, Repr

/-- A legal bundle, slot by slot. -/
structure Bundle where
  scalar : ScalarOp
  fwd : FwdOp
  bwd : BwdOp
  vec : Option VecOp
  red : Option LaneRed
  dma : DmaOp
  sync : SyncOp
  deriving DecidableEq, Repr

/-- The 32-bit immediate, sign-extended (R245). -/
def sext32 (n : Nat) : W64 := (BitVec.ofNat 32 n).signExtend 64

/-- The RR codes 0x01–0x0E (R246). -/
def rrOp : Nat → Option SAlu
  | 0x01 => some .add | 0x02 => some .sub | 0x03 => some .and | 0x04 => some .or | 0x05 => some .xor
  | 0x06 => some .shl | 0x07 => some .shr | 0x08 => some .sra | 0x09 => some .mul | 0x0A => some .min
  | 0x0B => some .max | 0x0C => some .slt | 0x0D => some .sltu | 0x0E => some .seq | _ => none

/-- The RI codes 0x10–0x16 and 0x19 (R246). -/
def riOp : Nat → Option SAlu
  | 0x10 => some .add | 0x11 => some .and | 0x12 => some .or | 0x13 => some .xor
  | 0x14 => some .shl | 0x15 => some .shr | 0x16 => some .sra | 0x19 => some .slt | _ => none

/-- The scalar P32 codes (R246). -/
def fpOp : Nat → Option SFp
  | 0x1A => some .fadd | 0x1B => some .fsub | 0x1C => some .fmul | _ => none

/-- The branch codes (R246). -/
def brOp : Nat → Option BrCond
  | 0x38 => some .always | 0x39 => some .zero | 0x3A => some .nonzero | 0x3B => some .negative | _ => none

/-- The loads and stores: store or load, W class, bytes (R246). -/
def memOp : Nat → Option (Bool × Bool × Nat)
  | 0x20 => some (false, false, 1) | 0x21 => some (false, false, 2) | 0x22 => some (false, false, 4)
  | 0x23 => some (false, false, 8) | 0x24 => some (true, false, 1) | 0x25 => some (true, false, 2)
  | 0x26 => some (true, false, 4) | 0x27 => some (true, false, 8) | 0x28 => some (false, true, 4)
  | 0x29 => some (false, true, 8) | 0x2A => some (true, true, 4) | 0x2B => some (true, true, 8) | _ => none

/-- Some value when the condition holds. -/
def guardO {α : Type} (p : Bool) (x : α) : Option α := if p then some x else none

/-- R245, R246: the scalar slot of the bundle at `addr`. W-class operations need `kx7` (R268). -/
def decodeScalar (w addr : Nat) (kx7 : Bool) : Option ScalarOp :=
  let op := fld w 47 42
  let d := fld w 41 37
  let a := fld w 36 32
  let imm := sext32 (fld w 31 0)
  if w = 0 then some .snop
  else match rrOp op with
  | some o => guardO (fld w 26 0 == 0) (.alu o d a (fld w 31 27))
  | none => match riOp op with
  | some o => some (.aluImm o d a imm)
  | none => match fpOp op with
  | some o => guardO (fld w 26 0 == 0) (.fp o d a (fld w 31 27))
  | none => match brOp op with
  | some c => guardO (d == 0 && fld w 31 12 == 0) (.br c a (fld w 11 0))
  | none => match memOp op with
  | some (st, wc, sz) => guardO (kx7 || !wc) (if st then .store wc sz d a imm else .load wc sz d a imm)
  | none => match op with
  | 0x17 => guardO (a == 0) (.li d imm)
  | 0x18 => some (.lih d a (BitVec.ofNat 32 (fld w 31 0)))
  | 0x2C => guardO (kx7 && d == 0 && fld w 31 0 == 0) (.setwb a)
  | 0x2D => guardO (a == 0 && fld w 31 0 == 0) (.getwb d)
  | 0x30 => guardO (fld w 31 0 == 0) (.rdstamp d)
  | 0x31 => guardO (fld w 31 0 == 0) (.rdid d)
  | 0x32 => guardO (fld w 31 0 == 0 && a < 4) (.rdlc d a)
  | 0x3C => guardO (fld w 38 37 == 0 && fld w 11 0 != addr % 4096)
      (.loop (fld w 41 40) (bitAt w 39) a (fld w 31 12) (fld w 11 0))
  | 0x3D => guardO (fld w 41 0 == 0) .halt
  | _ => none

/-- R256. -/
def decodeFwd (w : Nat) : Option FwdOp :=
  let desc := fld w 27 20
  let a := fld w 19 15
  let cnt := fld w 14 8 + 1
  match fld w 31 28 with
  | 0 => guardO (w == 0) .fnop
  | 1 => guardO (fld w 13 0 == 0) (.pload desc a (bitAt w 14))
  | 2 => guardO (fld w 27 0 == 0) .pswap
  | 3 => guardO (fld w 4 0 == 0) (.fwd desc a cnt (bitAt w 7) (bitAt w 6) (bitAt w 5))
  | 4 => guardO (fld w 5 0 == 0) (.fcvt desc a cnt (bitAt w 7) (bitAt w 6))
  | 5 => guardO (desc == 0 && fld w 6 0 == 0) (.fdrain a cnt (bitAt w 7))
  | _ => none

/-- R257. FN 9 to 15 are illegal (R181). -/
def decodeBwd (w : Nat) : Option BwdOp :=
  match fld w 31 28 with
  | 0 => guardO (w == 0) .bnop
  | 1 => guardO (fld w 12 0 == 0) (.bldw (fld w 27 20) (fld w 19 15) (bitAt w 14) (bitAt w 13))
  | 2 => guardO (fld w 14 0 == 0) (.bldx (fld w 27 20) (fld w 19 15))
  | 3 => guardO (fld w 5 0 == 0 && fld w 14 11 < 9) (.bldy (fld w 27 20) (fld w 19 15) (fld w 14 11) (fld w 10 6))
  | 4 => guardO (fld w 25 0 == 0 && fld w 27 26 != 0) (.bswap (bitAt w 27) (bitAt w 26))
  | 5 => guardO (fld w 5 0 == 0 && fld w 27 26 != 0)
      (.bwd (bitAt w 27) (bitAt w 26) (bitAt w 25) (bitAt w 24) (bitAt w 23) (bitAt w 22) (fld w 21 6))
  | 6 => guardO (fld w 26 20 == 0 && fld w 14 0 == 0) (.lfill (bitAt w 27) (fld w 19 15))
  | 7 => guardO (fld w 12 0 == 0) (.ldrain (bitAt w 27) (bitAt w 26) (fld w 25 18) (fld w 17 13))
  | 8 => guardO (!bitAt w 0)
      (.dwacc (bitAt w 27) (bitAt w 26) (bitAt w 25) (bitAt w 24) (fld w 23 16) (fld w 15 11) (fld w 10 6) (fld w 5 1))
  | _ => none

/-- The vector operation codes (R259). -/
def vecCode : Nat → Option VOp
  | 0x01 => some .vadd | 0x02 => some .vsub | 0x03 => some .vmul | 0x04 => some .vfma | 0x05 => some .vfms
  | 0x06 => some .vmin | 0x07 => some .vmax | 0x08 => some .vabs | 0x09 => some .vneg
  | 0x10 => some .vcmpEq | 0x11 => some .vcmpLt | 0x12 => some .vcmpLe | 0x13 => some .vcmpUn
  | 0x18 => some .vsel
  | 0x20 => some .vexp | 0x21 => some .vlog | 0x22 => some .vrcp | 0x23 => some .vrsq
  | 0x30 => some .viadd | 0x31 => some .visub | 0x32 => some .vimul | 0x33 => some .vand | 0x34 => some .vor
  | 0x35 => some .vxor | 0x36 => some .vshl | 0x37 => some .vshrl | 0x38 => some .vshra | 0x39 => some .vimin
  | 0x3A => some .vimax
  | 0x40 => some .vicmpEq | 0x41 => some .vicmpLt | 0x42 => some .vicmpLtu
  | 0x48 => some .vcvtfi | 0x49 => some .vcvtif
  | 0x50 => some .vmov | 0x51 => some .vbcast | 0x52 => some .vlaneget | 0x53 => some .vlaneset
  | 0x58 => some .vgath
  | 0x60 => some .mand | 0x61 => some .mor | 0x62 => some .mxor | 0x63 => some .mnot | 0x64 => some .mfirst
  | 0x70 => some .vld | 0x71 => some .vst | 0x78 => some .vsolve | _ => none

/-- What a register field of the vector slot names. -/
inductive OpndKind where
  | vreg | mask | scalar | value | bcast | unused
  deriving DecidableEq, Repr

/-- The kinds of the fields D, A, B and C of an operation (R258, R259). -/
def vecKinds : VOp → OpndKind × OpndKind × OpndKind × OpndKind
  | .vfma | .vfms => (.vreg, .value, .value, .vreg)
  | .vabs | .vneg | .vexp | .vlog | .vrcp | .vrsq | .vcvtfi | .vcvtif | .vmov => (.vreg, .value, .unused, .unused)
  | .vcmpEq | .vcmpLt | .vcmpLe | .vcmpUn | .vicmpEq | .vicmpLt | .vicmpLtu => (.mask, .value, .value, .unused)
  | .vbcast | .vlaneset => (.vreg, .bcast, .unused, .unused)
  | .vlaneget => (.scalar, .vreg, .unused, .unused)
  | .vgath => (.vreg, .value, .vreg, .unused)
  | .mand | .mor | .mxor => (.mask, .mask, .mask, .unused)
  | .mnot => (.mask, .mask, .unused, .unused)
  | .mfirst => (.mask, .scalar, .unused, .unused)
  | .vld | .vst => (.vreg, .unused, .unused, .scalar)
  | .vsolve => (.scalar, .vreg, .vreg, .scalar)
  | .vadd | .vsub | .vmul | .vmin | .vmax | .vsel | .viadd | .visub | .vimul | .vand | .vor | .vxor | .vshl | .vshrl
  | .vshra | .vimin | .vimax => (.vreg, .value, .value, .unused)

/-- R258: is the field's value legal for what it names, with its broadcast bit? -/
def opndOk (k : OpndKind) (r : Nat) (bc : Bool) : Bool :=
  match k with
  | .vreg => !bc
  | .mask => !bc && decide (r < 8)
  | .scalar => !bc && decide (r < 32)
  | .value => !bc || decide (r < 32)
  | .bcast => decide (r < 32)
  | .unused => !bc && r == 0

/-- The order of a VSOLVE (R259). -/
def solveN (x : Nat) : Nat := fld x 25 20 + 1

/-- Table registers of a VGATH: 1, 2, 4 or 8 (R214, R259). -/
def gathN (x : Nat) : Nat := 2 ^ fld x 26 25

/-- Legality of the operation-specific bits and of what R214, R227 and R260 call illegal. -/
def vecExtraOk (o : VecOp) : Bool :=
  match o.op with
  | .vsel => fld o.x 23 0 == 0
  | .vlaneget | .vlaneset => fld o.x 18 0 == 0
  | .vgath => fld o.x 24 0 == 0 && decide (o.b + gathN o.x ≤ 64)
  | .vld => fld o.x 14 0 == 0 && decide (fld o.x 18 15 < 10)
  | .vst => fld o.x 14 0 == 0 && decide (fld o.x 18 15 < 10) && fld o.x 18 15 != 3 && fld o.x 18 15 != 4
  | .vsolve =>
    let regs := (solveN o.x + 3) / 4
    fld o.x 19 0 == 0 && !(bitAt o.x 26 && decide (32 < solveN o.x)) && decide (o.a + regs ≤ 64)
      && !(decide (o.a ≤ o.b) && decide (o.b < o.a + regs))
  | _ => o.x == 0

/-- R258, R259: the vector slot; the inner none is VNOP. -/
def decodeVec (w : Nat) : Option (Option VecOp) :=
  if w = 0 then some none
  else match vecCode (fld w 63 56) with
  | none => none
  | some op =>
    let o : VecOp := {
      op := op, d := fld w 55 50, a := fld w 49 44, b := fld w 43 38, c := fld w 37 32
      mask := fld w 31 29, ba := bitAt w 28, bb := bitAt w 27, x := fld w 26 0 }
    let k := vecKinds op
    guardO (opndOk k.1 o.d false && opndOk k.2.1 o.a o.ba && opndOk k.2.2.1 o.b o.bb && opndOk k.2.2.2 o.c false
      && vecExtraOk o) (some o)

/-- The reduction codes (R261). -/
def redCode : Nat → Option RedOp
  | 1 => some .rsum | 2 => some .rssq | 3 => some .rmax | 4 => some .rmin | 5 => some .rargmax | 6 => some .rcount
  | _ => none

/-- R261: the lane-reduction slot; the inner none is RNOP. -/
def decodeRed (w : Nat) : Option (Option LaneRed) :=
  if w = 0 then some none
  else match redCode (fld w 23 21) with
  | none => none
  | some op =>
    let o : LaneRed := {
      op := op, a := fld w 20 15, mask := fld w 14 12, int := bitAt w 11, acc := bitAt w 10, dv := bitAt w 9
      dst := if bitAt w 9 then fld w 7 0 else fld w 8 4 }
    guardO ((if o.dv then !bitAt w 8 else fld w 3 0 == 0) && !(op == .rssq && o.int) && !(op == .rargmax && o.acc))
      (some o)

/-- R262. -/
def decodeDma (w : Nat) : Option DmaOp :=
  match fld w 39 36 with
  | 0 => guardO (w == 0) .dnop
  | 1 => guardO (fld w 12 0 == 0) (.dq (fld w 35 28) (fld w 27 23) (fld w 22 18) (fld w 17 13))
  | 2 => guardO (fld w 5 0 == 0) (.pdma (fld w 35 24) (fld w 23 19) (fld w 18 11 + 1) (fld w 10 6))
  | _ => none

/-- R264. -/
def decodeSync (w : Nat) : Option SyncOp :=
  match fld w 15 13 with
  | 0 => guardO (w == 0) .none
  | 1 => guardO (fld w 7 0 == 0) (.waith (fld w 12 8))
  | 2 => guardO (fld w 2 0 == 0) (.seth (fld w 12 8) (fld w 7 3))
  | 3 => guardO (fld w 2 0 == 0) (.inch (fld w 12 8) (fld w 7 3))
  | 4 => guardO (fld w 2 0 == 0) (.waitp (fld w 12 8) (fld w 7 3))
  | 5 => guardO (fld w 2 0 == 0) (.pcmd (fld w 12 8) (fld w 7 3))
  | 6 => some (.mark (fld w 12 0))
  | _ => none

/-- R238, R244: the bundle `w` at address `addr`, or the number of its lowest-numbered illegal slot (R234). -/
def decodeBundle (w : Nat) (addr : Nat) (kx7 : Bool) : Except Nat Bundle :=
  match decodeScalar (fld w 255 208) addr kx7 with
  | none => .error 0
  | some s => match decodeFwd (fld w 207 176) with
  | none => .error 1
  | some f => match decodeBwd (fld w 175 144) with
  | none => .error 2
  | some b => match decodeVec (fld w 143 80) with
  | none => .error 3
  | some v => match decodeRed (fld w 79 56) with
  | none => .error 4
  | some r => match decodeDma (fld w 55 16) with
  | none => .error 5
  | some d => match decodeSync (fld w 15 0) with
  | none => .error 6
  | some y => .ok { scalar := s, fwd := f, bwd := b, vec := v, red := r, dma := d, sync := y }

end Sys2Proof.Machine
end

