-- ==== Sys2Proof/Machine/Cell.lean ====
section
/-! DEFINITION. The state of one cell as plain data: docent, forward array, backward pair, vector engine, and the effects that issued operations
still owe at later edges (07_docent_isa.md R233; 04 R131, R150; 05 R165; 06 R203; 08 R274, R278). -/
namespace Sys2Proof.Machine

/-! ### A cell -/

/-- A tensor descriptor as an operation has read it (R97, R312). `fmt` is the FMT code, `bsize` the block size in elements. -/
structure Desc where
  base : Nat
  rows : Nat
  cols : Nat
  pitch : Nat
  fmt : Nat
  tid : Nat
  bsize : Nat
  bdir : Bool
  serve : Bool
  vslot : Bool
  baro : Nat
  spitch : Nat
  sbase : Nat
  abase : Nat
  vstride : Nat
  deriving DecidableEq, Repr

/-- An entry of the loop stack (R233, R251): counter number, first and last bundle of the body. -/
structure LoopEntry where
  ctr : Nat
  start : Nat
  stop : Nat
  deriving DecidableEq, Repr

/-- Something that takes effect after some more issues: a pending branch target (R249) or a pending WINBASE (R270). -/
structure Delayed where
  value : Nat
  left : Nat
  deriving DecidableEq, Repr

/-- Why the bundle at PC waits (R279, R280, R520): `sub` is 0 for a local hold point, else the HOLD fault's SUB code 1 to 5. `since` is
the wall tick in which it first failed a hold condition, `gated` the wall ticks of that wait in which the cell was gated (R284). -/
structure Wait where
  sub : Nat
  h : Nat
  port : Nat
  since : Nat
  gated : Nat
  deriving DecidableEq, Repr

/-- An addition to hold counter `h` since it was last set: `n`, the transfers whose completion it depends on (R288), and, for the completion of a DMA, the
NCLK edge in which it came (R39, R266). DEDUCED (log entry 10). -/
structure Credit where
  h : Nat
  n : Nat
  know : List Nat
  nclk : Option Nat
  deriving DecidableEq, Repr

/-- A transfer of a gallery DMA engine (R322–R327): the cell that queued it and the counter it completes (none once a unit reset has cut it
off), its shape, the bytes it has read and written so far, the bytes read and not yet written, and whether an overflow_fault piece (R341)
has met it. `cover` names the transfers that were covered for the cell when it queued this one (R288). `paidR` and `paidW` are the memory
pieces, of those that several rows touch, whose slot it has used (R326). -/
structure Xfer where
  id : Nat
  cell : Nat
  h : Option Nat
  prog : Bool
  dd : Nat
  mode : Nat
  src : Nat
  dst : Nat
  rows : Nat
  rowBytes : Nat
  spitch : Nat
  dpitch : Nat
  fill : Nat
  tsize : Nat
  esize : Nat
  cls : Nat
  sstash : Bool
  dstash : Bool
  region : Nat
  rpos : Nat
  wpos : Nat
  buf : List Byte
  stamp : Nat
  overflow : Bool
  cover : List Nat
  paidR : List Nat
  paidW : List Nat
  deriving DecidableEq, Repr

/-- One queued DMA of a cell (R263): its slot bits (R262), its operands at issue and, from the CCLK after issue, the transfer its descriptor describes (R254). -/
structure DmaEntry where
  id : Nat
  slot : Nat
  pdma : Bool
  dd : Nat
  first : Nat
  n : Nat
  a : Nat
  b : Nat
  h : Nat
  stamp : Nat
  cover : List Nat
  x : Option Xfer
  deriving DecidableEq, Repr

/-- A plinth (R131): 128 rows of codes and 4 rows of block scales (rows that are not listed hold zero codes and scale 0x7F), at most 64 annex
entries, Tw and Aw as exponents, format, version slot. -/
structure Plinth where
  codes : List (List Nat)
  scales : List (List Nat)
  annex : List Nat
  tw : Int
  aw : Int
  fmt : Fmt
  vslot : Bool
  deriving DecidableEq, Repr

/-- A PLOAD in progress (R132): what it has read so far, oldest first. -/
structure PloadRun where
  d : Desc
  fmt : Fmt
  p : Nat
  j : Nat
  vslot : Bool
  tw : Int
  aw : Int
  pool : Nat
  codes : List Byte
  scales : List Byte
  annex : List Nat
  deriving DecidableEq, Repr

/-- A FWD streaming or pending (R136–R138, R146): its operands, what its descriptor gave (`r` is 0 until the descriptor is read), the
buffered activation annex entries (token, column, A8 code), the pre-pass that is next, and the start edge once it is fixed. -/
structure FwdRun where
  t : Nat
  desc : Nat
  tok : Nat
  p : Nat
  row : Nat
  cnt : Nat
  bank : Bool
  clr : Bool
  aanx : Bool
  d : Option Desc
  fmt : Fmt
  r : Nat
  tx : Int
  ax : Int
  pool : Nat
  preEnd : Nat
  stopPre : Bool
  annex : List (Nat × Nat × Nat)
  next : Nat
  start : Option Nat
  deriving DecidableEq, Repr

/-- An FCVT or FDRAIN running (R154–R156): `fcvt` tells which. `rows` are the rows of the open group, `pools` the annex pools by tile row,
`bad` the tiles whose pool R298 leaves open. -/
structure ConvRun where
  t : Nat
  fcvt : Bool
  desc : Nat
  tok : Nat
  c0 : Nat
  row : Nat
  cnt : Nat
  bank : Bool
  width : Nat
  addr : Nat
  d : Option Desc
  texp : Int
  taexp : Int
  theta : Nat
  pool : Nat
  annexOn : Bool
  rows : List (List (Option Val))
  pools : List (Nat × List Nat)
  bad : List Nat
  deriving DecidableEq, Repr

/-- The open group of the update converter (R414): its descriptor and format, the first row and column, the rows stored so far, each with
the folio address it named, its values (none where the lane is masked off) and the codes' row. -/
structure GroupRun where
  d : Desc
  fmt : Fmt
  row0 : Nat
  col0 : Nat
  rows : List (Nat × List (Option Val))
  deriving DecidableEq, Repr

/-- The annex pool of a tile that the update converter is filling (R111, R414): the entries selected so far, and whether a group of the tile
has left it unspecified. -/
structure TilePool where
  d : Desc
  ti : Nat
  tj : Nat
  entries : List Nat
  bad : Bool
  deriving DecidableEq, Repr

/-- A BLDW or BLDX in progress (R185): what it has read. -/
structure BldRun where
  t : Nat
  d : Option Desc
  addr : Nat
  desc : Nat
  vslot : Bool
  snap : Bool
  rh : Nat
  cq : Nat
  texp : Int
  taexp : Int
  strip : List Byte
  poolBytes : List Byte
  rows : List Byte
  deriving DecidableEq, Repr

/-- A BLDY in progress (R186): its operands, the two descriptors, the results so far. -/
structure BldyRun where
  t : Nat
  desc : Nat
  addr : Nat
  saved : Nat
  tid : Nat
  fn : Nat
  p0 : W32
  p1 : W32
  d : Option Desc
  ds : Option Desc
  texp : Int
  codes : List Nat
  deriving DecidableEq, Repr

/-- A BWD streaming or pending (R190). -/
structure BwdRun where
  t : Nat
  l : Bool
  r : Bool
  lb : Bool
  clrl : Bool
  rb : Bool
  clrr : Bool
  tid : Nat
  start : Option Nat
  deriving DecidableEq, Repr

/-- An LDRAIN or LFILL running (R192). -/
structure DrainRun where
  t : Nat
  fill : Bool
  bank : Bool
  mode : Bool
  addr : Nat
  desc : Nat
  d : Option Desc
  deriving DecidableEq, Repr

/-- A DWACC (R196, R197): its operands and the rows converted so far: B16 codes and the exponent. `done` says that its last source row has
been read and only its memory side remains, `know` what was covered for the cell at issue (R288). -/
structure DwRun where
  t : Nat
  folio : Bool
  rb : Bool
  clr : Bool
  last : Bool
  desc : Nat
  addr : Nat
  src : Nat
  bucket : Nat
  h : Nat
  d : Option Desc
  e16 : Nat
  rows : List (List Nat)
  done : Bool
  know : List Nat
  deriving DecidableEq, Repr

/-- A VSOLVE running (R227, R231). -/
structure SolveRun where
  t : Nat
  lu : Bool
  n : Nat
  a : Nat
  b : Nat
  s : Nat
  d : Nat
  deriving DecidableEq, Repr

/-- The stores of a cell's arrays and vector engine that carry SEC-DED (R150, R160, R166, R203). -/
inductive CellStore where
  | acc | plinth | dy | lw | rx | lacc | racc | vreg
  deriving DecidableEq, Repr

/-- Flipped bits of one protected word since it was written: its store, the instance (a bank, a plinth, a buffer or a register), the word's number in it,
and how many bits. No command of the table flips one. DESIGN CHOICE (log entry 13). -/
structure Flip where
  store : CellStore
  inst : Nat
  word : Nat
  bits : Nat
  deriving DecidableEq, Repr

/-- An effect inside a cell that lands at a later edge of the cell (R274, R278): results that become visible, stores that are written,
reads that are made, and the ends of the operations that occupy a unit. -/
inductive Micro where
  | sreg (r : Nat) (v : W64)
  | lanes (v : Nat) (xs : List (Nat × W32))
  | mask (m : Nat) (xs : List (Nat × Bool))
  | laneEvents (bundle : Nat) (evs : List (Nat × LaneEvent))
  | load (d sz addr : Nat)
  | store (bs : List (Nat × Byte)) (banks : List Nat)
  | storeLow (off code : Nat)
  | unspec (addrs : List Nat)
  | reduce (r : LaneRed) (v : Option W64) (iss : Nat)
  | vldHalf (v addr half : Nat) (int : Bool) (m : W256)
  | vld (v addr desc fmt : Nat) (m : W256)
  | laneUnspec (v : Nat) (lanes : List Nat)
  | vst (addr desc fmt : Nat) (x : List W32) (m : W256) (x0 stamp : Nat)
  | pload (desc p j : Nat) (vslot : Bool)
  | ploadRead (k : Nat)
  | ploadDone
  | fwdDesc (t : Nat)
  | fwdPre (t e : Nat)
  | fwdVec (t i : Nat)
  | fwdVec2 (t i : Nat) (act : Bool) (codes : List Byte) (eb : List Nat)
  | fwdPendStart
  | accAdd (bank row : Nat) (clr : Bool) (cols : List (List W32))
  | accFree (bank row : Nat) (cols : List Nat)
  | residue (sub tid : Nat)
  | convDesc
  | fcvtRow (i : Nat)
  | fdrainRow (i : Nat)
  | convDone
  | bldStart (x : Bool)
  | bldRows (x : Bool) (k : Nat)
  | bldDone (x : Bool)
  | bldyStart
  | bldyRows (k : Nat)
  | bldyDone
  | pairScan
  | bwdRow (t i : Nat)
  | bwdPendStart
  | invalids (unit bank tid : Nat) (evs : List (Nat × Nat × Nat × Nat))
  | laccFree (bank row : Nat) (cols : List Nat)
  | raccFree (bank : Nat) (sites : List Nat)
  | laccAdd (bank row : Nat) (clr : Bool) (cols : List (W32 × W32))
  | laccSet (bank row : Nat) (xs : List W32)
  | raccAdd (bank : Nat) (clr : Bool) (blk : List (List W32))
  | drainDesc
  | drainRow (i : Nat)
  | lfillWrite (bank row : Nat) (xs : List W32)
  | lfillSet (bank row : Nat) (xs : List W32)
  | drainDone
  | dwDesc
  | dwRow (i : Nat)
  | dwDone
  | solveRead
  | solveDone (xs : List (Nat × W32)) (rep : Nat)
  | transFree
  | dqDesc (id : Nat)
  deriving DecidableEq, Repr

/-- A micro effect with its edge; `phase` orders the effects of one edge: 0 results become visible, 1 stores are written, 2 reads are made,
3 the accumulate read of a lane reduction (R193, R206, R223, R248). `iss` is the issue edge of a register result, which orders the results
that reach registers in one edge (R206, R241). -/
structure Due where
  edge : Nat
  phase : Nat
  iss : Nat
  op : Micro
  deriving DecidableEq, Repr

/-- The array exception record of a cell (R179). `firstEdge` is the model's own: the edge of the first occurrence, for the order of R180. -/
structure BpxRec where
  count : Nat
  valid : Bool
  unit : Nat
  tid : Nat
  block : Nat
  row : Nat
  col : Nat
  stamp : Nat
  firstEdge : Nat
  deriving DecidableEq, Repr

/-- The vector exception record of a cell (R219). `firstEdge` is the model's own, for the order of R220. -/
structure VxRec where
  invalid : Nat
  divz : Nat
  range : Nat
  valid : Bool
  kind : Nat
  lane : Nat
  bundle : Nat
  stamp : Nat
  sing : Nat
  flag : Bool
  firstEdge : Nat
  deriving DecidableEq, Repr

/-- A run of the instruction trace being formed (R541, R543): its first bundle, issues so far, its reference edge, and whether it is a WRUN. -/
structure TraceRun where
  first : Nat
  n : Nat
  edge : Nat
  w : Bool
  deriving DecidableEq, Repr

/-- A trace record before it enters the buffer (R539, R540): its type, its reference edge, its words, and whether word 0 takes DCYC. -/
structure TraceRec where
  type : Nat
  edge : Nat
  w0 : Nat
  w1 : Option Nat
  dcyc : Bool
  deriving DecidableEq, Repr

/-- One cell: docent, arrays, vector engine, hold counters, and the clock of its cycle-exact domain. -/
structure Cell where
  -- docent (R233)
  s : Tab W64
  lc : Tab W32
  loops : List LoopEntry
  pc : Nat
  redirects : List Delayed
  winbase : Nat
  winPend : List Delayed
  prog : Tab W256
  running : Bool
  started : Bool
  wait : Option Wait
  ill : Option (Nat × Nat)
  lastW : Option Nat
  visiting : Bool
  nextEdge : Nat
  -- clock: cell edges are the wing's edges less `base`, or stand at `frozen`; `gateWt` is the wall tick in which gating stopped them
  base : Nat
  frozen : Option Nat
  gatedNow : Bool
  gateWt : Nat
  -- effects under way and the ports used at the last edge that used one
  due : List Due
  portEdge : Nat
  portBanks : List Nat
  -- hold counters (R36) and DMA queue (R263)
  hold : Tab W64
  -- the counters as they stood at the last CCLK edge, and at the one before: what WAITH and WAITP see (R283)
  seen : Tab W64
  far : Tab W64
  -- what each counter holds, and the transfers that are covered for the cell (R288)
  credits : List Credit
  known : List Nat
  -- the weight version slots that are not retained for the cell (R364)
  stale : List Nat
  dmaq : List DmaEntry
  -- forward array (R131, R137, R145, R150)
  plA : Plinth
  plB : Plinth
  plAct : Bool
  pload : Option PloadRun
  fwdCur : Option FwdRun
  fwdPend : Option FwdRun
  acc : Tab (List W32)
  conv : Option ConvRun
  group : Option GroupRun
  tiles : List TilePool
  -- backward pair (R165)
  dy : Tab (List Nat)
  lw : Tab (List Val)
  rx : Tab (List Val)
  -- the exponent tables: row 128 × instance + 64 × token block + k holds the alignment exponents of the 64 sites n; instance 1 is active as DY1 is
  etab : Tab (List (Option Int))
  lwAct : Bool
  xyAct : Bool
  lacc : Tab (List W32)
  racc : Tab (List W32)
  linv : Tab Nat
  rinv : Tab Nat
  bldw : Option BldRun
  bldx : Option BldRun
  bldy : Option BldyRun
  pairReady : Bool
  bwdCur : Option BwdRun
  bwdPend : Option BwdRun
  drain : Option DrainRun
  dw : Option DwRun
  dwMem : List DwRun
  bpx : BpxRec
  -- vector engine (R203)
  v : Tab (List W32)
  m : Tab W256
  transBusy : Bool
  solve : Option SolveRun
  vx : VxRec
  -- errors of the hardware: flipped bits in protected words, and errors that checked units are about to make
  flips : List Flip
  slips : List Slip
  -- partial gauges (R118), running maxima (R103), survey partials (R553)
  gauge : Tab Nat
  maxima : Tab (Option W32)
  -- trace (R540, R541, R544: `tsync` is the wall tick of the funnel's turning on or of the last periodic SYNC) and counters (R486, R555)
  trun : Option TraceRun
  tpend : List TraceRec
  tref : Nat
  tsync : Nat
  traceOn : Bool
  hwait : Nat
  hmax : Nat
  hcnt : Nat
  nIssue : Nat
  nHeld : Nat
  nLocal : Nat
  nGate : Nat
  nFwd : Nat
  nBwd : Nat
  nStr : Nat
  deriving DecidableEq, Repr

end Sys2Proof.Machine
end

