-- ==== Sys2Proof/Machine/RegTab.lean ====
section
/-! DEFINITION. The register table of the control window: for every register the chapters define, its offset, its copies, which of its bits have
which access code (R14, R18: reserved bits have none) and its value after cold reset (R17). Values that come from the ledger, the fuses
or the design stand here as 0, or as the ROM default of R507, until the boot loads them; the assumption log names them. -/
namespace Sys2Proof.Machine

/-- One register of the control window: `n` copies at `base + stride × i`, each with `m` copies at `+ step × j`; the masks of its RW, W1C, ST
and LK bits; its reset value. Bits in no mask are RO or reserved. -/
structure RegRow where
  base : Nat
  n : Nat
  stride : Nat
  m : Nat
  step : Nat
  rw : Nat
  w1c : Nat
  st : Nat
  lk : Nat
  reset : Nat
  deriving DecidableEq, Repr

/-- Rows of the register table: UP_ID (R26), UP_STATUS (R27), UP_CMD_PUSH (R31), UP_FAULT_SUM (R43), UP_TRACE (R47), UP_RESET (R49), UP_HOLD_LIMIT (R41), UP_HOLD (R38), UP_HOLD_DONE (R40), UP_GROUP (R53), UP_MAP (R57), SCL_BARO_BASE (R99), BPX_CNT (R179), BPX_LOC (R179), BPX_STAMP (R179), VX_CNT (R219), VX_LOC (R219), VX_STAMP (R219), VX_SING (R219), DCT_CTL (R234), DCT_PC (R234), DCT_ILL (R234), MEM_HOME (R316), MEM_DEPOT (R318), ALM_IMAGE (R336), ALM_ACTIVE (R336), ARC_RBASE (R338), ARC_ROVF (R338), ARC_OVF (R338), ARC_STAT (R342), STP_STATE (R345), STP_LAST (R346), STP_VER (R347), STP_CFG (R348). -/
def regRows0 : List RegRow := [
  { base := 0x2000000, n := 1024, stride := 4096, m := 1, step := 8, rw := 0x0, w1c := 0x0, st := 0x0, lk := 0x0, reset := 0x0 },
  { base := 0x2000008, n := 1024, stride := 4096, m := 1, step := 8, rw := 0x0, w1c := 0x10, st := 0x0, lk := 0x0, reset := 0x1000000001 },
  { base := 0x2000010, n := 1024, stride := 4096, m := 1, step := 8, rw := 0xFF80FFFFFFFFFFFF, w1c := 0x0, st := 0x0, lk := 0x0, reset := 0x0 },
  { base := 0x2000020, n := 1024, stride := 4096, m := 1, step := 8, rw := 0x0, w1c := 0x7FF, st := 0x0, lk := 0x0, reset := 0x3FF00000000 },
  { base := 0x2000028, n := 1024, stride := 4096, m := 1, step := 8, rw := 0x7, w1c := 0x0, st := 0x0, lk := 0x0, reset := 0x0 },
  { base := 0x2000030, n := 1024, stride := 4096, m := 1, step := 8, rw := 0x1, w1c := 0x0, st := 0x0, lk := 0x0, reset := 0x0 },
  { base := 0x2000038, n := 1024, stride := 4096, m := 1, step := 8, rw := 0x0, w1c := 0x0, st := 0xFFFFFFFF, lk := 0x0, reset := 0x0 },
  { base := 0x2000100, n := 1024, stride := 4096, m := 32, step := 8, rw := 0xFFFFFFFFFFFFFFFF, w1c := 0x0, st := 0x0, lk := 0x0, reset := 0x0 },
  { base := 0x2000200, n := 1024, stride := 4096, m := 1, step := 8, rw := 0x0, w1c := 0x0, st := 0x0, lk := 0x0, reset := 0xFFFFFFFF },
  { base := 0x2400000, n := 512, stride := 8, m := 1, step := 8, rw := 0x0, w1c := 0x0, st := 0x1FFFFFFFFFF, lk := 0x0, reset := 0xFFC0000000 },
  { base := 0x2410000, n := 1, stride := 8, m := 1, step := 8, rw := 0x0, w1c := 0x0, st := 0xFFFFFFFFFFFF1F, lk := 0x0, reset := 0x0 },
  { base := 0x2410008, n := 6, stride := 8, m := 1, step := 8, rw := 0x0, w1c := 0x0, st := 0xFFFFFFFFFFFFFFFF, lk := 0x0, reset := 0x0 },
  { base := 0x2410038, n := 9, stride := 8, m := 1, step := 8, rw := 0x0, w1c := 0x0, st := 0x0, lk := 0x0, reset := 0x0 },
  { base := 0x3080000, n := 1, stride := 8, m := 1, step := 8, rw := 0x0, w1c := 0x0, st := 0xFFFFFFFFF000, lk := 0x0, reset := 0x0 },
  { base := 0x460000, n := 384, stride := 32, m := 1, step := 8, rw := 0x0, w1c := 0x0, st := 0x0, lk := 0x0, reset := 0x0 },
  { base := 0x460008, n := 384, stride := 32, m := 1, step := 8, rw := 0x0, w1c := 0x0, st := 0x0, lk := 0x0, reset := 0x0 },
  { base := 0x460010, n := 384, stride := 32, m := 1, step := 8, rw := 0x0, w1c := 0x0, st := 0x0, lk := 0x0, reset := 0x0 },
  { base := 0x470000, n := 384, stride := 32, m := 1, step := 8, rw := 0x0, w1c := 0x0, st := 0x0, lk := 0x0, reset := 0x0 },
  { base := 0x470008, n := 384, stride := 32, m := 1, step := 8, rw := 0x0, w1c := 0x0, st := 0x0, lk := 0x0, reset := 0x0 },
  { base := 0x470010, n := 384, stride := 32, m := 1, step := 8, rw := 0x0, w1c := 0x0, st := 0x0, lk := 0x0, reset := 0x0 },
  { base := 0x470018, n := 384, stride := 32, m := 1, step := 8, rw := 0x0, w1c := 0x0, st := 0x0, lk := 0x0, reset := 0x0 },
  { base := 0x480000, n := 384, stride := 32, m := 1, step := 8, rw := 0x0, w1c := 0x0, st := 0x2, lk := 0x0, reset := 0x0 },
  { base := 0x480008, n := 384, stride := 32, m := 1, step := 8, rw := 0x0, w1c := 0x0, st := 0x0, lk := 0x0, reset := 0x0 },
  { base := 0x480010, n := 384, stride := 32, m := 1, step := 8, rw := 0x0, w1c := 0x0, st := 0x0, lk := 0x0, reset := 0x0 },
  { base := 0x30A0100, n := 16, stride := 8, m := 1, step := 8, rw := 0x0, w1c := 0x0, st := 0x81FFFFFF01FFFFFF, lk := 0x0, reset := 0x0 },
  { base := 0x30A0000, n := 1, stride := 8, m := 1, step := 8, rw := 0x0, w1c := 0x0, st := 0x0, lk := 0x0, reset := 0x0 },
  { base := 0x30A0200, n := 1, stride := 8, m := 1, step := 8, rw := 0x0, w1c := 0x0, st := 0xFFFFFFFFFFC1, lk := 0x0, reset := 0x0 },
  { base := 0x30A0208, n := 1, stride := 8, m := 1, step := 8, rw := 0x0, w1c := 0x0, st := 0x0, lk := 0x0, reset := 0x0 },
  { base := 0x30A1000, n := 128, stride := 16, m := 1, step := 8, rw := 0x0, w1c := 0x0, st := 0xFFFFFFFFFFFFF000, lk := 0x0, reset := 0x0 },
  { base := 0x30A1008, n := 128, stride := 16, m := 1, step := 8, rw := 0x0, w1c := 0x0, st := 0xFFFFFF01FFFFFF, lk := 0x0, reset := 0x0 },
  { base := 0x30A0300, n := 1, stride := 8, m := 1, step := 8, rw := 0x0, w1c := 0x0, st := 0x1FFFFFF01FFFFFF, lk := 0x0, reset := 0x0 },
  { base := 0x30A0308, n := 1, stride := 8, m := 1, step := 8, rw := 0x0, w1c := 0x0, st := 0x0, lk := 0x0, reset := 0x0 },
  { base := 0x30B0000, n := 1, stride := 8, m := 1, step := 8, rw := 0x0, w1c := 0x0, st := 0x0, lk := 0x0, reset := 0x0 },
  { base := 0x30B0008, n := 1, stride := 8, m := 1, step := 8, rw := 0xFFFFFFFFFFFF, w1c := 0x0, st := 0x0, lk := 0x0, reset := 0x0 },
  { base := 0x30B0010, n := 1, stride := 8, m := 1, step := 8, rw := 0x1, w1c := 0x0, st := 0x0, lk := 0x0, reset := 0x0 },
  { base := 0x30B0018, n := 1, stride := 8, m := 1, step := 8, rw := 0x0, w1c := 0x0, st := 0xFFFF000000017FFF, lk := 0x0, reset := 0x7FDD } ]

/-- Rows of the register table: STP_SEED (R349), STP_SEQBASE (R350), RNG_CFG (R376), RNG_ORDER (R376), RNG_PORTS (R376), RNG_BTAB (R380), RNG_STAT (R400), RNG_FLT (R396), RNG_NAN_W0 (R400), RNG_NAN_W1 (R400), UPD_CTAB (R403), UPD_STAT (R409), FAB_PORT (R428), FAB_CFG (R429), FAB_SET (R429), FAB_ROUTE (R431), FAB_XRING (R438), FAB_RELAY (R447), FAB_WT (R450), FAB_WTNOW (R450), FAB_SQREC (R454), FAB_LOANST (R458), ID_STATUS (R468), BRK_STAT (R460), BRK_CTL (R460), BRK_CLASS (R460), BRK_ERR (R460), CQ_BASE (R469), CQ_CBASE (R469), CQ_DB (R469), CQ_STAT (R469), EQ_BASE (R478), EQ_CONS (R478), EQ_STAT (R478). -/
def regRows1 : List RegRow := [
  { base := 0x30B0020, n := 1, stride := 8, m := 1, step := 8, rw := 0x0, w1c := 0x0, st := 0xFFFFFFFFFFFFFFFF, lk := 0x0, reset := 0x0 },
  { base := 0x30B0028, n := 1, stride := 8, m := 1, step := 8, rw := 0x0, w1c := 0x0, st := 0xFFFFFFFFF001, lk := 0x0, reset := 0x0 },
  { base := 0x1180000, n := 1, stride := 8, m := 1, step := 8, rw := 0x0, w1c := 0x0, st := 0x3F3F02, lk := 0x0, reset := 0x2 },
  { base := 0x1180008, n := 8, stride := 8, m := 1, step := 8, rw := 0x0, w1c := 0x0, st := 0x3F3F3F3F3F3F3F3F, lk := 0x0, reset := 0x0 },
  { base := 0x1180048, n := 1, stride := 8, m := 1, step := 8, rw := 0x0, w1c := 0x0, st := 0xFFFFFFFF, lk := 0x0, reset := 0x0 },
  { base := 0x1180050, n := 1, stride := 8, m := 1, step := 8, rw := 0x0, w1c := 0x0, st := 0xFFFFFFC00000, lk := 0x0, reset := 0x0 },
  { base := 0x1180058, n := 1, stride := 8, m := 1, step := 8, rw := 0x0, w1c := 0x0, st := 0x0, lk := 0x0, reset := 0x0 },
  { base := 0x1180060, n := 1, stride := 8, m := 1, step := 8, rw := 0x0, w1c := 0x0, st := 0x0, lk := 0x0, reset := 0x0 },
  { base := 0x1180100, n := 16, stride := 16, m := 1, step := 8, rw := 0x0, w1c := 0x0, st := 0x0, lk := 0x0, reset := 0x0 },
  { base := 0x1180108, n := 16, stride := 16, m := 1, step := 8, rw := 0x0, w1c := 0x0, st := 0x0, lk := 0x0, reset := 0x0 },
  { base := 0x30B1000, n := 1, stride := 8, m := 1, step := 8, rw := 0x0, w1c := 0x0, st := 0xFFFFFF800000, lk := 0x0, reset := 0x0 },
  { base := 0x30B1008, n := 1, stride := 8, m := 1, step := 8, rw := 0x0, w1c := 0x0, st := 0x0, lk := 0x0, reset := 0x0 },
  { base := 0x1000100, n := 12, stride := 8, m := 1, step := 8, rw := 0x0, w1c := 0x0, st := 0x0, lk := 0x0, reset := 0x0 },
  { base := 0x1000000, n := 1, stride := 8, m := 1, step := 8, rw := 0x0, w1c := 0x0, st := 0xFCFFFE00000000, lk := 0x0, reset := 0x0 },
  { base := 0x1000008, n := 1, stride := 8, m := 1, step := 8, rw := 0x0, w1c := 0x0, st := 0xFFFFFFFFFFFFFFFF, lk := 0x0, reset := 0x0 },
  { base := 0x1001000, n := 64, stride := 8, m := 1, step := 8, rw := 0x0, w1c := 0x0, st := 0x8F000000000000FF, lk := 0x0, reset := 0x0 },
  { base := 0x1000200, n := 49, stride := 8, m := 1, step := 8, rw := 0x0, w1c := 0x0, st := 0x800FFFFFFFFFFFC0, lk := 0x0, reset := 0x0 },
  { base := 0x1000020, n := 1, stride := 8, m := 1, step := 8, rw := 0xFFFFFFFF, w1c := 0x0, st := 0x0, lk := 0x0, reset := 0xF4240 },
  { base := 0x1000010, n := 1, stride := 8, m := 1, step := 8, rw := 0x0, w1c := 0x0, st := 0x0, lk := 0x0, reset := 0x0 },
  { base := 0x1000018, n := 1, stride := 8, m := 1, step := 8, rw := 0x0, w1c := 0x0, st := 0x0, lk := 0x0, reset := 0x0 },
  { base := 0x1000028, n := 1, stride := 8, m := 1, step := 8, rw := 0x0, w1c := 0x8000000000000000, st := 0x0, lk := 0x0, reset := 0x0 },
  { base := 0x1000030, n := 1, stride := 8, m := 1, step := 8, rw := 0x0, w1c := 0x0, st := 0x0, lk := 0x0, reset := 0x0 },
  { base := 0x0, n := 1, stride := 8, m := 1, step := 8, rw := 0x0, w1c := 0x0, st := 0x0, lk := 0x0, reset := 0x4B39000000000000 },
  { base := 0x201000, n := 1, stride := 8, m := 1, step := 8, rw := 0x0, w1c := 0x0, st := 0x0, lk := 0x0, reset := 0x0 },
  { base := 0x201008, n := 1, stride := 8, m := 1, step := 8, rw := 0x1, w1c := 0x0, st := 0x0, lk := 0x0, reset := 0x0 },
  { base := 0x201010, n := 1, stride := 8, m := 1, step := 8, rw := 0x0, w1c := 0x0, st := 0xFFFF, lk := 0x0, reset := 0x1010 },
  { base := 0x201018, n := 1, stride := 8, m := 1, step := 8, rw := 0x0, w1c := 0x0, st := 0x0, lk := 0x0, reset := 0x0 },
  { base := 0x200000, n := 4, stride := 64, m := 1, step := 8, rw := 0xCF000FFFFFFFFFC0, w1c := 0x0, st := 0x0, lk := 0x0, reset := 0x400000000000000 },
  { base := 0x200008, n := 4, stride := 64, m := 1, step := 8, rw := 0xFFFFFFFFFC0, w1c := 0x0, st := 0x0, lk := 0x0, reset := 0x0 },
  { base := 0x200010, n := 4, stride := 64, m := 1, step := 8, rw := 0xFFFFFFFF, w1c := 0x0, st := 0x0, lk := 0x0, reset := 0x0 },
  { base := 0x200018, n := 4, stride := 64, m := 1, step := 8, rw := 0x0, w1c := 0x0, st := 0x0, lk := 0x0, reset := 0x0 },
  { base := 0x200100, n := 1, stride := 8, m := 1, step := 8, rw := 0x8F000FFFFFFFFFE0, w1c := 0x0, st := 0x0, lk := 0x0, reset := 0x800000000000000 },
  { base := 0x200108, n := 1, stride := 8, m := 1, step := 8, rw := 0xFFFFFFFF, w1c := 0x0, st := 0x0, lk := 0x0, reset := 0x0 },
  { base := 0x200110, n := 1, stride := 8, m := 1, step := 8, rw := 0x0, w1c := 0x0, st := 0x0, lk := 0x0, reset := 0x0 } ]

/-- Rows of the register table: EQ_ROUTE (R478), RPT_BASE (R483), RPT_SLOT (R483), RPT_CONS (R483), RPT_STAT (R483), RPT_BLIST (R483), ACC_STAT (R491), ACC_FAIL (R491), ACC_WT (R491), ACC_DONE (R491), ACC_PEEKA (R491), ACC_PEEKV (R491), ACC_CTL (R491), ACC_COUNT (R491), LDG_STAT (R508), LDG_SEQ (R508), LDG_UPD (R508), LDG_ULEN (R508), FLT_STAT (R519), FLT_CTL (R519), RST_STAT (R525), RST_END (R525), FLT_REC (R520), TRC_BASE (R547), TRC_WP (R547), TRC_RP (R547), TRC_LOST (R547), TRC_CLASS (R547), SRV_ENT (R550), CNT_CYC (R555), CNT_ISSUE (R555), CNT_HELD (R555), CNT_LOCAL (R555), CNT_GATE (R555). -/
def regRows2 : List RegRow := [
  { base := 0x200118, n := 1, stride := 8, m := 1, step := 8, rw := 0x800000000000003F, w1c := 0x0, st := 0x0, lk := 0x0, reset := 0x0 },
  { base := 0x200200, n := 1, stride := 8, m := 1, step := 8, rw := 0x8F000FFFFFFFF000, w1c := 0x0, st := 0x0, lk := 0x0, reset := 0x200000000000000 },
  { base := 0x200208, n := 1, stride := 8, m := 1, step := 8, rw := 0xFFFFFF, w1c := 0x0, st := 0x0, lk := 0x0, reset := 0x60 },
  { base := 0x200210, n := 1, stride := 8, m := 1, step := 8, rw := 0xFFFFFFFF, w1c := 0x0, st := 0x0, lk := 0x0, reset := 0x0 },
  { base := 0x200218, n := 1, stride := 8, m := 1, step := 8, rw := 0x0, w1c := 0x0, st := 0x0, lk := 0x0, reset := 0x0 },
  { base := 0x200220, n := 1, stride := 8, m := 1, step := 8, rw := 0xFFF0FFFFFFFFFFFC, w1c := 0x0, st := 0x0, lk := 0x0, reset := 0x0 },
  { base := 0x100000, n := 1, stride := 8, m := 1, step := 8, rw := 0x0, w1c := 0x0, st := 0x0, lk := 0x0, reset := 0x0 },
  { base := 0x100008, n := 1, stride := 8, m := 1, step := 8, rw := 0x0, w1c := 0x0, st := 0x0, lk := 0x0, reset := 0x0 },
  { base := 0x100010, n := 1, stride := 8, m := 1, step := 8, rw := 0x0, w1c := 0x0, st := 0x0, lk := 0x0, reset := 0x0 },
  { base := 0x100018, n := 1, stride := 8, m := 1, step := 8, rw := 0x0, w1c := 0x0, st := 0x0, lk := 0x0, reset := 0x0 },
  { base := 0x100020, n := 1, stride := 8, m := 1, step := 8, rw := 0x3FFFFF8, w1c := 0x0, st := 0x0, lk := 0x0, reset := 0x0 },
  { base := 0x100028, n := 1, stride := 8, m := 1, step := 8, rw := 0x0, w1c := 0x0, st := 0x0, lk := 0x0, reset := 0x0 },
  { base := 0x100030, n := 1, stride := 8, m := 1, step := 8, rw := 0x1, w1c := 0x0, st := 0x0, lk := 0x0, reset := 0x0 },
  { base := 0x100038, n := 1, stride := 8, m := 1, step := 8, rw := 0x0, w1c := 0x0, st := 0x0, lk := 0x0, reset := 0x0 },
  { base := 0x101000, n := 1, stride := 8, m := 1, step := 8, rw := 0x0, w1c := 0x0, st := 0x0, lk := 0x0, reset := 0x0 },
  { base := 0x101008, n := 1, stride := 8, m := 1, step := 8, rw := 0x0, w1c := 0x0, st := 0x0, lk := 0x0, reset := 0x0 },
  { base := 0x101010, n := 1, stride := 8, m := 1, step := 8, rw := 0xFFFFFFFFFFC1, w1c := 0x0, st := 0x0, lk := 0x0, reset := 0x0 },
  { base := 0x101018, n := 1, stride := 8, m := 1, step := 8, rw := 0x7FFFFF, w1c := 0x0, st := 0x0, lk := 0x0, reset := 0x0 },
  { base := 0x400000, n := 1, stride := 8, m := 1, step := 8, rw := 0x0, w1c := 0x0, st := 0x0, lk := 0x0, reset := 0x0 },
  { base := 0x400008, n := 1, stride := 8, m := 1, step := 8, rw := 0x1, w1c := 0x0, st := 0x0, lk := 0x0, reset := 0x0 },
  { base := 0x400010, n := 1, stride := 8, m := 1, step := 8, rw := 0x0, w1c := 0x0, st := 0x0, lk := 0x0, reset := 0x0 },
  { base := 0x400018, n := 1, stride := 8, m := 1, step := 8, rw := 0x0, w1c := 0x0, st := 0x0, lk := 0x0, reset := 0x0 },
  { base := 0x401000, n := 64, stride := 64, m := 8, step := 8, rw := 0x0, w1c := 0x0, st := 0x0, lk := 0x0, reset := 0x0 },
  { base := 0x3000000, n := 48, stride := 32, m := 1, step := 8, rw := 0xFF00FFFFFFFF0000, w1c := 0x0, st := 0x0, lk := 0x0, reset := 0x0 },
  { base := 0x3000008, n := 48, stride := 32, m := 1, step := 8, rw := 0x0, w1c := 0x0, st := 0x0, lk := 0x0, reset := 0x0 },
  { base := 0x3000010, n := 48, stride := 32, m := 1, step := 8, rw := 0xFFFFFFFFFFFFFFFF, w1c := 0x0, st := 0x0, lk := 0x0, reset := 0x0 },
  { base := 0x3000018, n := 48, stride := 32, m := 1, step := 8, rw := 0x0, w1c := 0x0, st := 0x0, lk := 0x0, reset := 0x0 },
  { base := 0x3000800, n := 1, stride := 8, m := 1, step := 8, rw := 0xFF, w1c := 0x0, st := 0x0, lk := 0x0, reset := 0x10 },
  { base := 0x3040000, n := 64, stride := 8, m := 1, step := 8, rw := 0x0, w1c := 0x0, st := 0x9FFF0000FFFFFFFF, lk := 0x0, reset := 0x7F000000000000 },
  { base := 0x3060000, n := 1024, stride := 64, m := 1, step := 8, rw := 0x0, w1c := 0x0, st := 0x0, lk := 0x0, reset := 0x0 },
  { base := 0x3060008, n := 1024, stride := 64, m := 1, step := 8, rw := 0x0, w1c := 0x0, st := 0x0, lk := 0x0, reset := 0x0 },
  { base := 0x3060010, n := 1024, stride := 64, m := 1, step := 8, rw := 0x0, w1c := 0x0, st := 0x0, lk := 0x0, reset := 0x0 },
  { base := 0x3060018, n := 1024, stride := 64, m := 1, step := 8, rw := 0x0, w1c := 0x0, st := 0x0, lk := 0x0, reset := 0x0 },
  { base := 0x3060020, n := 1024, stride := 64, m := 1, step := 8, rw := 0x0, w1c := 0x0, st := 0x0, lk := 0x0, reset := 0x0 } ]

/-- Rows of the register table: CNT_FWD (R555), CNT_BWD (R555), CNT_STR (R555), CNT_CORR (R556), CNT_CTL (R556), CNT_DMA (R556), DMP_CTL (R557), DMP_STAT (R557), CLK_CFG (R566), CLK_STR (R571), PWR_IN (R578), SUP_STAT (R578), PWR_CAP (R582), PWR_LIMIT (R582), PWR_STAT (R582), THM_DIE (R586), SEC_STAT (R604), SEC_DEVID (R604), SEC_FWVER (R604), SEC_CMD (R604), SEC_ADDR (R604), SEC_CHAL (R604), SEC_NONCE (R604), SEC_MEAS (R604), SEC_PUB (R604), SEC_TOKEN (R604), SEC_RPT (R603), MB_FCTL (R627), MB_FADDR (R627), MB_FBUF (R627). -/
def regRows3 : List RegRow := [
  { base := 0x3060028, n := 1024, stride := 64, m := 1, step := 8, rw := 0x0, w1c := 0x0, st := 0x0, lk := 0x0, reset := 0x0 },
  { base := 0x3060030, n := 1024, stride := 64, m := 1, step := 8, rw := 0x0, w1c := 0x0, st := 0x0, lk := 0x0, reset := 0x0 },
  { base := 0x3060038, n := 1024, stride := 64, m := 1, step := 8, rw := 0x0, w1c := 0x0, st := 0x0, lk := 0x0, reset := 0x0 },
  { base := 0x3070000, n := 1, stride := 8, m := 1, step := 8, rw := 0x0, w1c := 0x0, st := 0x0, lk := 0x0, reset := 0x0 },
  { base := 0x3070008, n := 1, stride := 8, m := 1, step := 8, rw := 0x3, w1c := 0x0, st := 0x0, lk := 0x0, reset := 0x0 },
  { base := 0x3070100, n := 48, stride := 8, m := 1, step := 8, rw := 0x0, w1c := 0x0, st := 0x0, lk := 0x0, reset := 0x0 },
  { base := 0x3050000, n := 1, stride := 8, m := 1, step := 8, rw := 0xFFFFFFFF0001, w1c := 0x0, st := 0x0, lk := 0x0, reset := 0x0 },
  { base := 0x3050008, n := 1, stride := 8, m := 1, step := 8, rw := 0x0, w1c := 0x0, st := 0x0, lk := 0x0, reset := 0x0 },
  { base := 0x800000, n := 1, stride := 8, m := 1, step := 8, rw := 0x0, w1c := 0x0, st := 0x1F, lk := 0x0, reset := 0x8 },
  { base := 0x800010, n := 4, stride := 8, m := 1, step := 8, rw := 0x0, w1c := 0x0, st := 0x0, lk := 0x0, reset := 0x0 },
  { base := 0x800110, n := 1, stride := 8, m := 1, step := 8, rw := 0x0, w1c := 0x0, st := 0x0, lk := 0x0, reset := 0x0 },
  { base := 0x800200, n := 1, stride := 8, m := 1, step := 8, rw := 0x0, w1c := 0x0, st := 0x0, lk := 0x0, reset := 0x0 },
  { base := 0x800100, n := 1, stride := 8, m := 1, step := 8, rw := 0x0, w1c := 0x0, st := 0xFFFFFF00FFFFFFFF, lk := 0x0, reset := 0x7D0040000001388 },
  { base := 0x800108, n := 1, stride := 8, m := 1, step := 8, rw := 0x0, w1c := 0x0, st := 0x0, lk := 0xFFFFFFFFFFFF0000, reset := 0x96007D002580000 },
  { base := 0x800118, n := 1, stride := 8, m := 1, step := 8, rw := 0x0, w1c := 0x0, st := 0x0, lk := 0x0, reset := 0x0 },
  { base := 0x800300, n := 5, stride := 8, m := 1, step := 8, rw := 0x0, w1c := 0x0, st := 0x0, lk := 0x0, reset := 0x0 },
  { base := 0xC00000, n := 1, stride := 8, m := 1, step := 8, rw := 0x0, w1c := 0x0, st := 0x0, lk := 0x0, reset := 0x0 },
  { base := 0xC00008, n := 1, stride := 8, m := 1, step := 8, rw := 0x0, w1c := 0x0, st := 0x0, lk := 0x0, reset := 0x0 },
  { base := 0xC00010, n := 1, stride := 8, m := 1, step := 8, rw := 0x0, w1c := 0x0, st := 0x0, lk := 0x0, reset := 0x0 },
  { base := 0xC00018, n := 1, stride := 8, m := 1, step := 8, rw := 0xFF, w1c := 0x0, st := 0x0, lk := 0x0, reset := 0x0 },
  { base := 0xC00020, n := 1, stride := 8, m := 1, step := 8, rw := 0xFFFFFFFFFFC0, w1c := 0x0, st := 0x0, lk := 0x0, reset := 0x0 },
  { base := 0xC00040, n := 4, stride := 8, m := 1, step := 8, rw := 0x0, w1c := 0x0, st := 0x0, lk := 0x0, reset := 0x0 },
  { base := 0xC00080, n := 8, stride := 8, m := 1, step := 8, rw := 0xFFFFFFFFFFFFFFFF, w1c := 0x0, st := 0x0, lk := 0x0, reset := 0x0 },
  { base := 0xC00100, n := 8, stride := 8, m := 1, step := 8, rw := 0x0, w1c := 0x0, st := 0x0, lk := 0x0, reset := 0x0 },
  { base := 0xC00200, n := 17, stride := 8, m := 1, step := 8, rw := 0x0, w1c := 0x0, st := 0x0, lk := 0x0, reset := 0x0 },
  { base := 0xC01000, n := 34, stride := 8, m := 1, step := 8, rw := 0xFFFFFFFFFFFFFFFF, w1c := 0x0, st := 0x0, lk := 0x0, reset := 0x0 },
  { base := 0xC01200, n := 66, stride := 8, m := 1, step := 8, rw := 0x0, w1c := 0x0, st := 0x0, lk := 0x0, reset := 0x0 },
  { base := 0xC02000, n := 1, stride := 8, m := 1, step := 8, rw := 0x3, w1c := 0x0, st := 0x0, lk := 0x0, reset := 0x0 },
  { base := 0xC02008, n := 1, stride := 8, m := 1, step := 8, rw := 0x1FFFF00, w1c := 0x0, st := 0x0, lk := 0x0, reset := 0x0 },
  { base := 0xC02100, n := 32, stride := 8, m := 1, step := 8, rw := 0xFFFFFFFFFFFFFFFF, w1c := 0x0, st := 0x0, lk := 0x0, reset := 0x0 } ]

/-- Every register of the control window that the chapters define. -/
def regRows : List RegRow := regRows0 ++ regRows1 ++ regRows2 ++ regRows3

/-- Does the row hold a register at offset `off`? -/
def regHit (r : RegRow) (off : Nat) : Bool :=
  decide (r.base ≤ off) &&
    (let k := off - r.base
     decide (k / r.stride < r.n) && decide (k % r.stride % r.step = 0) && decide (k % r.stride / r.step < r.m))

/-- The row of the register at offset `off`. -/
def regAt (off : Nat) : Option RegRow := regRows.find? (regHit · off)

/-- Indices within a register array. -/
def regIdx (r : RegRow) (off : Nat) : Nat := (off - r.base) / r.stride

/-- The value a register holds after cold reset: the table's, with the ring-dependent DATA bit of CQ_BASE (R469), the device port's LIMIT (R41)
and the unit map with every silicon port present (R23, R57). DESIGN CHOICE (log entry 3). -/
def regReset (off : Nat) : W64 :=
  if off = 0x200_0038 then 0x0098_9680#64
  else if 0x241_0000 ≤ off ∧ off < 0x241_0080 ∧ off % 8 = 0 then
    (match (off - 0x241_0000) / 8 with
     | 0 => 0x00FF_FFFF_FFFF_FF1F#64
     | 7 | 8 | 9 | 10 | 11 | 12 | 13 | 14 | 15 => 0#64
     | _ => 0xFFFF_FFFF_FFFF_FFFF#64)
  else if off = 0x20_0040 ∨ off = 0x20_0080 ∨ off = 0x20_00C0 then 0x4400_0000_0000_0000#64
  else match regAt off with
    | some r => BitVec.ofNat 64 r.reset
    | none => 0

end Sys2Proof.Machine
end

