-- ==== Sys2Proof/Machine/Dev.lean ====
section
/-! DEFINITION. The state of the device around the cells as plain data: unit ports, gallery engines, step logic, ring reducer, fabric, host link,
accession, faults and resets, observation, clocks and power, security and module. Each structure names the rule it follows. -/
namespace Sys2Proof.Machine

/-! ### Unit tree (01_unit_tree.md) -/

/-- A command in a port's queue (R28, R31–R33): its 64 bits, the entry of which it is a copy (port, id), and, once it has been fanned out,
how many copies are not complete. `begun` marks a START whose docent has begun and has not issued its first bundle. `know` names the transfers that were
covered for the docent that pushed it (R288). -/
structure PortCmd where
  id : Nat
  cmd : W64
  parent : Option (Nat × Nat)
  out : Option Nat
  begun : Bool
  know : List Nat
  deriving DecidableEq, Repr

/-- A unit port (R27, R28, R31, R43): queue, own fault bits, FIRST, REFUSED, whether a unit reset of it is wiping, last command accepted.
`news` holds an NCLK edge and the fault bits, with bit 11 for REFUSED, that events have set in it: a write in that NCLK does not clear them (R15). -/
structure Port where
  q : List PortCmd
  own : Nat
  first : Nat
  refused : Bool
  wiping : Bool
  last : W64
  news : Nat × Nat
  deriving DecidableEq, Repr

/-! ### Gallery engines (09_stores_and_almanac.md) -/

/-- A gallery: its DMA engine's transfers in the order they became active (R324), its trace buffer as words (R539), the records dropped since
the buffer last had room (R549), and cells that owe a SYNC after a LOST record. `next` is the cell whose queue the current round looks at
first; `tstop` says that streaming has stopped at an invalid region (R549). -/
structure Gallery where
  xs : List Xfer
  next : Nat
  trace : List W64
  dropped : Nat
  resync : List Nat
  tstop : Bool
  deriving DecidableEq, Repr

/-- What a unit asks the fault logic to do (R515, R518, R520): the record's fields, and whether the fault abandons a running step. -/
structure FaultReq where
  kind : Nat
  sub : Nat
  port : Nat
  bundle : Option Nat
  addr : Nat
  detail : W64
  cell : Option Nat
  abandons : Bool
  deriving DecidableEq, Repr

/-- The barometer table as the scales of the running step see it (R105, R106): the bytes of the table at launch, its base as the step read it (R499), the stamp,
whether the scales are computed, and, while they are not, the learning rates that wait for them: entry, barometer and LR as launched (R405, R406). -/
structure ScaleSnap where
  base : Nat
  stamp : Nat
  ready : Bool
  mem : Tab Byte
  lrs : List (Nat × Nat × W32)
  deriving DecidableEq, Repr

/-- A write of an update sweep into a weight version slot (R364): the slot, and the number of the transfer, or of the peer's message, that made it.
DEDUCED (log entry 40). -/
structure SweepWrite where
  slot : Nat
  id : Nat
  peer : Bool
  deriving DecidableEq, Repr

/-- The partial statistics of one survey entry (R553): sums of the elements observed so far in the step. -/
structure SrvPart where
  count : Nat
  nan : Nat
  inf : Nat
  min : Option W32
  max : Option W32
  sum : Nat
  sat : Bool
  mix : W64
  deriving DecidableEq, Repr

/-- An almanac in force (R329, R331, R335): ALMID, the class table, and the codes of every slot of every HBM pseudo-channel and depot
subchannel. -/
structure AlmTab where
  almid : W64
  classes : List Nat
  hbm : List (List Nat)
  depot : List (List Nat)
  deriving DecidableEq, Repr

/-- Bytes of a stash region that a completed transfer of the running step wrote (R342). -/
structure StashEntry where
  region : Nat
  off : Nat
  n : Nat
  deriving DecidableEq, Repr

/-- The clock of a wing (R565, R568–R571): CCLK edges since cold reset, root cycles left until the next one, the length of the second NCLK period of the
current CCLK period, the stretch s, the root cycle from which a raised
stretch applies and the one that applies before it, whether the last edge's decay is still owed, and the galleries whose detectors are tripped. -/
structure Wing where
  edges : Nat
  left : Nat
  second : Nat
  stretch : Nat
  prev : Nat
  from_ : Nat
  decay : Bool
  tripped : List Nat
  deriving DecidableEq, Repr

/-! ### Fabric and ring (11_ring_reduction.md, 13_fabric.md) -/

/-- A partial sum of a tile-quarter (R388, R393): the sender's position, FNIDX and FNPOS, the side words and the 32 blocks. -/
structure RingPart where
  src : Nat
  fn : Option (Nat × Nat)
  sides : List Nat
  blocks : List (List Nat)
  deriving DecidableEq, Repr

/-- The state of a tile-quarter of an open bucket (R390). ADD without a partial is the first position's. -/
inductive QState where
  | wait
  | own
  | part (p : RingPart)
  | add (p : Option RingPart)
  | sent
  | deliver (p : RingPart)
  | done
  deriving DecidableEq, Repr

/-- An open bucket (R380, R381, R387): its number, stamp, the words of its entry as read when it opened, and its tile-quarters by
4 × tile + quarter. -/
structure Bucket where
  num : Nat
  stamp : Nat
  words : List W64
  qs : Tab QState
  deriving DecidableEq, Repr

/-- A tile in the contribution store (R386): rows of B16 codes, the two side words of each, and their exponent. -/
structure Contrib where
  bucket : Nat
  tile : Nat
  e16 : Nat
  rows : List (List Nat)
  sides : List (List Nat)
  deriving DecidableEq, Repr

/-- A NaN record (R400). -/
structure NanRec where
  bucket : Nat
  first : Nat
  fpos : Nat
  count : Nat
  deriving DecidableEq, Repr

/-- The ring reducer (R385–R401): open buckets, contribution store, receive buffers by ring, tiles handed over in the step, buckets completed
for the stamp, NaN records, rings that still discard and recorded markers, the state of the combined maxima, and the FCLK of the fault that RNG_FLT
holds (R396). -/
structure RingSt where
  buckets : List Bucket
  store : List Contrib
  rx : Tab (List (List Byte))
  handed : List (Nat × Nat)
  done : Nat
  nan : List NanRec
  discard : List Nat
  marks : List (Nat × Nat)
  first : Option (List (Nat × W32))
  firstSent : Bool
  secondSent : Bool
  final : Option (List (Nat × W32))
  fltAt : Nat
  deriving DecidableEq, Repr

/-- A fabric transfer that has been taken (R439–R441): its ring and entry index, its fields, the bytes read so far; `read` says that its source has been
read and a loan waits for its acknowledgement. -/
structure FabXfer where
  id : Nat
  ring : Nat
  idx : Nat
  src : Nat
  ddev : Nat
  daddr : Nat
  loan : Bool
  len : Nat
  rcell : Nat
  rh : Nat
  rval : Bool
  lcell : Nat
  lh : Nat
  lval : Bool
  pos : Nat
  read : Bool
  deriving DecidableEq, Repr

/-- Wall-tick synchronisation (R449, R450): send time of the open exchange, exchanges in a row with |o| < 1 wt and missed ones, ticks still to slew and their
direction, the last correction, and the wall tick of the last exchange. -/
structure WtSync where
  open1 : Option Nat
  good : Nat
  missed : Nat
  slew : Int
  lastCorr : Option Nat
  lastReq : Option Nat
  deriving DecidableEq, Repr

/-- The fabric engine: active transfers, the next ring of its round, PROD as last read by ring, overrun rings, the flush under way with the ports that still
discard and the recorded markers, squalls accepted lately (SRC, SEQ, wt), SEQ of the last own squall, training attempts by port, the cages
whose cable is present, routed messages for which no port is up, the root cycle at which each port finishes its message (R437), the loans that arrive here by source
and entry index, those of them that a reset has stopped (R457), and one more than the NCLK in which FAB_SQREC was last set (R15). -/
structure FabSt where
  xs : List FabXfer
  next : Nat
  prod : Tab Nat
  overrun : List Nat
  flushing : Bool
  marked : Bool
  discard : List Nat
  marks : List (Nat × Nat)
  seen : List (Nat × Nat × Nat)
  seq : Nat
  tries : Tab Nat
  cables : List Nat
  wait : List (Nat × FabMsg)
  free : Tab Nat
  loans : List (Nat × Nat)
  cut : List (Nat × Nat)
  recAt : Nat
  sync : WtSync
  deriving DecidableEq, Repr

/-! ### Host link (14_host_link.md) -/

/-- A command the device has taken and that is not complete (R471–R475, R444–R447): where it came from (`ring` and entry index of the own ring, or
`root`: the device and tag of a relay request), its words, whether every member has accepted or refused it, the members that have not replied, and what the
replies have given so far: STATUS, REASON, the member they come from, VALUE with the member it comes from, DONE, FSUM, the masks, and replies by member.
`sent` is the tick at which the last relay request left; `closed` says that the record has been written at the timeout while the own share goes on (R447). -/
structure HostTask where
  id : Nat
  ring : Nat
  index : Nat
  root : Option (Nat × Nat)
  words : List W64
  accepted : Bool
  waiting : List Nat
  status : Nat
  reason : Nat
  who : Option Nat
  values : List (Nat × W64)
  done : Nat
  fsum : Nat
  refused : W64
  sent : Nat
  closed : Bool
  ownDone : Bool
  deriving DecidableEq, Repr

/-- An event that has not been written (R479), with the device it comes from. -/
structure HeldEvent where
  dev : Nat
  type : Nat
  stamp : Nat
  wt : Nat
  arg0 : W64
  arg1 : W64
  deriving DecidableEq, Repr

/-- A host access through windows 1–3 that waits for a slot (R466): its place, length, the bytes of a write, and the tick of its arrival. -/
structure HostAcc where
  window : Nat
  off : Nat
  len : Nat
  data : Option (List Byte)
  wt : Nat
  deriving DecidableEq, Repr

/-- The driver interface: commands taken, the next ring of the round, held events and the events dropped since the last EQ_OVF, bytes for host memory
that wait for the link, and host accesses that wait. -/
structure HostSt where
  tasks : List HostTask
  next : Nat
  held : List HeldEvent
  dropped : Nat
  out : List (Nat × List Byte)
  wait : List HostAcc
  deriving DecidableEq, Repr

/-- The running step beyond its registers: REPLAY, the report list and slot size as read at launch, the wall ticks of launch and gate, the fault records of the
step, and the number of its faults (R484–R486). -/
structure StepSt where
  replay : Bool
  list : List Nat
  slot : Nat
  launchWt : Nat
  gateWt : Nat
  recs : List (List W64)
  nfault : Nat
  deriving DecidableEq, Repr

/-- An inventory dump under way or done (R557–R561): the device is frozen; the port and the bundle of the overrun, the wall tick of the freeze, and the DUMP
command that waits for it. -/
structure DumpSt where
  port : Nat
  bundle : Nat
  wt : Nat
  task : Option Nat
  deriving DecidableEq, Repr

/-! ### Accession (15_accession_and_ledger.md) -/

/-- Accession (R488–R500): the crate by register offset, the almanac image in the holding store, what the check found when ACCEDE was taken (reason and failing
offset), MODE, the ACCEDE command that waits, and the exclusion list of the selected ledger copy (R512). -/
structure AccSt where
  crate : Tab (Option W64)
  img : Option AlmTab
  fail : Option (Nat × Option Nat)
  mode : Nat
  task : Option Nat
  excl : List Nat
  deriving DecidableEq, Repr

/-! ### Clocks, power and the supply (18_clocks_power_supply.md) -/

/-- Power and supply: MOD_PWROK and MOD_RST_N; the band of the 54 V input (0 below 40 V, 1 to 44 V, 2 to 58 V, 3 to 64 V, 4 above) and the wall tick it was entered
in; since when the input has been within 45–58 V, and every sensor below 95 °C; the wall tick of the freeze in force, whether the dies receive edges, since when
they do not, and whether a root has lost lock; rotation of the cap controller and of each wing's throttling; the galleries gated by each; the last boundary
run; whether the sensors have been read; the alert pins. -/
structure PwrSt where
  on : Bool
  rstN : Bool
  band : Nat
  bandWt : Nat
  good : Option Nat
  cool : Option Nat
  freeze : Option Nat
  stopped : Bool
  stopWt : Nat
  lost : Bool
  r : Nat
  tr : Tab Nat
  gated : List Nat
  tgated : List Nat
  quantum : Option Nat
  sensed : Bool
  supplyAlert : Bool
  thermAlert : Bool
  deriving DecidableEq, Repr

/-- A compute or warm reset under way (R522–R527): its start, whether the wipe is complete, whether a warm reset's links have been taken down. -/
structure RstSt where
  start : Nat
  wiped : Bool
  down : Bool
  deriving DecidableEq, Repr

/-! ### Security, flash and module (19_security_life_cycle.md, 20_module_and_connectors.md) -/

/-- The fuses (R592): counts of blown LCS, FWSVN and UNLK bits, and the key banks as bytes once they are fused. VKH, the digest of the vendor public key, is fused at manufacture. -/
structure Fuses where
  vkh : List Byte
  lcs : Nat
  dkey : Option (List Byte)
  dpub : Option (List Byte)
  okey : Option (List Byte)
  fwsvn : Nat
  unlk : Nat
  deriving DecidableEq, Repr

/-- The image the ROM booted (R595): slot, VKEY, FLAGS.COMMIT, and the body that it loaded into the steward's RAM (R591). -/
structure Boot where
  slot : Nat
  vkey : List Byte
  commit : Bool
  ram : List Byte
  deriving DecidableEq, Repr

/-- A ledger update under way (R509): the target copy (1 A, 2 B), the bytes to program and their SEQ, or the RESULT that it ends with. -/
structure LdgUpd where
  target : Nat
  bytes : List Byte
  seq : Nat
  fail : Option Nat
  deriving DecidableEq, Repr

/-- Steward, flash and management: the flash bytes written since they were shipped or erased, the 4 KiB sectors erased since, fuses, the booted image, a ledger update under way, draws from the random
source, the FLAGS of the SEC section in force (R512), the debug scopes that are open, the security command that runs, the mailbox operation that runs or waits with whether it arrived during an update (R634),
dynamic address of the management bus, and the TAP's instruction in each die. -/
structure SecSt where
  flash : Tab (Option Byte)
  blank : List Nat
  fuses : Fuses
  boot : Option Boot
  upd : Option LdgUpd
  draws : Nat
  flags : Nat
  scopes : Nat
  cmd : Option Nat
  mbox : Option (Nat × Bool)
  addr : Option Nat
  tap : List TapOp
  /-- What the management bus has written in an NCLK of the root: the NCLK counted from 1, and each offset with its value, oldest first (R626). -/
  bus : Nat × List (Nat × W64)
  deriving DecidableEq, Repr

/-- The device: all that the spec gives it, but the queue of commands. DESIGN CHOICE (log entries 7, 13). -/
structure Dev where
  /-- Every byte that has a device address, and host memory at its window (R303), in the canonical form of `Tab`. -/
  mem : Tab Byte
  /-- For each 64-bit word of memory by address / 8, the mask of the bits that have flipped since it was written, the word's eight ECC bits last (R308, R314,
  R319). No command of the table flips one. -/
  upset : Tab Nat
  /-- The 64-bit registers of the control window and of the barometers, by offset. -/
  reg : Tab W64
  /-- The counter of free values: how many have been drawn. -/
  fresh : Nat
  /-- The number the next transfer or completion takes. -/
  nextId : Nat
  /-- Cycles of the 8.4 GHz root since reset (R564). -/
  root : Nat
  /-- The wall-tick counter (R11, R564). -/
  wt : Nat
  /-- The clock of each wing (R565, R568–R571). -/
  wings : Tab Wing
  /-- The cells by global number (R13): everything that belongs to one cell. -/
  cells : Tab Cell
  /-- The unit ports by index (R24, R43). -/
  ports : Tab Port
  /-- The gallery DMA engines: active transfers and the queue served next (R324). -/
  gals : Tab Gallery
  /-- The active unit map (R57–R59). -/
  actMap : BitVec 1024
  /-- The active group table by entry (R53). -/
  groups : Tab W64
  /-- The active almanac; none is the base almanac (R336). -/
  alm : Option AlmTab
  /-- The MCLK at which the almanac in force began its periods (R499). -/
  almBase : Nat
  /-- For each memory port one more than the MCLK at which the slot began that last carried a piece. -/
  slotUsed : Tab Nat
  /-- The stash entries that exist (R342). -/
  stash : List StashEntry
  /-- One more than the MCLK of the first spill, and of the first overflow fault, of the step (R343). -/
  arcAt : Nat × Nat
  /-- Completed transfers whose completion counts at a hold counter: until a cell passes a hold point that depends on it, one is uncovered for it (R288). -/
  ended : List Xfer
  /-- The writes of the last update sweep into each version slot (R364). -/
  sweep : List SweepWrite
  /-- The lines of host memory that the device caches, oldest first (R462). -/
  hostLines : List Nat
  /-- The barometer table as the scales of the running step see it (R105, R106). -/
  scl : ScaleSnap
  /-- Faults raised by the command that runs, not recorded yet. -/
  raised : List FaultReq
  /-- The fault log, oldest first (R518–R520). -/
  flog : List (List W64)
  /-- The wall tick at which a FAULT event was last posted (R521). -/
  faultWt : Option Nat
  /-- The messages that wait in the buffers of the fabric ports, by port, in order of arrival (R435, R437). -/
  tx : List (Nat × FabMsg)
  /-- The messages that the fabric ports have started, in order; it is for the environment to deliver them. -/
  sent : List (Nat × FabMsg)
  /-- Messages handed to the host. -/
  hostResp : List (List Byte)
  /-- The training step (ch. 10). -/
  stp : StepSt
  /-- The ring reducer (ch. 11). -/
  ring : RingSt
  /-- The fabric engine and its tables (ch. 13). -/
  fab : FabSt
  /-- Host link, rings and queues (ch. 14). -/
  host : HostSt
  /-- An inventory dump under way (R558). -/
  dump : Option DumpSt
  /-- Committed history records that have not landed (R104, R106): barometer, stamp, maximum. -/
  histPend : List (Nat × Nat × W32)
  /-- Device totals of the gauges. -/
  devGauge : Tab Nat
  /-- Device maxima of the gauges. -/
  devMax : Tab (Option W32)
  /-- The survey entries that the step read at launch, ascending (R553). -/
  srvEnt : List (Nat × W64)
  /-- The survey partials of the step. -/
  survey : Tab SrvPart
  /-- The accession (R488). -/
  acc : AccSt
  /-- Clocks, supply and power (ch. 18). -/
  pwr : PwrSt
  /-- A reset under way. -/
  rst : Option RstSt
  /-- Security, flash and module (ch. 19, 20). -/
  sec : SecSt
  deriving DecidableEq, Repr

end Sys2Proof.Machine
end

