-- ==== Sys2Proof/Machine/State.lean ====
section
/-! DEFINITION. The state of the machine: the device and the queue of commands that wait; the reasons a step can stop; the state right after reset. -/
namespace Sys2Proof.Machine

/-- Why a run of the machine stops. Each is a case of undefined behaviour (R297): the spec gives it no effect. DEDUCED (log entry 6). -/
inductive Fault where
  /-- Case 1: raised by a cell access that meets bytes of a DMA no hold point has covered. Safe. -/
  | uncoveredDma
  /-- Case 2: raised when the operations of one CCLK use a folio bank's port twice. Safe. -/
  | portConflict
  /-- Case 2: raised when two slots of a bundle write one register. Safe. -/
  | doubleWrite
  /-- Case 4: raised by a plinth load or a weight image that names a version slot that is not retained. Safe. -/
  | notRetained
  /-- Case 6: raised when a transfer names a slot class that is not granted. Safe. -/
  | classNotGranted
  /-- Case 7: raised when SETWB moves the window while a DMA targets its bytes. Safe. -/
  | windowMove
  /-- Case 8: raised by a folio or gallery-store address out of range. Safe. -/
  | outOfRange
  /-- Case 9: raised when a scale tensor's geometry does not match its data tensor. Safe. -/
  | geometry
  /-- Case 10: raised by a write of the coefficient table during an update sweep. Safe. -/
  | coefWrite
  /-- Case 11: raised by a write of the crate while an accession is pending. Safe. -/
  | crateWrite
  /-- Case 12: raised by a read of a stash entry before it is written or after it is released. Safe. -/
  | stash
  /-- Case 13: raised when a descriptor names an element format that the operation does not take. Safe. -/
  | format
  deriving DecidableEq, Repr

/-- Why a command is turned away. -/
inductive Refusal where
  /-- Raised by an arm of the dispatch whose command has no meaning yet. Safe. -/
  | notModelled (mnemonic : String)
  deriving DecidableEq, Repr

/-- The machine: the commands that wait, the oldest first, and the device. -/
structure State where
  pending : List Instr
  dev : Dev
  deriving DecidableEq, Repr

/-- The step logic outside a step. -/
def stepCold : StepSt := { replay := false, list := [], slot := 0, launchWt := 0, gateWt := 0, recs := [], nfault := 0 }

/-- The ring reducer with nothing open. -/
def ringCold : RingSt :=
  { buckets := [], store := [], rx := [], handed := [], done := 0, nan := [], discard := [], marks := [], first := none, firstSent := false
    secondSent := false, final := none, fltAt := 0 }

/-- The fabric engine with nothing active; `cables` are the cages with a cable. -/
def fabCold (cables : List Nat) : FabSt :=
  { xs := [], next := 0, prod := [], overrun := [], flushing := false, marked := false, discard := [], marks := [], seen := [], seq := 0, tries := []
    cables := cables, wait := [], free := [], loans := [], cut := [], recAt := 0, sync := { open1 := none, good := 0, missed := 0, slew := 0, lastCorr := none, lastReq := none } }

/-- The driver interface with nothing taken. -/
def hostCold : HostSt := { tasks := [], next := 0, held := [], dropped := 0, out := [], wait := [] }

/-- The active unit map with every silicon port present (R23, R57). -/
def fullMap : BitVec 1024 := BitVec.ofNat 1024 ((2 ^ 384 - 1) * 2 ^ 64 + 0xFF_FFFF_FFFF_FF1F)

/-- The device at the start of a cold reset at power-on: every register at the value that its table gives (R17), memory wiped, the input within 45–58 V, no
cable mated, no fuse but VKH blown, the flash as shipped. DESIGN CHOICE (log entries 3, 9). PRESUMED (log entry 18). -/
def coldDev : Dev :=
  { mem := [], upset := [], reg := [], fresh := 0, nextId := 0, root := 0, wt := 0, wings := [], cells := [], ports := [], gals := [], actMap := fullMap, groups := []
    alm := none, almBase := 0, slotUsed := [], stash := [], arcAt := (0, 0), ended := [], sweep := [], hostLines := [], scl := { base := 0, stamp := 0, ready := true, mem := [], lrs := [] }, raised := []
    flog := [], faultWt := none, tx := [], sent := [], hostResp := [], stp := stepCold, ring := ringCold, fab := fabCold [], host := hostCold, dump := none, histPend := []
    devGauge := [], devMax := [], srvEnt := [], survey := [], acc := { crate := [], img := none, fail := none, mode := 0, task := none, excl := [] }
    pwr := { on := true, rstN := true, band := 2, bandWt := 0, good := some 0, cool := some 0, freeze := none, stopped := false, stopWt := 0, lost := false
             r := 0, tr := [], gated := [], tgated := [], quantum := none, sensed := false, supplyAlert := false, thermAlert := false }
    rst := none
    sec := { flash := [], blank := [], fuses := { vkh := Config.vendorKeyHash, lcs := 0, dkey := none, dpub := none, okey := none, fwsvn := 0, unlk := 0 }, boot := none, upd := none
             draws := 0, flags := 0, scopes := 0, cmd := none, mbox := none, addr := none, tap := List.replicate 5 .idcode, bus := (0, []) } }

/-- The machine right after reset: the cold reset of power-on has started, READY is 0, and no command waits. DESIGN CHOICE (log entry 3). -/
def State.reset : State := { pending := [], dev := coldDev }

end Sys2Proof.Machine
end

