-- ==== Sys2Proof/Machine/Ops.lean ====
section
/-! DEFINITION. The named operations over the device's state: memory by bytes (R8, R303), the register bank (R14, R17), cells, ports and wings, free
values (R21), and the fault requests that the fault logic takes up at the end of a command. -/
namespace Sys2Proof.Machine

/-- What a meaning answers: a next device, or the named case of undefined behaviour it met (R297). -/
abbrev Res (α : Type) := Except Fault α

/-! ### Memory -/

/-- A byte nothing has written reads as zero: a wipe writes zeros (R526); for host memory see assumption 4. DESIGN CHOICE (log entry 4). -/
def memDefault (_ : Nat) : Byte := 0

/-- Memory in its canonical form. -/
def memWf (m : Tab Byte) : Bool := tabWf memDefault m

/-- One byte. DESIGN CHOICE (log entry 4). -/
def rdB (d : Dev) (a : Nat) : Byte := tabGet memDefault d.mem a

/-- `n` bytes from address `a`. -/
def rdBytes (d : Dev) (a n : Nat) : List Byte := (List.range n).map fun i => rdB d (a + i)

/-- Bytes as a number, the first byte least significant (R8). -/
def leNat : List Byte → Nat
  | [] => 0
  | b :: t => b.toNat + 256 * leNat t

/-- The `n` low bytes of a number, the least significant first (R8). -/
def leBytes (n v : Nat) : List Byte := (List.range n).map fun i => BitVec.ofNat 8 (v >>> (8 * i))

/-- The number held in `n` bytes at `a`. -/
def rdN (d : Dev) (a n : Nat) : Nat := leNat (rdBytes d a n)

/-- Writes bytes at the addresses named, in order. -/
def memPutL : List (Nat × Byte) → Tab Byte → Tab Byte
  | [], m => m
  | (a, b) :: t, m => memPutL t (tabPut memDefault m a b)

/-- R308, R314: a 64-bit word that is written whole carries valid ECC again. -/
def rewritten (as : List Nat) (u : Tab Nat) : Tab Nat := u.filter fun e => !(List.range 8).all fun i => as.contains (8 * e.1 + i)

/-- Writes the bytes at the addresses named. DESIGN CHOICE (log entry 13). -/
def wrL (d : Dev) (l : List (Nat × Byte)) : Dev := { d with mem := memPutL l d.mem, upset := rewritten (l.map (·.1)) d.upset }

/-- Writes consecutive bytes from `a`. -/
def wrBytes (d : Dev) (a : Nat) (bs : List Byte) : Dev := wrL d (bs.zipIdx.map fun (b, i) => (a + i, b))

/-- Writes the `n` low bytes of `v` at `a`. -/
def wrN (d : Dev) (a n v : Nat) : Dev := wrBytes d a (leBytes n v)

/-- Zeroes every byte whose address `p` selects, with valid ECC (R526). -/
def wipeMem (d : Dev) (p : Nat → Bool) : Dev := { d with mem := tabClear p d.mem, upset := tabClear (fun w => p (8 * w)) d.upset }

/-- Base of the depot (R303). -/
def depotBase : Nat := 0x1000_0000_0000
/-- Base of the gallery stores (R303). -/
def galleryBase : Nat := 0x2000_0000_0000
/-- Base of the folio stores (R303). -/
def folioBase : Nat := 0x2100_0000_0000
/-- Base of the control window (R303). -/
def windowBase : Nat := 0x3000_0000_0000
/-- Base of host memory (R303). -/
def hostBase : Nat := 0x4000_0000_0000
/-- Bytes of HBM: 768 GiB (R303). -/
def hbmSize : Nat := 0xC0_0000_0000
/-- Bytes of a folio store: 4 MiB (R306). -/
def folioSize : Nat := 0x40_0000

/-- Device address of folio byte `off` of cell `c`; row operands take bits [21:0] (R255, R303). -/
def folioAddr (c off : Nat) : Nat := folioBase + c * 0x80_0000 + off % folioSize

/-- `n` bytes of a folio store. -/
def rdFolio (d : Dev) (c off n : Nat) : List Byte := (List.range n).map fun i => rdB d (folioAddr c (off + i))

/-! ### Registers -/

/-- The value the register bank holds at an offset. -/
def rg (d : Dev) (off : Nat) : W64 := tabGet regReset d.reg off

/-- Sets the value at an offset. -/
def putRg (d : Dev) (off : Nat) (v : W64) : Dev := { d with reg := tabPut regReset d.reg off v }

/-- Bits `hi` to `lo` of a register. -/
def rgf (d : Dev) (off hi lo : Nat) : Nat := fld (rg d off).toNat hi lo

/-- The word with bits `hi` to `lo` replaced. -/
def setFld (w : W64) (hi lo v : Nat) : W64 :=
  let m := (2 ^ (hi + 1 - lo) - 1) <<< lo
  (w &&& ~~~(BitVec.ofNat 64 m)) ||| (BitVec.ofNat 64 ((v % 2 ^ (hi + 1 - lo)) <<< lo))

/-- Sets bits `hi` to `lo` of a register. -/
def putRgf (d : Dev) (off hi lo v : Nat) : Dev := putRg d off (setFld (rg d off) hi lo v)

/-- A sum that stays at the greatest value of `w` bits. -/
def satAdd (w a b : Nat) : Nat := min (a + b) (2 ^ w - 1)

/-- Do the performance counters count (R556)? -/
def counting (d : Dev) : Bool := rgf d 0x307_0008 0 0 == 0

/-! ### Step registers (R345–R350) -/

/-- STP_STATE.STATE. -/
def stState (d : Dev) : Nat := rgf d 0x30B_0000 1 0
/-- STP_STATE.STAMP. -/
def stStamp (d : Dev) : Nat := rgf d 0x30B_0000 55 8
/-- STP_STATE.GATE. -/
def stGate (d : Dev) : Bool := bitAt (rg d 0x30B_0000).toNat 2
/-- STP_STATE.FLIPPED. -/
def stFlipped (d : Dev) : Bool := bitAt (rg d 0x30B_0000).toNat 3
/-- STP_LAST.LAST. -/
def stLast (d : Dev) : Nat := rgf d 0x30B_0008 47 0
/-- STP_VER.PUB. -/
def stPub (d : Dev) : Nat := rgf d 0x30B_0010 0 0
/-- STP_VER.PUB0. -/
def stPub0 (d : Dev) : Nat := rgf d 0x30B_0010 1 1
/-- STP_SEED. -/
def stSeed (d : Dev) : W64 := rg d 0x30B_0020
/-- Is a step running or abandoning? -/
def inStep (d : Dev) : Bool := stState d == 1 || stState d == 2
/-- The stamp that scales and dice take (R83, R355, R411). -/
def workStamp (d : Dev) : Nat := if inStep d then stStamp d else (stLast d + 1) % 2 ^ 48
/-- This device's number (FAB_CFG.MYDEV). -/
def myDev (d : Dev) : Nat := rgf d 0x100_0000 55 50

/-! ### Cells, ports, galleries, wings -/

/-- Empty array exception record (R179). -/
def bpxReset : BpxRec :=
  { count := 0, valid := false, unit := 0, tid := 0, block := 0, row := 0, col := 0, stamp := 0, firstEdge := 0 }

/-- Empty vector exception record (R219). -/
def vxReset : VxRec :=
  { invalid := 0, divz := 0, range := 0, valid := false, kind := 0, lane := 0, bundle := 0, stamp := 0, sing := 0, flag := false,
    firstEdge := 0 }

/-- A plinth after reset: zero codes, scales 0x7F, no annex entry (R131). Exponents, format and version slot have no stated value.
DESIGN CHOICE (log entry 3). -/
def plinthReset : Plinth := { codes := [], scales := [], annex := [], tw := 0, aw := 0, fmt := .f4, vslot := false }

/-- A cell after cold reset (R131, R166, R203, R233, R36). -/
def cellReset : Cell := {
  s := [], lc := [], loops := [], pc := 0, redirects := [], winbase := 0, winPend := [], prog := [], running := false
  started := false, wait := none, ill := none, lastW := none, visiting := false
  nextEdge := 0, base := 0, frozen := none, gatedNow := false, gateWt := 0, due := [], portEdge := 0, portBanks := [], hold := [], seen := [], far := []
  credits := [], known := [], stale := [], dmaq := [], plA := plinthReset, plB := plinthReset, plAct := false, pload := none, fwdCur := none
  fwdPend := none, acc := [], conv := none, group := none, tiles := [], dy := [], lw := [], rx := [], etab := [], lwAct := false
  xyAct := false, lacc := [], racc := [], linv := [], rinv := [], bldw := none, bldx := none, bldy := none
  pairReady := true, bwdCur := none, bwdPend := none, drain := none, dw := none, dwMem := [], bpx := bpxReset, v := []
  m := [], transBusy := false, solve := none, vx := vxReset, flips := [], slips := [], gauge := [], maxima := [], trun := none, tpend := [], tref := 0
  tsync := 0, traceOn := false, hwait := 0, hmax := 0, hcnt := 0, nIssue := 0, nHeld := 0, nLocal := 0, nGate := 0
  nFwd := 0, nBwd := 0, nStr := 0 }

/-- A port after cold reset (R27, R43). -/
def portReset : Port := { q := [], own := 0, first := 0x3FF, refused := false, wiping := false, last := 0, news := (0, 0) }

/-- A gallery after cold reset. -/
def galReset : Gallery := { xs := [], next := 0, trace := [], dropped := 0, resync := [], tstop := false }

/-- A wing's clock at the start. -/
def wingReset : Wing := { edges := 0, left := 8, second := 4, stretch := 0, prev := 0, from_ := 0, decay := false, tripped := [] }

/-- The cell with global number `c` (R13). -/
def cellOf (d : Dev) (c : Nat) : Cell := tabGet (fun _ => cellReset) d.cells c
/-- Replaces a cell. -/
def putCell (d : Dev) (c : Nat) (x : Cell) : Dev := { d with cells := tabPut (fun _ => cellReset) d.cells c x }
/-- Changes a cell. -/
def modCell (d : Dev) (c : Nat) (f : Cell → Cell) : Dev := putCell d c (f (cellOf d c))
/-- The port with index `p` (R23). -/
def portOf (d : Dev) (p : Nat) : Port := tabGet (fun _ => portReset) d.ports p
/-- Replaces a port. -/
def putPort (d : Dev) (p : Nat) (x : Port) : Dev := { d with ports := tabPut (fun _ => portReset) d.ports p x }
/-- Changes a port. -/
def modPort (d : Dev) (p : Nat) (f : Port → Port) : Dev := putPort d p (f (portOf d p))
/-- Gallery `g`, 0 to 47. -/
def galOf (d : Dev) (g : Nat) : Gallery := tabGet (fun _ => galReset) d.gals g
/-- Replaces a gallery. -/
def putGal (d : Dev) (g : Nat) (x : Gallery) : Dev := { d with gals := tabPut (fun _ => galReset) d.gals g x }
/-- Changes a gallery. -/
def modGal (d : Dev) (g : Nat) (f : Gallery → Gallery) : Dev := putGal d g (f (galOf d g))
/-- Wing `w`, 0 to 3. -/
def wingOf (d : Dev) (w : Nat) : Wing := tabGet (fun _ => wingReset) d.wings w
/-- Replaces a wing. -/
def putWing (d : Dev) (w : Nat) (x : Wing) : Dev := { d with wings := tabPut (fun _ => wingReset) d.wings w x }

/-- Number of cells. -/
def nCells : Nat := 384
/-- Gallery of a cell (R13). -/
def galleryOfCell (c : Nat) : Nat := c / 8
/-- Wing of a cell (R13). -/
def wingOfCell (c : Nat) : Nat := c / 96
/-- Port index of a cell (R23). -/
def cellPort (c : Nat) : Nat := 64 + c
/-- Port index of a gallery (R23). -/
def galleryPort (g : Nat) : Nat := 8 + g

/-- The number of wall ticks, of 10 ns each, since reset (R11). Unlike the counter of R450 it is neither loaded nor slewed: durations are measured by it. -/
def ticks (d : Dev) : Nat := d.root / 84

/-- The number of a wing's NCLK edge: two in each CCLK period (R569). DESIGN CHOICE (log entry 39). -/
def nclkOf (x : Wing) : Nat := 2 * x.edges + if x.left ≤ x.second then 1 else 0

/-- The NCLK edge of the wing of cell `c`. DESIGN CHOICE (log entry 39). -/
def nclkAt (d : Dev) (c : Nat) : Nat := nclkOf (wingOf d (wingOfCell c))

/-- The last CCLK edge the cell has received: while it is held its edges stand still (R280, R281). -/
def cellEdge (d : Dev) (c : Nat) : Nat :=
  match (cellOf d c).frozen with
  | some e => e
  | none => (wingOf d (wingOfCell c)).edges - (cellOf d c).base

/-- The cell stops receiving edges after edge `e`. -/
def freezeCell (d : Dev) (c e : Nat) : Dev := modCell d c fun x => { x with frozen := some e }

/-- The cell receives edges again; the next one follows the edge it stood at. -/
def thawCell (d : Dev) (c : Nat) : Dev :=
  match (cellOf d c).frozen with
  | none => d
  | some e => modCell d c fun x => { x with frozen := none, base := (wingOf d (wingOfCell c)).edges - e }

/-! ### Free values and fresh numbers -/

/-- Draws an unspecified word (R21). -/
def drawWord (d : Dev) : W64 × Dev := (Config.freeWord d.fresh, { d with fresh := d.fresh + 1 })

/-- Writes unspecified bytes at the addresses named (R21, R298). -/
def wrUnspec : List Nat → Dev → Dev
  | [], d => d
  | a :: t, d =>
    wrUnspec t { d with mem := tabPut memDefault d.mem a (Config.freeByte d.fresh), fresh := d.fresh + 1 }

/-- Draws `n` unspecified bytes. DESIGN CHOICE (log entry 5). -/
def drawBytes : Nat → Dev → List Byte × Dev
  | 0, d => ([], d)
  | n + 1, d =>
    let r := drawBytes n { d with fresh := d.fresh + 1 }
    (Config.freeByte d.fresh :: r.1, r.2)

/-- A number no entry of the device has used yet; the model's own names for queue entries and transfers. -/
def newId (d : Dev) : Nat × Dev := (d.nextId, { d with nextId := d.nextId + 1 })

/-- Asks the fault logic to raise a fault (R515); it is taken up at the end of the command. -/
def raise (d : Dev) (f : FaultReq) : Dev := { d with raised := d.raised ++ [f] }

/-- Words of a protected store that are written carry valid ECC. DESIGN CHOICE (log entry 13). -/
def stateClean (x : Cell) (st : CellStore) (inst : Nat) (p : Nat → Bool) : Cell :=
  { x with flips := x.flips.filter fun f => !(f.store == st && f.inst == inst && p f.word) }

/-! ### Scalar, vector and mask registers, hold counters -/

/-- A stopped docent: it issues nothing more and waits for nothing (R243, R253). -/
def stopCell (x : Cell) : Cell := { x with running := false, started := false, wait := none }

/-- The docent stops at this bundle boundary; a stopped docent's cell receives edges again (R538), unless its gallery is gated (R585). -/
def stopDocent (d : Dev) (c : Nat) : Dev :=
  if (cellOf d c).gatedNow then
    let e := cellEdge d c
    modCell d c fun x => { stopCell x with frozen := some e, gateWt := if x.frozen.isNone then ticks d else x.gateWt }
  else modCell (thawCell d c) c stopCell

/-- Scalar register `r`; s0 reads as 0 (R233). -/
def sGet (x : Cell) (r : Nat) : W64 := if r = 0 then 0 else tabGet (fun _ => 0) x.s r
/-- Writes a scalar register; writes to s0 are discarded (R233). -/
def sPut (x : Cell) (r : Nat) (v : W64) : Cell := if r = 0 then x else { x with s := tabPut (fun _ => 0) x.s r v }
/-- `n` zero words: a row of an accumulator or a vector register after reset. -/
def zeros (n : Nat) : List W32 := List.replicate n 0
/-- The 256 lanes of vector register `r` (R203). -/
def vReg (x : Cell) (r : Nat) : List W32 := tabGet (fun _ => zeros 256) x.v r
/-- Lane `i` of vector register `r`. -/
def vGet (x : Cell) (r i : Nat) : W32 := (vReg x r).getD i 0
/-- Replaces a vector register. -/
def vSet (x : Cell) (r : Nat) (l : List W32) : Cell := { x with v := tabPut (fun _ => zeros 256) x.v r l }
/-- Writes a lane. -/
def vPut (x : Cell) (r i : Nat) (v : W32) : Cell := vSet x r ((vReg x r).set i v)
/-- Writes several lanes (lane, value), in order. -/
def vPutL (x : Cell) (r : Nat) (l : List (Nat × W32)) : Cell :=
  vSet (stateClean x .vreg r fun w => l.any fun p => p.1 == w) r (l.foldl (fun a p => a.set p.1 p.2) (vReg x r))
/-- Row `r` of accumulator bank `b` of the forward array (R150). -/
def accRow (x : Cell) (b r : Nat) : List W32 := tabGet (fun _ => zeros 256) x.acc (128 * b + r)
/-- Replaces a row of a forward accumulator. -/
def accSet (x : Cell) (b r : Nat) (l : List W32) : Cell := { x with acc := tabPut (fun _ => zeros 256) x.acc (128 * b + r) l }
/-- Row `r` of LACC `b` (R165). -/
def laccRow (x : Cell) (b r : Nat) : List W32 := tabGet (fun _ => zeros 64) x.lacc (64 * b + r)
/-- Replaces a row of LACC. -/
def laccSet (x : Cell) (b r : Nat) (l : List W32) : Cell := { x with lacc := tabPut (fun _ => zeros 64) x.lacc (64 * b + r) l }
/-- Row `r` of RACC `b` (R165). -/
def raccRow (x : Cell) (b r : Nat) : List W32 := tabGet (fun _ => zeros 64) x.racc (64 * b + r)
/-- Replaces a row of RACC. -/
def raccSet (x : Cell) (b r : Nat) (l : List W32) : Cell := { x with racc := tabPut (fun _ => zeros 64) x.racc (64 * b + r) l }
/-- A zero element in the common form. -/
def zeroElem : Val := .fin false 0 0
/-- Row `r` of gradient buffer `b` (R165): 64 G16 codes. -/
def dyRow (x : Cell) (b r : Nat) : List Nat := tabGet (fun _ => List.replicate 64 0) x.dy (64 * b + r)
/-- Replaces a row of a gradient buffer. -/
def dySet (x : Cell) (b r : Nat) (l : List Nat) : Cell := { x with dy := tabPut (fun _ => List.replicate 64 0) x.dy (64 * b + r) l }
/-- Image row `r` of weight buffer `b` (R165). -/
def lwRow (x : Cell) (b r : Nat) : List Val := tabGet (fun _ => List.replicate 64 zeroElem) x.lw (64 * b + r)
/-- Replaces an image row of a weight buffer. -/
def lwSet (x : Cell) (b r : Nat) (l : List Val) : Cell := { x with lw := tabPut (fun _ => List.replicate 64 zeroElem) x.lw (64 * b + r) l }
/-- Image row `r` of input buffer `b` (R165). -/
def rxRow (x : Cell) (b r : Nat) : List Val := tabGet (fun _ => List.replicate 64 zeroElem) x.rx (64 * b + r)
/-- Replaces an image row of an input buffer. -/
def rxSet (x : Cell) (b r : Nat) (l : List Val) : Cell := { x with rx := tabPut (fun _ => List.replicate 64 zeroElem) x.rx (64 * b + r) l }
/-- Row `k` of token block `b` of exponent table `i` (R165): the alignment exponent of each site n, none where every product is zero or not finite. -/
def etabRow (x : Cell) (i b k : Nat) : List (Option Int) := tabGet (fun _ => List.replicate 64 none) x.etab (128 * i + 64 * b + k)
/-- Replaces a row of an exponent table. -/
def etabSet (x : Cell) (i b k : Nat) (l : List (Option Int)) : Cell :=
  { x with etab := tabPut (fun _ => List.replicate 64 none) x.etab (128 * i + 64 * b + k) l }
/-- Mask `k`; m0 reads as all ones (R203). -/
def mGetMask (x : Cell) (k : Nat) : W256 := if k = 0 then BitVec.allOnes 256 else tabGet (fun _ => 0) x.m k
/-- Writes a mask; writes to m0 are discarded (R203). -/
def mPutMask (x : Cell) (k : Nat) (v : W256) : Cell := if k = 0 then x else { x with m := tabPut (fun _ => 0) x.m k v }
/-- Loop counter `l`. -/
def lcGet (x : Cell) (l : Nat) : W32 := tabGet (fun _ => 0) x.lc l
/-- Sets a loop counter. -/
def lcPut (x : Cell) (l : Nat) (v : W32) : Cell := { x with lc := tabPut (fun _ => 0) x.lc l v }

/-- Count of hold counter `h` (R36). -/
def holdCount (x : Cell) (h : Nat) : Nat := fld (tabGet (fun _ => 0) x.hold h).toNat 31 0
/-- Target of hold counter `h` (R36). -/
def holdTarget (x : Cell) (h : Nat) : Nat := fld (tabGet (fun _ => 0) x.hold h).toNat 63 32
/-- Sets count and target. -/
def holdSet (x : Cell) (h count target : Nat) : Cell :=
  { x with hold := tabPut (fun _ => 0) x.hold h (BitVec.ofNat 64 (target % 2 ^ 32 * 2 ^ 32 + count % 2 ^ 32)) }
/-- Adds to the count, which saturates (R36). -/
def holdAdd (x : Cell) (h n : Nat) : Cell := holdSet x h (satAdd 32 (holdCount x h) n) (holdTarget x h)
/-- An addition to a counter, with what it depends on. -/
def holdCredit (x : Cell) (q : Credit) : Cell := { holdAdd x q.h q.n with credits := x.credits ++ [q] }
/-- Count and target of a counter are set; the DMA completions that `late` selects came with the setting and are added after it (R39, R266). -/
def holdStart (x : Cell) (h count target : Nat) (late : Credit → Bool) : Cell :=
  let kept := x.credits.filter fun q => q.h == h && late q
  { holdSet x h (satAdd 32 (count % 2 ^ 32) (kept.map (·.n)).sum) target with
    credits := (x.credits.filter fun q => q.h != h) ++ { h := h, n := count % 2 ^ 32, know := [], nclk := none } :: kept }
/-- A counter word is complete when count ≥ target (R36). -/
def wordDone (w : W64) : Bool := decide (fld w.toNat 63 32 ≤ fld w.toNat 31 0)
/-- R36: complete when count ≥ target. -/
def holdDone (x : Cell) (h : Nat) : Bool := decide (holdTarget x h ≤ holdCount x h)
/-- R283: complete as the cell's own hold points see it: as it stood at the last CCLK edge. -/
def holdSeen (x : Cell) (h : Nat) : Bool := wordDone (tabGet (fun _ => 0) x.seen h)
/-- R283: complete as WAITP sees it, one CCLK edge, or two NCLK, later. DESIGN CHOICE (log entry 39). -/
def holdFar (x : Cell) (h : Nat) : Bool := wordDone (tabGet (fun _ => 0) x.far h)

/-! ### ECC (R236, R308, R309, R314, R319, R515, R517) -/

/-- Where the words of program stores stand in the table of flipped bits: above every device address, four words a bundle. -/
def progWordBase : Nat := 2 ^ 48

/-- The key of the first word of bundle `a` of a cell. -/
def progWord0 (c a : Nat) : Nat := (progWordBase + 32 * (4096 * c + a % 4096)) / 8

/-- Where the words of the contribution store stand in it: above the program stores', 256 words a tile-quarter. -/
def contribBase : Nat := 2 ^ 49

/-- The address at which quarter `q` of tile `j` of bucket `n` stands there. -/
def contribAt (n j q : Nat) : Nat := contribBase + 2048 * (4 * (n * 2 ^ 32 + j) + q)

/-- A memory word with a double-bit error: SUB of R520, the port of its owner (R44), its cell, and the low bit of its field in CNT_CORR (R556). -/
def eccOwner (a : Nat) : Nat × Nat × Option Nat × Nat :=
  if a < depotBase then (5, 0, none, 32)
  else if a < galleryBase then (6, 0, none, 16)
  else if a < folioBase then (4, galleryPort ((a - galleryBase) / 0x400_0000), none, 48)
  else if a < progWordBase then (let c := (a - folioBase) / 0x80_0000; (1, cellPort c, some c, 48))
  else if a < contribBase then (let c := (a - progWordBase) / 0x2_0000; (2, cellPort c, some c, 48))
  else (7, 0, none, 48)

/-- How many bits of a mask of flipped bits are set: 64 of data, 8 of ECC. -/
def flippedBits (m : Nat) : Nat := ((List.range 72).filter m.testBit).length

/-- How many of its 4-bit symbols are hit. -/
def flippedSymbols (m : Nat) : Nat := ((List.range 18).filter fun i => m >>> (4 * i) % 16 != 0).length

/-- R308, R314, R319: is an error of the table uncorrectable: two bits of a 64-bit word, or, in the depot, two 4-bit symbols of a 64-byte burst? Which bits
form a symbol is not stated: the model takes aligned ones. DESIGN CHOICE (log entry 13). -/
def eccLost (d : Dev) (e : Nat × Nat) : Bool :=
  if depotBase ≤ 8 * e.1 ∧ 8 * e.1 < galleryBase then
    decide (2 ≤ ((d.upset.filter fun u => u.1 / 8 == e.1 / 8).map fun u => flippedSymbols u.2).sum)
  else decide (2 ≤ flippedBits e.2)

/-- Does a read of the byte at `a` meet the ECC of word `w`: the word's own, or in the depot that of its burst? -/
def eccMeets (w a : Nat) : Bool := if depotBase ≤ a ∧ a < galleryBase then a / 64 == w / 8 else a / 8 == w

/-- R517, R556: a correctable error of word `w` is corrected and counted. -/
def eccCorrect (d : Dev) (w : Nat) : Dev :=
  let lo := (eccOwner (8 * w)).2.2.2
  let d := { d with upset := d.upset.filter fun e => e.1 != w }
  if counting d then putRgf d 0x307_0000 (lo + 15) lo (satAdd 16 (rgf d 0x307_0000 (lo + 15) lo) 1) else d

/-- R515: an uncorrectable error in word `w`; the docent of the cell that owns the memory stops. The syndrome is a free value. -/
def eccFault (d : Dev) (w : Nat) (bundle : Option Nat) : Dev :=
  let o := eccOwner (8 * w)
  let d := match o.2.2.1 with | some c => if (cellOf d c).running then stopDocent d c else d | none => d
  let s := drawWord d
  raise s.2 { kind := 1, sub := o.1, port := o.2.1, bundle := bundle, addr := if 8 * w < progWordBase then 8 * w else 0
              detail := BitVec.ofNat 64 (s.1.toNat % 256), cell := o.2.2.1, abandons := true }

/-- Bytes read, each with its address, in one access, as the reader gets them: correctable errors are corrected; the first word that is lost
raises a fault, and the bytes of each such word are unspecified. DESIGN CHOICE (log entry 13). -/
def eccBytes (d : Dev) (l : List (Nat × Byte)) : List Byte × Dev :=
  let ws := d.upset.filter fun e => l.any fun p => eccMeets e.1 p.1
  let lost := ws.filter (eccLost d)
  let d := (ws.filter fun e => !eccLost d e).foldl (fun d e => eccCorrect d e.1) d
  match lost with
  | [] => (l.map (·.2), d)
  | w :: t =>
    let r := (w :: t).foldl (fun s e =>
      let f := drawBytes 8 s.2
      (s.1.map fun p => (p.1, if p.1 / 8 = e.1 then f.1.getD (p.1 % 8) p.2 else p.2), f.2)) (l, eccFault d w.1 none)
    (r.1.map (·.2), r.2)

/-- A read of consecutive bytes. DESIGN CHOICE (log entry 13). -/
def eccRead (d : Dev) (a : Nat) (bs : List Byte) : List Byte × Dev :=
  if d.upset.isEmpty then (bs, d) else eccBytes d (bs.zipIdx.map fun (b, i) => (a + i, b))

/-- R314: the device's own logic reads `n` bytes of memory from `a`: errors are corrected, or raise the fault and leave unspecified bytes. -/
def eccTouch (d : Dev) (a n : Nat) : Dev :=
  if d.upset.isEmpty then d
  else
    let ws := d.upset.filter fun e => decide (a < 8 * e.1 + 8 ∧ 8 * e.1 < a + n)
    ws.foldl (fun d e =>
      if eccLost d e then wrUnspec ((List.range 8).map (8 * e.1 + ·)) (eccFault d e.1 none) else eccCorrect d e.1) d

/-- R236: a bundle is fetched: does its read find a double-bit error? -/
def eccFetch (d : Dev) (c a : Nat) : Bool × Dev :=
  let w := progWord0 c a
  let ws := d.upset.filter fun e => decide (w ≤ e.1 ∧ e.1 < w + 4)
  let lost := ws.find? (eccLost d)
  let d := (ws.filter fun e => !eccLost d e).foldl (fun d e => eccCorrect d e.1) d
  match lost with
  | some e => (true, eccFault d e.1 (some (a % 4096)))
  | none => (false, d)

/-- R150, R160, R166, R203: cell `c` reads the words that `p` selects of a protected store. Single-bit errors are corrected and counted (R517); words with
a double-bit error raise ECC, SUB 3, and are answered: what they held is unspecified. -/
def stateEcc (d : Dev) (c : Nat) (st : CellStore) (inst : Nat) (p : Nat → Bool) : List Nat × Dev :=
  let hit := (cellOf d c).flips.filter fun f => f.store == st && f.inst == inst && p f.word
  if hit.isEmpty then ([], d)
  else
    let one := hit.filter fun f => f.bits == 1
    let d := modCell d c fun x => { x with flips := x.flips.filter fun f => !one.contains f }
    let d := if counting d then putRgf d 0x307_0000 63 48 (satAdd 16 (rgf d 0x307_0000 63 48) one.length) else d
    match (hit.filter fun f => decide (2 ≤ f.bits)).map (·.word) with
    | [] => ([], d)
    | ws =>
      let d := if (cellOf d c).running then stopDocent d c else d
      let s := drawWord d
      (ws, raise s.2 { kind := 1, sub := 3, port := cellPort c, bundle := none, addr := 0, detail := BitVec.ofNat 64 (s.1.toNat % 256)
                       cell := some c, abandons := true })

/-- The words at the places named take unspecified values (R21). -/
def freeAt : List Nat → List W32 → Dev → List W32 × Dev
  | [], l, d => (l, d)
  | i :: t, l, d => let r := drawWord d; freeAt t (l.set i (r.1.setWidth 32)) r.2

/-- A row of `n` words of a protected store, its first word numbered `w0`, as a reader gets it. DESIGN CHOICE (log entry 13). -/
def stateRow (d : Dev) (c : Nat) (st : CellStore) (inst w0 n : Nat) (l : List W32) : List W32 × Dev :=
  let r := stateEcc d c st inst fun w => decide (w0 ≤ w ∧ w < w0 + n)
  freeAt (r.1.map (· - w0)) l r.2

/-! ### Effects under way -/

/-- Does effect `a` come before `b`? -/
def dueBefore (a b : Due) : Bool :=
  decide (a.edge < b.edge) || (a.edge == b.edge && (decide (a.phase < b.phase) || (a.phase == b.phase && decide (a.iss < b.iss))))

/-- Inserts an effect behind every effect that does not come after it. -/
def insDue (n : Due) : List Due → List Due
  | [] => [n]
  | x :: t => if dueBefore n x then n :: x :: t else x :: insDue n t

/-- Schedules an effect at an edge of the cell. -/
def sched (x : Cell) (edge phase : Nat) (op : Micro) : Cell :=
  { x with due := insDue { edge := edge, phase := phase, iss := 0, op := op } x.due }

/-- Schedules a register result that becomes visible at an edge; `iss` is the issue edge of its operation (R206, R241). -/
def schedRes (x : Cell) (edge iss : Nat) (op : Micro) : Cell :=
  { x with due := insDue { edge := edge, phase := 0, iss := iss, op := op } x.due }

/-- Removes the effects that `p` selects. -/
def dropDue (x : Cell) (p : Micro → Bool) : Cell := { x with due := x.due.filter fun u => !p u.op }

end Sys2Proof.Machine
end

