-- ==== Sys2Proof/Machine/Stores.lean ====
section
/-! DEFINITION. What the units of a cell read and write in the stores: tensor descriptors (R97, R312, R313), barometer entries and their scales
(R99–R108), gauges and maxima (R102, R116–R118), bank ports (R306, R307) and the cover of DMA (R288, case 1 of R297). -/
namespace Sys2Proof.Machine

/-- Address of barometer entry `b` (R99). A step keeps the table that its launch read (R499). -/
def baroAddr (d : Dev) (b : Nat) : Nat := (if inStep d then d.scl.base else rgf d 0x308_0000 47 12 * 4096) + 256 * b

/-! ### Descriptors -/

/-- The descriptor in eight words (R97, R312); a B16 tensor always uses blocks of 32 in row direction (R94). -/
def descOfWords (w : Nat → Nat) : Desc := {
  base := fld (w 0) 47 0, rows := fld (w 1) 63 32, cols := fld (w 1) 31 0, pitch := fld (w 2) 31 0
  fmt := fld (w 3) 39 36, tid := fld (w 3) 31 0
  bsize := if fld (w 3) 39 36 = 3 then 32 else 8 * 2 ^ fld (w 4) 63 62, bdir := fld (w 3) 39 36 != 3 && bitAt (w 4) 61
  serve := bitAt (w 4) 60, vslot := bitAt (w 4) 59, baro := fld (w 4) 55 38, spitch := fld (w 4) 31 0
  sbase := fld (w 5) 47 0, abase := fld (w 6) 47 0, vstride := fld (w 7) 47 0 }

/-- A read of folio bytes in one access, with the effects of their ECC (R308). -/
def readFolio (d : Dev) (c off n : Nat) : List Byte × Dev :=
  if d.upset.isEmpty then (rdFolio d c off n, d)
  else eccBytes d ((List.range n).map fun i => (folioAddr c (off + i), rdB d (folioAddr c (off + i))))

/-- Tensor descriptor `i` of a cell (R254). Outside a step, and where it serves, its barometer's entry is read with it (R105, R108, R314). -/
def readDesc (d : Dev) (c i : Nat) : Desc × Dev :=
  let r := readFolio d c (0x3F_C000 + 64 * i) 64
  let x := descOfWords fun k => leNat ((r.1.drop (8 * k)).take 8)
  (x, if x.serve || !inStep r.2 then eccTouch r.2 (baroAddr r.2 x.baro) 256 else r.2)

/-- R313: the descriptor as an operation that names version slot 1 uses it. -/
def slotDesc (x : Desc) (v : Bool) : Desc :=
  if v then { x with base := (x.base + x.vstride) % 2 ^ 48, sbase := (x.sbase + x.vstride) % 2 ^ 48
                     abase := (x.abase + x.vstride) % 2 ^ 48 } else x

/-- Element address by R311 for elements of `bits` bits, as a byte address and whether it is the upper half byte. -/
def elemAddr (x : Desc) (bits r c : Nat) : Nat := x.base + r * x.pitch + c * bits / 8

/-- The address of the block scale of element (r, c) (R98); entries of `w` bytes. -/
def scaleAddr (x : Desc) (w r c : Nat) : Nat :=
  if x.bdir then x.sbase + r / x.bsize * x.spitch + c * w else x.sbase + r * x.spitch + c / x.bsize * w

/-- Is the block of element (r, c) one that R98 places within the tensor?. DEDUCED (log entry 6). -/
def scalePlaced (x : Desc) (r c : Nat) : Bool := decide (r < x.rows) && decide (c < x.cols)

/-- Codes packed by R311 from bytes. -/
def unpackCodes (bits : Nat) (bs : List Byte) : List Nat :=
  if bits = 4 then bs.flatMap fun b => [b.toNat % 16, b.toNat / 16]
  else if bits = 8 then bs.map (·.toNat)
  else (chunksOf (bits / 8) bs.length bs).map leNat

/-- Bytes of codes packed by R311. -/
def packCodes (bits : Nat) (cs : List Nat) : List Byte :=
  if bits = 4 then
    (chunksOf 2 cs.length cs).map fun p => BitVec.ofNat 8 (p.headD 0 % 16 + 16 * ((p.getD 1 0) % 16))
  else cs.flatMap (leBytes (bits / 8))

/-! ### Barometers -/

/-- The fields of BARO_CFG and BARO_ANX (R101). -/
structure BaroCfg where
  seed : Nat
  margin : Int
  ahead : Nat
  w : Nat
  dl : Nat
  kind : Nat
  scope : Bool
  snap : Bool
  en : Bool
  theta : Nat
  pool : Nat
  deriving DecidableEq, Repr

/-- A signed field of 6 bits. -/
def sfld6 (n : Nat) : Int := if n < 32 then (n : Int) else (n : Int) - 64

/-- R101. KIND 0b11 acts as EN = 0; POOL above 64 acts as 64. -/
def baroCfgOf (cfg anx : Nat) : BaroCfg := {
  seed := fld cfg 55 48, margin := sfld6 (fld cfg 47 42), ahead := fld cfg 41 39, w := fld cfg 38 35 + 1
  dl := fld cfg 34 32 + 1, kind := fld cfg 31 30, scope := bitAt cfg 29, snap := bitAt cfg 28
  en := bitAt cfg 27 && fld cfg 31 30 != 3, theta := fld anx 15 8, pool := min (fld anx 6 0) 64 }

/-- Configuration of barometer `b` as memory holds it. -/
def baroCfg (d : Dev) (b : Nat) : BaroCfg := baroCfgOf (rdN d (baroAddr d b) 8) (rdN d (baroAddr d b + 8) 8)

/-- The scales of R105: tensor exponent, annex exponent, B16 exponent. -/
structure Scales where
  texp : Int
  taexp : Int
  e16 : Nat
  deriving DecidableEq, Repr

/-- R105 baro_scales for stamp `t`; `rd a n` reads `n` bytes of the barometer's entry at offset `a`. -/
def baroScales (rd : Nat → Nat → Nat) (t : Nat) : Scales :=
  let c := baroCfgOf (rd 0 8) (rd 8 8)
  let hist := ((List.range (min (c.dl + c.w - 1) 16 + 1 - c.dl)).map (· + c.dl)).filterMap fun j =>
    let st := (t + 2 ^ 48 - j) % 2 ^ 48
    let h := rd (0x40 + 8 * (st % 16)) 8
    if c.en && bitAt h 48 && fld h 47 32 == st % 65536 then some (fld h 31 0) else none
  let mw := hist.foldl max 0
  let ce : Int := if !hist.isEmpty && mw != 0 then ceilLog2 mw else (c.seed : Int) - 127
  { texp := clampI (ce + c.margin) (-126) 127, taexp := clampI (ce + c.ahead - 8) (-126) 127
    e16 := (clampI (ce + c.margin + 112) 0 254).toNat }

/-- The scales of barometer `b` as the running step uses them, or, outside a step, those for LAST + 1 (R105, R122, R355). -/
def scalesOf (d : Dev) (b : Nat) : Scales :=
  if inStep d then
    baroScales (fun a n => leNat ((List.range n).map fun i => tabGet memDefault d.scl.mem (d.scl.base + 256 * b + a + i))) d.scl.stamp
  else baroScales (fun a n => rdN d (baroAddr d b + a) n) (workStamp d)

/-- Tensor and annex exponents of version slot `v` from BARO_SNAP (R101, R108, R130). -/
def snapScales (d : Dev) (b : Nat) (v : Bool) : Int × Int :=
  let w := rdN d (baroAddr d b + 0xE0) 8
  if v then ((fld w 23 16 : Int) - 127, (fld w 31 24 : Int) - 127) else ((fld w 7 0 : Int) - 127, (fld w 15 8 : Int) - 127)

/-- Tensor and annex exponents of a descriptor: the step's, or the snapshot's when SERVE = 1 (R105, R108). -/
def descScales (d : Dev) (x : Desc) : Int × Int :=
  if x.serve then snapScales d x.baro x.vslot else let s := scalesOf d x.baro; (s.texp, s.taexp)

/-- R116–R118, R355: counts `n` events of gauge `g` in the cell's partial gauges; nothing outside a step. -/
def gaugeAdd (d : Dev) (c baro g n : Nat) : Dev :=
  if n = 0 ∨ !inStep d then d
  else modCell d c fun x =>
    { x with gauge := tabPut (fun _ => 0) x.gauge (8 * baro + g) (satAdd 32 (tabGet (fun _ => 0) x.gauge (8 * baro + g)) n) }

/-- Several gauges of one barometer. -/
def gaugesAdd (d : Dev) (c baro : Nat) (gs : List (Nat × Nat)) : Dev := gs.foldl (fun d g => gaugeAdd d c baro g.1 g.2) d

/-- Gauges of a descriptor's tensor; a serving conversion counts none (R117). -/
def descGauges (d : Dev) (c : Nat) (x : Desc) (gs : List (Nat × Nat)) : Dev := if x.serve then d else gaugesAdd d c x.baro gs

/-- R102: the greatest of the finite magnitudes among P32 codes, as a code. -/
def maxFinite (vs : List W32) : Option W32 :=
  vs.foldl (fun m v =>
    match p32Val v with
    | .fin _ _ _ => let a := p32Abs v; (match m with | none => some a | some b => some (if b.toNat < a.toNat then a else b))
    | _ => m) none

/-- R103: the greater of two running maxima; none has observed nothing. -/
def maxOf (a b : Option W32) : Option W32 :=
  match a, b with
  | none, b => b
  | a, none => a
  | some x, some y => some (if x.toNat < y.toNat then y else x)

/-- R102, R103: the cell's running maximum of a barometer of kind `k` takes in the magnitude `m`; nothing outside a step. -/
def observe (d : Dev) (c baro k : Nat) (m : Option W32) : Dev :=
  match m with
  | none => d
  | some v =>
    let d := if inStep d then eccTouch d (baroAddr d baro) 16 else d
    let cfg := baroCfg d baro
    if inStep d && cfg.en && cfg.kind == k then
      modCell d c fun x =>
        { x with maxima := tabPut (fun _ => none) x.maxima baro (maxOf (tabGet (fun _ => none) x.maxima baro) (some v)) }
    else d

/-! ### Bank ports and DMA cover -/

/-- The banks that bytes `off` to `off + n - 1` fall in (R306). -/
def banksOf (off n : Nat) : List Nat :=
  if n = 0 then [] else (List.range ((off % 64 + n - 1) / 64 + 1)).map fun i => (off / 64 + i) % 16

/-- Does a bank stand twice in the list? -/
def bankTwice : List Nat → Bool
  | [] => false
  | b :: t => t.contains b || bankTwice t

/-- R307: takes bank ports in edge `e`; a bank taken twice in one edge is case 2 of R297. DEDUCED (log entry 6). -/
def usePorts (d : Dev) (c e : Nat) (banks : List Nat) : Res Dev :=
  let x := cellOf d c
  let used := if x.portEdge = e then x.portBanks else []
  if bankTwice banks || banks.any (used.contains ·) then .error .portConflict
  else .ok (putCell d c { x with portEdge := e, portBanks := used ++ banks })

/-- Do the `rows` rows of `rb` bytes from `base` at pitch `p` meet bytes `a` to `a + n - 1`? -/
def rowsTouch (base rows rb p a n : Nat) : Bool :=
  if n = 0 ∨ rb = 0 ∨ rows = 0 ∨ a + n ≤ base then false
  else
    let r := if p = 0 then 0 else min ((a + n - 1 - base) / p) (rows - 1)
    decide (a < base + r * p + rb)

/-- Bytes per row and rows of the source and of the destination of a transfer (R323). -/
def xferShape (x : Xfer) : Nat × Nat :=
  if x.mode = 1 then
    let t := if x.tsize = 0 then 64 else 128
    (t, t * 4 * 2 ^ x.esize / 8)
  else (x.rows, x.rowBytes)

/-- Does an access to `n` bytes at device address `a` meet bytes that the transfer writes, or, for a write, reads? (R297 case 1).
DEDUCED (log entry 10). -/
def xferMeets (x : Xfer) (write : Bool) (a n : Nat) : Bool :=
  let sh := xferShape x
  (!x.prog && !x.dstash && rowsTouch x.dst sh.1 sh.2 x.dpitch a n)
    || (write && x.mode != 2 && !x.sstash && rowsTouch x.src sh.1 sh.2 x.spitch a n)

/-- Every transfer that is under way, and every queued one whose descriptor has been read. -/
def liveXfers (d : Dev) : List Xfer :=
  (d.gals.flatMap fun g => g.2.xs) ++ (d.cells.flatMap fun c => c.2.dmaq.filterMap (·.x))

/-- R288: the completed transfers that are uncovered for an agent for which those in `known` are covered. DEDUCED (log entry 10). -/
def endedFor (d : Dev) (known : List Nat) : List Xfer := d.ended.filter fun e => !known.contains e.id

/-- R288: is a DMA that touches these bytes uncovered for cell `c`?. DEDUCED (log entry 10). -/
def uncovered (d : Dev) (c : Nat) (write : Bool) (a n : Nat) : Bool :=
  (liveXfers d ++ endedFor d (cellOf d c).known).any fun x => xferMeets x write a n

/-- What the transfers of cell `c` that are under way may still add to its counter `h`: for each, what it depends on. DEDUCED (log entry 10). -/
def pendingCredits (d : Dev) (c h : Nat) : List (List Nat) :=
  (((d.gals.flatMap (·.2.xs)).filter fun x => x.cell == c && x.h == some h).map (·.cover))
    ++ ((cellOf d c).dmaq.filter fun q => q.h == h).map (·.cover)

/-- R288: the completed transfers without which counter `h` of cell `c` could not be complete, whatever transfers that still run had added. Passing a hold point on
the counter covers them. DEDUCED (log entry 10). -/
def coveredBy (d : Dev) (c h : Nat) : List Nat :=
  let x := cellOf d c
  let q := x.credits.filter (·.h == h)
  let p := pendingCredits d c h
  (d.ended.map (·.id) ++ (d.sweep.filter (·.peer)).map (·.id)).filter fun k =>
    decide (((q.filter fun r => !r.know.contains k).map (·.n)).sum + (p.filter fun r => !r.contains k).length < holdTarget x h)

/-- R405: does the update sweep of a step run: from its gate to its commit or abandonment? -/
def sweeping (d : Dev) : Bool := stState d == 1 && stGate d

/-- R364: is version slot `v` not retained for an agent that has covered `known`: a write of the sweep into it is not covered, or none has been queued yet?
DEDUCED (log entry 40). -/
def sweepOpen (d : Dev) (known : List Nat) (v : Nat) : Bool :=
  let ws := d.sweep.filter (·.slot == v)
  let alive (k : Nat) : Bool := (d.ended ++ liveXfers d).any (·.id == k) || d.cells.any fun c => c.2.dmaq.any (·.id == k)
  (sweeping d && ws.isEmpty) || ws.any fun w => !known.contains w.id && (w.peer || alive w.id)

/-- A cell passes a hold point: the transfers named become covered, and version slots with them (R288, R364). DEDUCED (log entries 10, 40). -/
def learn (d : Dev) (x : Cell) (ks : List Nat) : Cell :=
  let known := x.known ++ ks.filter fun k => !x.known.contains k
  { x with known := known, stale := x.stale.filter (sweepOpen d known) }

/-- R364, R173: an operation of cell `c` names weight version slot `v`: it must be retained (case 4 of R297). DEDUCED (log entries 6, 40). -/
def retained (d : Dev) (c : Nat) (v : Bool) : Res Unit := if (cellOf d c).stale.contains (if v then 1 else 0) then .error .notRetained else .ok ()

/-- R288, R297 case 1: a cell-side access to folio bytes that an uncovered DMA touches. DEDUCED (log entry 6). -/
def checkCover (d : Dev) (c : Nat) (write : Bool) (off n : Nat) : Res Unit :=
  let a := folioAddr c off
  if uncovered d c write a n then .error .uncoveredDma else .ok ()

/-- A cell-side read of folio bytes in edge `e` through the ports of their banks. -/
def readPorts (d : Dev) (c e off n : Nat) : Res (List Byte × Dev) := do
  checkCover d c false off n
  let d ← usePorts d c e (banksOf off n)
  pure (readFolio d c off n)

/-- A cell-side read of scale entries of `w` bytes at the offsets named, in one access; another read of the same operation counts its ports. -/
def readScales (d : Dev) (c w : Nat) (offs : List Nat) : Res (List Nat × Dev) := do
  offs.forM fun o => checkCover d c false o w
  let as := offs.flatMap fun o => (List.range w).map fun i => folioAddr c (o + i)
  let r := if d.upset.isEmpty then (as.map (rdB d), d) else eccBytes d (as.map fun a => (a, rdB d a))
  pure ((chunksOf w r.1.length r.1).map leNat, r.2)

/-- Stores of folio bytes (offset, byte) that fall due: banks in use, cover, and the bytes (R306, R307). -/
def storeFolio (d : Dev) (c e : Nat) (bs : List (Nat × Byte)) (banks : List Nat) : Res Dev := do
  if bs.any (fun b => uncovered d c true (folioAddr c b.1) 1) then
    throw .uncoveredDma
  let d ← usePorts d c e banks
  pure (wrL d (bs.map fun b => (folioAddr c b.1, b.2)))

/-- Folio offsets with their bytes, from `off` on. -/
def atOff (off : Nat) (bs : List Byte) : List (Nat × Byte) := bs.zipIdx.map fun (b, i) => ((off + i) % folioSize, b)

/-- R93, R98: does the scale tensor's geometry match the data tensor? -/
def geomOk (x : Desc) (w : Nat) : Bool :=
  if x.bdir then x.rows % x.bsize == 0 && decide (x.cols * w ≤ x.spitch)
  else x.cols % x.bsize == 0 && decide (x.cols / x.bsize * w ≤ x.spitch)

/-- R129, R169: blocked along the direction named, with a block size of 32 or 64. -/
def kBlocked (x : Desc) (col : Bool) : Bool := x.bdir == col && (x.bsize == 32 || x.bsize == 64) && geomOk x 1

/-! ### Survey (R550–R553) -/

/-- R553 srv_mix. -/
def srvMix (tid idx bits : Nat) : W64 :=
  let x0 : W64 := BitVec.ofNat 64 (tid % 2 ^ 32 * 2 ^ 32 + bits % 2 ^ 32)
  let y0 : W64 := BitVec.ofNat 64 idx ^^^ 0x5BE3_0C71_A4D2_96F9#64
  let step (p : W64 × W64) : W64 × W64 :=
    let y := p.2 + p.1
    let x := p.1.rotateLeft 27 ^^^ y
    (x, y * 0x8F3A_2D65_C1E4_7B19#64)
  let r := step (step (step (step (x0, y0))))
  r.1 ^^^ r.2

/-- Empty partial statistics. -/
def srvZero : SrvPart := { count := 0, nan := 0, inf := 0, min := none, max := none, sum := 0, sat := false, mix := 0 }

/-- A value as the P32 code by which the survey orders it (R208). -/
def valP32 (v : Val) : W32 := p32Enc (flushVal v)

/-- R552, R553: one observed element with its index, value and bits. DEDUCED (log entry 26). -/
def srvElem (sexp tid : Nat) (p : SrvPart) (e : Nat × Val × Nat) : SrvPart :=
  let (idx, v, bits) := e
  let p := { p with count := p.count + 1, mix := p.mix + srvMix tid idx bits }
  let ord (p : SrvPart) (x : W32) : SrvPart :=
    { p with
      min := match p.min with | none => some x | some m => some (if p32Key x < p32Key m then x else m)
      max := match p.max with | none => some x | some m => some (if p32Key m < p32Key x then x else m) }
  match v with
  | .nan => { p with nan := p.nan + 1 }
  | .inf s => ord { p with inf := p.inf + 1 } (p32Enc (.inf s))
  | .marker => p
  | .fin s sig ex =>
    let q := roundUnit sig ex ((sexp : Int) - 127) .rna
    let big := decide (2 ^ 100 ≤ q)
    let q := if big then 2 ^ 100 - 1 else q
    let p := ord p (valP32 v)
    { p with sum := (p.sum + (if s then 2 ^ 128 - q else q)) % 2 ^ 128, sat := p.sat || big }

/-- R551: the elements (row, column, value, bits) that site `site` writes through descriptor `x` in a running step, with visiting hours closed. -/
def surveyRun (d : Dev) (visiting : Bool) (site : Nat) (x : Desc) (els : List (Nat × Nat × Val × Nat)) : Dev :=
  if visiting || !inStep d then d
  else d.srvEnt.foldl (fun d e =>
    let w := e.2.toNat
    if bitAt w (56 + site) && fld w 31 0 == x.tid then
      let els := (els.filter fun q => decide (q.1 < x.rows) && decide (q.2.1 < x.cols)).map fun q => ((q.1 * x.cols + q.2.1) % 2 ^ 48, q.2.2)
      let p := els.foldl (srvElem (fld w 55 48) x.tid) (tabGet (fun _ => srvZero) d.survey e.1)
      { d with survey := tabPut (fun _ => srvZero) d.survey e.1 p }
    else d) d

/-- R552: the bits of a written element of format code `f`. -/
def srvBits (f code scale : Nat) : Nat := if f < 2 then code else code % 65536 + scale * 65536 + f * 2 ^ 24

/-! ### Residue faults -/

/-- R160, R515: a residue fault of a cell; its docent stops at its next bundle boundary. -/
def residueFault (d : Dev) (c sub : Nat) (addr tid : Nat) : Dev :=
  raise (stopDocent d c)
    { kind := 0, sub := sub, port := cellPort c, bundle := none, addr := addr, detail := BitVec.ofNat 64 (tid % 65536)
      cell := some c, abandons := true }

end Sys2Proof.Machine
end

