-- ==== Sys2Proof/Machine/Forward.lean ====
section
/-! DEFINITION. The forward array of a cell (04_forward_array.md): the effects of PLOAD, PSWAP, FWD with its annex pre-pass, FCVT and FDRAIN at the
edges R132–R161 give them. Each effect takes the device, the cell and the edge at which it falls due. -/
namespace Sys2Proof.Machine

/-- R125: the operand formats of the forward array. -/
def fwdFmt (x : Desc) : Res Fmt :=
  match fmtOfCode x.fmt with
  | some .f4 => .ok .f4
  | some .i4 => .ok .i4
  | some .a8 => .ok .a8
  | _ => .error .format

/-- R116: gauge numbers. -/
def gAnnexOvf : Nat := 0
/-- B16_SAT. -/
def gB16Sat : Nat := 1
/-- G8_INF. -/
def gG8Inf : Nat := 2
/-- G16_INF. -/
def gG16Inf : Nat := 3
/-- NAN_OUT. -/
def gNanOut : Nat := 4
/-- INVALID. -/
def gInvalid : Nat := 5
/-- NARROW_SAT. -/
def gNarrowSat : Nat := 6
/-- NAN_HOLD. -/
def gNanHold : Nat := 7

/-- Annex entries a tensor's tiles can hold: none for A8, for POOL = 0 and for THETA = 0xFF (R114). -/
def poolOf (f : Fmt) (b : BaroCfg) : Nat := if f == .a8 || b.theta == 0xFF then 0 else b.pool

/-- Address of the pool of annex tile (i, j) (R114). -/
def poolAddr (x : Desc) (pool i j : Nat) : Nat := x.abase + (i * ((x.cols + 255) / 256) + j) * poolStride pool

/-- Entries of pool bytes up to the first with V = 0 (R114). -/
def poolEntries (bs : List Byte) : List Nat := ((chunksOf 4 bs.length bs).map leNat).takeWhile fun w => bitAt w 23

/-! ### Plinths -/

/-- The active plinth. -/
def activePl (x : Cell) : Plinth := if x.plAct then x.plB else x.plA

/-- Columns of a plinth tile: 256, or 128 for A8 weights (R125, R126). -/
def plCols (f : Fmt) : Nat := if f == .a8 then 128 else 256

/-- R132, CCLK t + 1: PLOAD reads its descriptor and begins; it names tile (p, j) and the version slot. -/
def ploadStart (d : Dev) (c e desc p j : Nat) (vslot : Bool) : Res Dev := do
  let (x, d) := readDesc d c desc
  let x := slotDesc x vslot
  let f ← fwdFmt x
  if !kBlocked x true then throw .geometry
  retained d c vslot
  let d := eccTouch d (baroAddr d x.baro) 256
  let s := snapScales d x.baro vslot
  let run : PloadRun := { d := x, fmt := f, p := p, j := j, vslot := vslot, tw := s.1, aw := s.2, pool := poolOf f (baroCfg d x.baro)
                          codes := [], scales := [], annex := [] }
  pure (modCell d c fun y => sched { y with pload := some run } e 2 (.ploadRead 0))

/-- R132: the k-th read of a PLOAD: 64 CCLK of codes, two rows each, then 4 of block scales, then the pool. DESIGN CHOICE (log entry 36). -/
def ploadRead (d : Dev) (c e k : Nat) : Res Dev := do
  match (cellOf d c).pload with
  | none => pure d
  | some r =>
    let x := r.d
    let n := plCols r.fmt
    let next (y : Cell) (r : PloadRun) : Cell :=
      let y := { y with pload := some r }
      if k < 68 then sched y (e + 1) 2 (.ploadRead (k + 1)) else y
    if k < 64 then
      let row (i : Nat) : Nat := x.base + (128 * r.p + i) * x.pitch + 128 * r.j
      let (a, d) ← readPorts d c e (row (2 * k)) 128
      let (b, d) ← readPorts d c e (row (2 * k + 1)) 128
      pure (modCell d c fun y => next y { r with codes := r.codes ++ a ++ b })
    else if k < 68 then
      let off := x.sbase + (128 * r.p + 32 * (k - 64)) / x.bsize * x.spitch + n * r.j
      let (a, d) ← readPorts d c e off n
      pure (modCell d c fun y => next y { r with scales := r.scales ++ a })
    else if r.pool = 0 then pure d
    else
      let (a, d) ← readPorts d c e (poolAddr x r.pool r.p r.j) (poolStride r.pool)
      pure (modCell d c fun y => next y { r with annex := (poolEntries a).take r.pool })

/-- R131, R132: the plinth a finished PLOAD leaves. -/
def plinthOf (r : PloadRun) : Plinth := {
  codes := (chunksOf 128 128 r.codes).map (unpackCodes (fmtBits r.fmt))
  scales := (chunksOf (plCols r.fmt) 4 r.scales).map fun l => l.map (·.toNat)
  annex := r.annex, tw := r.tw, aw := r.aw, fmt := r.fmt, vslot := r.vslot }

/-- R132, R133: the inactive plinth is ready and the load path is free. -/
def plinthDone (d : Dev) (c : Nat) : Dev :=
  modCell d c fun x =>
    match x.pload with
    | none => x
    | some r =>
      let p := plinthOf r
      let x := stateClean x .plinth (if x.plAct then 0 else 1) fun _ => true
      if x.plAct then { x with plA := p, pload := none } else { x with plB := p, pload := none }

/-! ### Streaming -/

/-- The FWD that was issued at edge `t`. -/
def fwdRunOf (x : Cell) (t : Nat) : Option FwdRun :=
  match x.fwdCur with
  | some r => if r.t = t then some r else (x.fwdPend.filter fun q => q.t == t)
  | none => x.fwdPend.filter fun q => q.t == t

/-- Replaces the FWD that was issued at edge `r.t`. -/
def setFwdRun (x : Cell) (r : FwdRun) : Cell :=
  match x.fwdCur with
  | some q => if q.t = r.t then { x with fwdCur := some r } else { x with fwdPend := some r }
  | none => { x with fwdPend := some r }

/-- R125, R130, R138: a FWD reads its descriptor in its first CCLK. -/
def fwdDescRead (d : Dev) (c t : Nat) : Res Dev := do
  match fwdRunOf (cellOf d c) t with
  | none => pure d
  | some r =>
    let (x, d) := readDesc d c r.desc
    let f ← fwdFmt x
    if !kBlocked x false then throw .geometry
    let s := descScales d x
    pure (modCell d c fun y => setFwdRun y
      { r with d := some x, fmt := f, r := if f == .a8 then 2 else 1, tx := s.1, ax := s.2, pool := poolOf f (baroCfg d x.baro) })

/-- R146: pre-pass CCLK `k` of the FWD issued at `t`. -/
def fwdPrePass (d : Dev) (c e t k : Nat) : Res Dev := do
  match fwdRunOf (cellOf d c) t with
  | none => pure d
  | some r => match r.d with
  | none => pure d
  | some x =>
    let next (y : Cell) : Cell := if k < 63 then sched y (e + 1) 2 (.fwdPre t (k + 1)) else y
    if r.stopPre ∨ r.pool ≤ k then pure (modCell d c next)
    else
      let ti := r.tok / 128
      let tj := 128 * r.p / 256
      let (bs, d) ← readPorts d c e (poolAddr x r.pool ti tj + 4 * k) 4
      let w := leNat bs
      let kk := 256 * tj + fld w 7 0
      let tok := 128 * ti + fld w 14 8
      let r :=
        if !bitAt w 23 then { r with stopPre := true }
        else if kk < 128 * r.p ∨ 128 * r.p + 128 ≤ kk ∨ tok < r.tok ∨ r.tok + r.cnt ≤ tok then r
        else { r with annex := r.annex ++ [(tok, kk % 128, fld w 31 24)] }
      pure (modCell d c fun y => next (setFwdRun y r))

/-- Weight annex sites of column `n`, block `b` of a plinth: row within the block and value (R144). -/
def annexSites (p : Plinth) (n b : Nat) : List (Nat × Nat) :=
  (p.annex.filter fun w => fld w 7 0 == n && fld w 14 8 / 32 == b).map fun w => (fld w 14 8 % 32, fld w 31 24)

/-- Buffered activation annex entries of token `tok` in block `b` (R146). -/
def annexToken (r : FwdRun) (tok b : Nat) : List (Nat × Nat) :=
  (r.annex.filter fun a => a.1 == tok && a.2.1 / 32 == b).map fun a => (a.2.1 % 32, a.2.2)

/-- R139–R143: the four block values of every column for one vector of 128 codes with its block scales, each with the check that fails. -/
def vectorBlocks (p : Plinth) (r : FwdRun) (tok : Nat) (codes eb : List Nat) (slips : List Slip) : List (List (W32 × Option Nat)) :=
  (List.range (plCols p.fmt)).map fun n => (List.range 4).map fun b =>
    let x : FwdBlk := { fmt := r.fmt, codes := (codes.drop (32 * b)).take 32, eb := eb.getD b 0x7F }
    let rows := (List.range 32).map fun i => (p.codes.getD (32 * b + i) []).getD n 0
    let w : FwdBlk := { fmt := p.fmt, codes := rows, eb := (p.scales.getD b []).getD n 0x7F }
    fwdBlock x w r.tx r.ax p.tw p.aw (annexSites p n b) (annexToken r tok b) (slips.filter fun s => s.col == n && s.blk == b)

/-- The columns whose weights word `w` of a plinth holds: 2,048 words of codes, 128 of block scales, then the annex sites (R131, R160). -/
def plinthCols (p : Plinth) (w : Nat) : List Nat :=
  if w < 2048 then (List.range (64 / fmtBits p.fmt)).map (64 / fmtBits p.fmt * (w % 16) + ·)
  else if w < 2176 then (List.range 8).map (8 * (w % 32) + ·)
  else (p.annex.drop (2 * (w - 2176))).take 2 |>.map fun e => fld e 7 0

/-- The block values of vector `i`, which entered at `entry` while plinth B (`act`) or A was active, are added into its accumulator row; the row is visible from
entry + r + 13 (R139, R151). A failed check raises RESIDUE and leaves the vector's entries unspecified; so do the columns of a plinth word with a double-bit
error (R160). -/
def enterVector (d : Dev) (c : Nat) (r : FwdRun) (entry i : Nat) (act : Bool) (bytes : List Byte) (eb : List Nat) : Dev :=
  let e := stateEcc d c .plinth (if act then 1 else 0) fun _ => true
  modCell e.2 c fun x =>
    let p := if act then x.plB else x.plA
    let mine := x.slips.filter fun s => s.sub == 1 || s.sub == 2
    let x := if mine.isEmpty then x else { x with slips := x.slips.filter fun s => !(s.sub == 1 || s.sub == 2) }
    let cols := vectorBlocks p r (r.tok + i) (unpackCodes (fmtBits r.fmt) bytes) eb mine
    let bank := if r.bank then 1 else 0
    let row := (r.row + i) % 128
    let at_ := entry + r.r + 13
    let x := sched x at_ 0 (.accAdd bank row r.clr (cols.map fun l => l.map (·.1)))
    let x := match cols.flatten.findSome? (·.2) with
      | none => x
      | some s => sched (sched x (entry + r.r + 3) 0 (.residue s (match r.d with | some y => y.tid | none => 0))) at_ 0
          (.accFree bank row (List.range (plCols p.fmt)))
    match e.1.flatMap (plinthCols p) with
    | [] => x
    | bad => sched x at_ 0 (.accFree bank row bad)

/-- R138: vector `i` of the FWD issued at `t` enters; the next one follows after the vector interval, and after the last one the array is free. -/
def fwdVector (d : Dev) (c e t i : Nat) : Res Dev := do
  match fwdRunOf (cellOf d c) t with
  | none => pure d
  | some r => match r.d with
  | none => pure d
  | some x =>
    let off := x.base + (r.tok + i) * x.pitch + 16 * fmtBits r.fmt * r.p
    let (bs, d) ← readPorts d c e off 64
    let (eb, d) ← readScales d c 1 ((List.range 4).map fun b => scaleAddr x 1 (r.tok + i) (128 * r.p + 32 * b))
    let d := if r.r = 1 then enterVector d c r e i (cellOf d c).plAct bs eb else d
    pure (modCell d c fun y =>
      let y := setFwdRun { y with nFwd := if counting d then y.nFwd + 1 else y.nFwd } { r with next := i + 1 }
      let y := if r.r = 1 then y else sched y (e + 1) 2 (.fwdVec2 t i y.plAct bs eb)
      if i + 1 < r.cnt then sched y (e + r.r) 2 (.fwdVec t (i + 1)) else sched y (e + r.r) 0 .fwdPendStart)

/-- R138: the second CCLK of an A8 vector; the plinth is the one that was active when the vector entered (R135). -/
def fwdVector2 (d : Dev) (c e t i : Nat) (act : Bool) (first : List Byte) (eb : List Nat) : Res Dev := do
  match fwdRunOf (cellOf d c) t with
  | none => pure d
  | some r => match r.d with
  | none => pure d
  | some x =>
    let off := x.base + (r.tok + i) * x.pitch + 16 * fmtBits r.fmt * r.p + 64
    let (bs, d) ← readPorts d c e off 64
    pure (enterVector d c r (e - 1) i act (first ++ bs) eb)

/-- R137, R148: the current FWD has entered its last vector; a pending one starts streaming, or waits for the end of its pre-pass. An A8 vector has entered
once both of its halves have. DESIGN CHOICE (log entry 36). -/
def fwdNext (d : Dev) (c e : Nat) : Dev :=
  modCell d c fun x =>
    let x := { x with fwdCur := none }
    match x.fwdPend with
    | none => x
    | some r =>
      if r.aanx ∧ e ≤ r.preEnd then sched x (r.preEnd + 1) 0 .fwdPendStart
      else sched { x with fwdCur := some { r with start := some e }, fwdPend := none } e 2 (.fwdVec r.t 0)

/-- R151, R152: the blocks of one vector are added into an accumulator row, column by column; columns the tile lacks are not written (R126). With CLR the
old entries are not read. -/
def accAdd (d : Dev) (c bank row : Nat) (clr : Bool) (cols : List (List W32)) : Dev :=
  let old := accRow (cellOf d c) bank row
  let r := if clr then (old, d) else stateRow d c .acc bank (256 * row) cols.length old
  modCell r.2 c fun x =>
    let x := stateClean x .acc bank fun w => decide (256 * row ≤ w ∧ w < 256 * row + cols.length)
    accSet x bank row (r.1.zipIdx.map fun (a, n) => match cols[n]? with | some bl => accumulate clr a bl | none => a)

/-- R160: entries of an accumulator row take unspecified values. -/
def accFree (d : Dev) (c bank row : Nat) (cols : List Nat) : Dev :=
  let r := freeAt cols (accRow (cellOf d c) bank row) d
  modCell r.2 c fun x => accSet x bank row r.1

/-- R136, R148: FWD issued at `t`. -/
def issueFwd (x : Cell) (t desc tok p row cnt : Nat) (bank clr aanx : Bool) : Cell :=
  let idle := x.fwdCur.isNone && x.fwdPend.isNone
  let pre0 := match x.fwdCur with | some r => if r.aanx then max (t + 1) (r.preEnd + 1) else t + 1 | none => t + 1
  let r : FwdRun := { t := t, desc := desc, tok := tok, p := p, row := row, cnt := cnt, bank := bank, clr := clr, aanx := aanx, d := none
                      fmt := .f4, r := 1, tx := 0, ax := 0, pool := 0, preEnd := pre0 + 63, stopPre := false, annex := [], next := 0
                      start := none }
  let s := if aanx then pre0 + 64 else t + 1
  let x := if idle then { x with fwdCur := some { r with start := some s } } else { x with fwdPend := some r }
  let x := sched x (t + 1) 2 (.fwdDesc t)
  let x := if aanx then sched x pre0 2 (.fwdPre t 0) else x
  if idle then sched x s 2 (.fwdVec t 0) else x

/-! ### Draining -/

/-- R154: FCVT reads its descriptor. -/
def convDescRead (d : Dev) (c : Nat) : Res Dev := do
  match (cellOf d c).conv with
  | none => pure d
  | some r =>
    if !r.fcvt then pure d
    else
      let (x, d) := readDesc d c r.desc
      let f ← fwdFmt x
      if !geomOk x 1 then throw .geometry
      let s := descScales d x
      let b := baroCfg d x.baro
      let pool := poolOf f b
      pure (modCell d c fun y =>
        { y with conv := some { r with d := some x, texp := s.1, taexp := s.2, theta := b.theta, pool := pool, annexOn := pool != 0 } })

/-- The pool entries of tile row `ti` so far. -/
def poolOfTile (r : ConvRun) (ti : Nat) : List Nat := ((r.pools.find? fun p => p.1 == ti).map (·.2)).getD []

/-- Replaces the pool entries of tile row `ti`. -/
def setPoolTile (r : ConvRun) (ti : Nat) (l : List Nat) : ConvRun := { r with pools := (r.pools.filter fun p => p.1 != ti) ++ [(ti, l)] }

/-- R154: the stores of one converted row: the codes of the columns below COLS, and the banks of the whole row. -/
def rowStore (x : Desc) (f : Fmt) (tok c0 : Nat) (codes : List Nat) : List (Nat × Byte) × List Nat :=
  let off := x.base + tok * x.pitch + c0 * fmtBits f / 8
  let live := codes.take (x.cols - c0)
  let n := live.length * fmtBits f / 8
  (atOff off ((packCodes (fmtBits f) live).take n), banksOf off (codes.length * fmtBits f / 8))

/-- R154, R311: where COLS is odd, the last 4-bit element of a row has its byte's low half; the other half, of column COLS, is not written. -/
def rowTail (x : Desc) (f : Fmt) (tok c0 : Nat) (codes : List Nat) : Option (Nat × Nat) :=
  let n := min codes.length (x.cols - c0)
  if fmtBits f = 4 ∧ n % 2 = 1 then some (x.base + tok * x.pitch + (c0 + n - 1) / 2, codes.getD (n - 1) 0) else none

/-- The stores of one converted row fall due at an edge, with further bytes written in the same CCLK. -/
def schedRow (y : Cell) (at_ : Nat) (x : Desc) (f : Fmt) (tok c0 : Nat) (codes : List Nat) (more : List (Nat × Byte)) (banks : List Nat) : Cell :=
  let st := rowStore x f tok c0 codes
  let y := sched y at_ 1 (.store (st.1 ++ more) (st.2 ++ banks))
  match rowTail x f tok c0 codes with
  | some t => sched y at_ 1 (.storeLow t.1 t.2)
  | none => y

/-- A byte of the folio store whose low half alone is written. -/
def storeLow (d : Dev) (c off code : Nat) : Res Dev :=
  let a := folioAddr c off
  if uncovered d c true a 1 then .error .uncoveredDma
  else .ok (wrL d [(a, BitVec.ofNat 8 ((rdB d a).toNat / 16 * 16 + code % 16))])

/-- The value an observed F4, I4 or A8 element takes in the survey: an annex marker takes its entry's value (R552). -/
def convSurvey (f : Fmt) (texp taexp : Int) (tok c0 : Nat) (codes scales : List Nat) (entries : List Nat) :
    List (Nat × Nat × Val × Nat) :=
  (codes.zip scales).zipIdx.map fun ((code, eb), i) =>
    let col := c0 + i
    let v := match decodeCode f code with
      | .marker =>
        (match entries.find? fun w => fld w 14 8 == tok % 128 && fld w 7 0 == col % 256 with
         | some w => p32Round (scaleVal (decodeCode .a8 (fld w 31 24)) taexp)
         | none => .fin false 0 0)
      | _ => p32Round (elemVal f code eb ((eb : Int) - 127 + texp))
    (tok, col, v, srvBits (fmtCode f) code eb)

/-- R116, R102: what one conversion counts and observes. -/
def convCounts (d : Dev) (c : Nat) (x : Desc) (o : ConvOut) (ovf sat : Nat) (vs : List W32) : Dev :=
  let d := descGauges d c x [(gAnnexOvf, ovf), (gNanOut, o.nans), (gNarrowSat, o.overflow + sat)]
  if x.serve then d else observe d c x.baro 0 (maxFinite vs)

/-- R154, R155: row `i` of an FCVT is read; a row in row direction, or the last row of a group in column direction, is converted. Rows past 127 wrap, and rows
of two annex tiles write both pools in one CCLK. DESIGN CHOICE (log entry 36). -/
def fcvtRow (d : Dev) (c e i : Nat) : Res Dev := do
  match (cellOf d c).conv with
  | none => pure d
  | some r => match r.d with
  | none => pure d
  | some x =>
    let f ← fwdFmt x
    let tok := r.tok + i
    let bank := if r.bank then 1 else 0
    let row := (r.row + i) % 128
    let (old, d) := stateRow d c .acc bank (256 * row) r.width (accRow (cellOf d c) bank row)
    let w := old.take r.width
    let vals : List (Option Val) := w.zipIdx.map fun (v, k) => if r.c0 + k < x.cols then some (p32Val v) else none
    let live := w.take (x.cols - r.c0)
    let last := decide (i + 1 = r.cnt)
    let more (y : Cell) : Cell := if last then y else sched y (e + 1) 2 (.fcvtRow (i + 1))
    let acfg : Option AnnexCfg := if r.annexOn then some { theta := r.theta, pool := r.pool, texp := r.texp, taexp := r.taexp } else none
    let tile (k : Nat) : Nat := k / 128
    let poolDue (y : Cell) (r : ConvRun) (at_ : Nat) : Cell :=
      if r.annexOn then
        r.pools.foldl (fun y p =>
          let off := poolAddr x r.pool p.1 (r.c0 / 256)
          if r.bad.contains p.1 then sched y at_ 1 (.unspec ((List.range (poolStride r.pool)).map fun b => (off + b) % folioSize))
          else
            let bs := (p.2.flatMap (leBytes 4)) ++ List.replicate (poolStride r.pool - 4 * p.2.length) 0
            sched y at_ 1 (.store (atOff off bs) (banksOf off (poolStride r.pool)))) y
      else y
    if !x.bdir then
      let o := convRow f x.bsize acfg r.texp (tok % 128) (r.c0 % 256) vals { entries := poolOfTile r (tile tok), ovf := 0, sat := 0 }
      let d := convCounts d c x o o.sel.ovf o.sel.sat live
      let sc := (o.scales.headD []).take ((x.cols - r.c0) / x.bsize)
      let codes := o.codes.headD []
      let scols := (o.scales.headD []).flatMap fun s => List.replicate x.bsize s
      let d := surveyRun d (cellOf d c).visiting 0 x (convSurvey f r.texp r.taexp tok r.c0 codes scols o.sel.entries)
      let soff := scaleAddr x 1 tok r.c0
      let r := if r.annexOn then setPoolTile r (tile tok) o.sel.entries else r
      pure (modCell d c fun y =>
        let y := { y with conv := some r }
        let y := schedRow y (e + 4) x f tok r.c0 codes (atOff soff (sc.map fun s => BitVec.ofNat 8 s)) (banksOf soff 1)
        let y := if last then poolDue y r (e + 5) else y
        more y)
    else
      let r := { r with rows := r.rows ++ [vals] }
      let b := x.bsize
      let d := convCounts d c x { codes := [], scales := [], sel := { entries := [], ovf := 0, sat := 0 }, overflow := 0, nans := 0 } 0 0 live
      let n := r.rows.length
      let g0 := tok / b * b
      -- R154, R298: the open group is the one in which the FCVT started, not at its first row
      let broken := decide (i + 1 = n ∧ r.tok % b ≠ 0)
      if (tok + 1) % b ≠ 0 ∧ !(last && broken) then
        -- rows of a group whose last row this FCVT does not read are not converted; the pool follows the last row that is written
        pure (modCell d c fun y =>
          let y := { y with conv := some r }
          let y := if last ∧ 0 < i + 1 - n then poolDue y r (e - (n - 1) + 3 + b) else y
          more y)
      else
        let t4 := e - (n - 1) + 3 + b      -- the edge in which the group's first row is written: t + 4 + b + its number
        if broken then
          let rowOff (k : Nat) : Nat := x.base + (g0 + k) * x.pitch + r.c0 * fmtBits f / 8
          let span := min r.width (x.cols - r.c0)
          let addrs := (List.range b).flatMap fun k => (List.range ((span * fmtBits f + 7) / 8)).map fun j => (rowOff k + j) % folioSize
          let sadd := (List.range span).map fun j => (scaleAddr x 1 g0 r.c0 + j) % folioSize
          let r := { r with rows := [], bad := r.bad ++ [tile g0] }
          let r := if r.annexOn then setPoolTile r (tile g0) (poolOfTile r (tile g0)) else r
          pure (modCell d c fun y =>
            let y := { y with conv := some r }
            let y := sched y (e + 4) 1 (.unspec (addrs ++ sadd))
            let y := if last then poolDue y r (e + 5) else y
            more y)
        else
          let o := convGroup f acfg r.texp (g0 % 128) (r.c0 % 256) r.rows { entries := poolOfTile r (tile g0), ovf := 0, sat := 0 }
          let d := descGauges d c x [(gAnnexOvf, o.sel.ovf), (gNanOut, o.nans), (gNarrowSat, o.overflow + o.sel.sat)]
          let scl := o.scales.headD []
          let d := (o.codes.zipIdx).foldl (fun d p =>
            surveyRun d (cellOf d c).visiting 0 x (convSurvey f r.texp r.taexp (g0 + p.2) r.c0 p.1 scl o.sel.entries)) d
          let soff := scaleAddr x 1 g0 r.c0
          let sst := atOff soff ((scl.take (x.cols - r.c0)).map fun s => BitVec.ofNat 8 s)
          let r := if r.annexOn then setPoolTile { r with rows := [] } (tile g0) o.sel.entries else { r with rows := [] }
          pure (modCell d c fun y =>
            let y := { y with conv := some r }
            let y := (o.codes.zipIdx).foldl (fun y p =>
              if p.2 = 0 then schedRow y t4 x f g0 r.c0 p.1 sst (banksOf soff r.width) else schedRow y (t4 + p.2) x f (g0 + p.2) r.c0 p.1 [] []) y
            let y := if last then poolDue y r (t4 + b) else y
            more y)

/-- R156, R161: row `i` of an FDRAIN is read; its halves are written in the two CCLK that follow. Rows past 127 wrap. DESIGN CHOICE (log entry 36). -/
def fdrainRow (d : Dev) (c e i : Nat) : Dev :=
  match (cellOf d c).conv with
  | none => d
  | some r =>
    let bank := if r.bank then 1 else 0
    let row := (r.row + i) % 128
    let w := stateRow d c .acc bank (256 * row) 256 (accRow (cellOf d c) bank row)
    modCell w.2 c fun y =>
      let bs := w.1.flatMap fun v => leBytes 4 v.toNat
      let off := r.addr + 1024 * i
      let y := sched y (e + 1) 1 (.store (atOff off (bs.take 512)) (banksOf off 512))
      let y := sched y (e + 2) 1 (.store (atOff (off + 512) (bs.drop 512)) (banksOf (off + 512) 512))
      if i + 1 < r.cnt then sched y (e + 2) 2 (.fdrainRow (i + 1)) else y

/-- R157: the converter has read its last row and is free. -/
def convFree (d : Dev) (c : Nat) : Dev := modCell d c fun x => { x with conv := none }

/-- R154: FCVT issued at `t`. -/
def issueFcvt (x : Cell) (t desc tok c0 row cnt : Nat) (bank w128 : Bool) : Cell :=
  let r : ConvRun := { t := t, fcvt := true, desc := desc, tok := tok, c0 := c0, row := row, cnt := cnt, bank := bank
                       width := if w128 then 128 else 256, addr := 0, d := none, texp := 0, taexp := 0, theta := 0xFF, pool := 0
                       annexOn := false, rows := [], pools := [], bad := [] }
  let x := sched { x with conv := some r } (t + 1) 2 .convDesc
  sched (sched x (t + 1) 2 (.fcvtRow 0)) (t + cnt + 1) 0 .convDone

/-- R156: FDRAIN issued at `t`; its last row is read at t + 1 + 2 (cnt − 1). -/
def issueFdrain (x : Cell) (t addr row cnt : Nat) (bank : Bool) : Cell :=
  let r : ConvRun := { t := t, fcvt := false, desc := 0, tok := 0, c0 := 0, row := row, cnt := cnt, bank := bank, width := 256, addr := addr
                       d := none, texp := 0, taexp := 0, theta := 0xFF, pool := 0, annexOn := false, rows := [], pools := [], bad := [] }
  sched (sched { x with conv := some r } (t + 1) 2 (.fdrainRow 0)) (t + 2 * cnt) 0 .convDone

/-! ### Hold points (R133, R134, R137, R157) -/

/-- Can the forward slot's operation issue now? -/
def fwdReady (x : Cell) : FwdOp → Bool
  | .fnop => true
  | .pload _ _ _ => x.pload.isNone
  | .pswap => x.fwdCur.isNone && x.fwdPend.isNone && x.pload.isNone
  | .fwd _ _ _ _ _ _ => x.fwdPend.isNone
  | .fcvt _ _ _ _ _ => x.conv.isNone
  | .fdrain _ _ _ => x.conv.isNone

/-- R256: the operation begins at edge `t`, its scalar operands read in the issue CCLK. -/
def issueForward (x : Cell) (t : Nat) : FwdOp → Cell
  | .fnop => x
  | .pload desc a vs =>
    let v := (sGet x a).toNat
    sched (sched { x with pload := none } (t + 1) 2 (.pload desc (fld v 15 0) (fld v 31 16) vs)) (t + 73) 0 .ploadDone
  | .pswap => { x with plAct := !x.plAct }
  | .fwd desc a cnt bank clr aanx =>
    let v := (sGet x a).toNat
    issueFwd x t desc (fld v 31 0) (fld v 47 32) (fld v 54 48) cnt bank clr aanx
  | .fcvt desc a cnt bank w128 =>
    let v := (sGet x a).toNat
    issueFcvt x t desc (fld v 31 0) (128 * fld v 47 32) (fld v 54 48) cnt bank w128
  | .fdrain a cnt bank =>
    let v := (sGet x a).toNat
    issueFdrain x t (fld v 21 6 * 64) (fld v 54 48) cnt bank

end Sys2Proof.Machine
end

