-- ==== Sys2Proof/Machine/Backward.lean ====
section
/-! DEFINITION. The backward pair of a cell (05_backward_pair.md): the effects of BLDW, BLDX, BLDY, BSWAP, BWD, LFILL, LDRAIN and DWACC at the
edges R185–R197 give them, and the array exception record (R179, R180). Each effect takes the device, the cell and the edge at which it falls
due. -/
namespace Sys2Proof.Machine

/-! ### The array exception record -/

/-- What RDSTAMP reads (R246, R355): the running step's stamp, or LAST. -/
def readStamp (d : Dev) : Nat := if inStep d then stStamp d else stLast d

/-- R180: is (edge, unit, row, column, block) earlier than the first occurrence that the record holds? -/
def bpxEarlier (r : BpxRec) (edge unit row col blk : Nat) : Bool :=
  !r.valid || decide (edge < r.firstEdge) || (edge == r.firstEdge && (decide (unit < r.unit) || (unit == r.unit
    && (decide (row < r.row) || (row == r.row && (decide (col < r.col) || (col == r.col && decide (blk < r.block))))))))

/-- R179, R180, R367: `n` invalid products of one site, the first of them formed at `edge`. -/
def bpxEvent (d : Dev) (c edge unit row col blk tid n : Nat) : Dev :=
  let x := cellOf d c
  if n = 0 ∨ x.visiting then d
  else
    let r := x.bpx
    let r1 := { r with count := satAdd 32 r.count n }
    let r2 := if bpxEarlier r edge unit row col blk then
        { r1 with valid := true, unit := unit, tid := tid % 65536, block := blk, row := row, col := col, stamp := readStamp d, firstEdge := edge }
      else r1
    putCell d c { x with bpx := r2 }

/-! ### Image loads -/

/-- R164: the formats of weight and input images. -/
def imageFmt (x : Desc) : Res Fmt :=
  match fmtOfCode x.fmt with
  | some .g16 => .ok .g16
  | some .g8 => .ok .g8
  | some .a8 => .ok .a8
  | some .f4 => .ok .f4
  | some .i4 => .ok .i4
  | _ => .error .format

/-- The load in progress: BLDW, or BLDX when `x` holds. -/
def bldOf (y : Cell) (x : Bool) : Option BldRun := if x then y.bldx else y.bldw
/-- Sets the load in progress. -/
def bldPut (y : Cell) (x : Bool) (r : Option BldRun) : Cell := if x then { y with bldx := r } else { y with bldw := r }

/-- R185, CCLK t + 1: the load reads its descriptor, its scales (R172), the strip and the pool copy (R168). It uses the ports of both in every format (R195). -/
def bldStart (d : Dev) (c e : Nat) (x : Bool) : Res Dev := do
  match bldOf (cellOf d c) x with
  | none => pure d
  | some r =>
    let (t, d) := readDesc d c r.desc
    let f ← imageFmt t
    if f != .g16 && !kBlocked t (!x) then throw .geometry
    if !x && r.snap then retained d c r.vslot
    let d := if !x && r.snap then eccTouch d (baroAddr d t.baro) 256 else d
    let s := if !x && r.snap then snapScales d t.baro r.vslot else let q := scalesOf d t.baro; (q.texp, q.taexp)
    let n := if f == .f4 || f == .i4 then 384 else if f == .g16 then 0 else 128
    checkCover d c false r.addr n
    let d ← usePorts d c e (banksOf r.addr 384)
    let (bs, d) := readFolio d c r.addr n
    let np := poolOf f (baroCfg d t.baro)
    let r := { r with d := some t, texp := s.1, taexp := s.2, strip := bs.take 128, poolBytes := (bs.drop 128).take (4 * np) }
    pure (modCell d c fun y => sched (bldPut y x (some r)) (e + 1) 2 (.bldRows x 0))

/-- R185, CCLK t + 2 to t + 33: two image rows each. -/
def bldRows (d : Dev) (c e : Nat) (x : Bool) (k : Nat) : Res Dev := do
  match bldOf (cellOf d c) x with
  | none => pure d
  | some r => match r.d with
  | none => pure d
  | some t =>
    let f ← imageFmt t
    let rb := 8 * fmtBits f
    let (bs, d) ← readPorts d c e (r.addr + 0x180 + 2 * k * rb) (2 * rb)
    pure (modCell d c fun y =>
      let y := bldPut y x (some { r with rows := r.rows ++ bs })
      if k < 31 then sched y (e + 1) 2 (.bldRows x (k + 1)) else y)

/-- R168: strip byte of element (m, i) of an image; `x` tells an input image. -/
def stripByte (x : Bool) (strip : List Byte) (m i : Nat) : Nat :=
  (strip.getD (if x then 2 * i + m / 32 else 64 * (i / 32) + m) 0).toNat

/-- R174: binds pool entries in order: an entry replaces the marker it names. Elements whose strip byte is 0xFF stay as R79 decodes them. -/
def bindEntries (x : Bool) (f : Fmt) (r : BldRun) (codes : List (List Nat)) (img : List (List Val)) : List (List Val) :=
  let ents := poolEntries r.poolBytes
  img.zipIdx.map fun (row, m) => row.zipIdx.map fun (v, i) =>
    if isMarker f ((codes.getD m []).getD i 0) && stripByte x r.strip m i != 0xFF then
      match ents.find? fun w => fld w 14 8 == 64 * r.rh + i && fld w 7 0 == 64 * r.cq + m with
      | some w => annexForm (fld w 31 24) r.taexp
      | none => v
    else v

/-- R170–R174: the image a finished load has decoded, row by row. -/
def imageOf (x : Bool) (f : Fmt) (r : BldRun) : List (List Val) :=
  let codes := (chunksOf (8 * fmtBits f) 64 r.rows).map (unpackCodes (fmtBits f))
  let img := codes.zipIdx.map fun (row, m) => row.zipIdx.map fun (cd, i) => commonForm f cd (stripByte x r.strip m i) r.texp
  if f == .f4 || f == .i4 then bindEntries x f r codes img else img

/-- R188: both buffers are ready; the scan runs in this CCLK and the 15 that follow. -/
def startScan (y : Cell) (e : Nat) : Cell :=
  if y.bldx.isNone && y.bldy.isNone then sched y (e + 16) 0 .pairScan else y

/-- R185: the inactive buffer is ready. -/
def bldDone (d : Dev) (c e : Nat) (x : Bool) : Res Dev := do
  match bldOf (cellOf d c) x with
  | none => pure d
  | some r => match r.d with
  | none => pure d
  | some t =>
    let f ← imageFmt t
    let img := (imageOf x f r).zipIdx
    pure (modCell d c fun y =>
      if x then
        let b := if y.xyAct then 0 else 1
        startScan (img.foldl (fun y p => rxSet y b p.2 p.1) { stateClean y .rx b (fun _ => true) with bldx := none }) e
      else
        let b := if y.lwAct then 0 else 1
        img.foldl (fun y p => lwSet y b p.2 p.1) { stateClean y .lw b (fun _ => true) with bldw := none })

/-! ### BLDY and the pair scan -/

/-- R186: row and column of the element at folio offset `off` of a tensor whose elements have `bits` bits; none below BASE. -/
def folioPos (x : Desc) (bits off : Nat) : Option (Nat × Nat) :=
  let b := x.base % folioSize
  if off < b ∨ x.pitch = 0 then none else some ((off - b) / x.pitch, (off - b) % x.pitch * 8 / bits)

/-- Width in bytes of a scale entry: a side word for B16, an E8 byte for the scaled formats, none for the others (R81, R98). -/
def scaleWidth : Fmt → Nat
  | .b16 => 2
  | .a8 | .g8 | .v8 | .f4 | .i4 => 1
  | _ => 0

/-- R90, R98: the block scales (side words for B16) of elements `col` to `col + n - 1` of row `r`. An element that takes part (`on`) and whose scale R98 does
not place is case 9 of R297; the others read no scale. -/
def rowScales (d : Dev) (c : Nat) (x : Desc) (f : Fmt) (r col n : Nat) (on : Nat → Bool) : Res (List Nat × Dev) := do
  let w := scaleWidth f
  if w = 0 then pure (List.replicate n 0x7F, d)
  else if x.bsize = 0 ∨ (List.range n).any (fun i => on i && !scalePlaced x r (col + i)) then throw .geometry
  else
    let at_ := (List.range n).filter fun i => scalePlaced x r (col + i)
    let (l, d) ← readScales d c w (at_.map fun i => scaleAddr x w r (col + i))
    pure (l ++ List.replicate (n - l.length) 0, d)

/-- R80: the blocks of 32 whose residue is wrong among the B16 elements from column `col` on; `sw` are their side words. Only a block that the elements hold
whole, and that R98 places, can be checked. -/
def b16Wrong (x : Desc) (r col : Nat) (codes sw : List Nat) : List Nat :=
  let off := (32 - col % 32) % 32
  (List.range ((codes.length - off) / 32)).filter fun k =>
    let i := off + 32 * k
    scalePlaced x r (col + i) && b16Residue ((codes.drop i).take 32) != sw.getD i 0 / 256

/-- R71, R78, R90: an element of a tensor as a value, from its code and its scale entry. I32 is read as an integer. DESIGN CHOICE (log entry 41). -/
def tensorVal (f : Fmt) (code sw : Nat) (texp : Int) : Val :=
  match f with
  | .p32 => decodeCode .p32 code
  | .i32 => decodeCode .i32 code
  | .g16 => flushVal (decodeCode .g16 code)
  | .b16 => p32Val (b16ToP32 code (sw % 256))
  | f => flushVal (elemVal f code sw ((sw : Int) - 127 + texp))

/-- R186, CCLK t + 1: BLDY reads its two descriptors; FN 0 reads no saved output. -/
def bldyStart (d : Dev) (c e : Nat) : Res Dev := do
  match (cellOf d c).bldy with
  | none => pure d
  | some r =>
    let (x, d) := readDesc d c r.desc
    if fmtOfCode x.fmt != some .g16 then throw .format
    let (y, d) := readDesc d c ((r.desc + 1) % 256)
    if r.fn != 0 && (fmtOfCode y.fmt).isNone then throw .format
    let r := { r with d := some x, ds := some y, texp := (descScales d y).1 }
    pure (modCell d c fun z => sched { z with bldy := some r } e 2 (.bldyRows 0))

/-- R195: the bank ports of one saved-output row: one to four for two rows, whatever the format. DESIGN CHOICE (log entry 38). -/
def savedPorts (off bits : Nat) : List Nat := (banksOf off (8 * bits)).take 2

/-- R186: the element that the saved-output address names; none below BASE. A format without scales needs no position where PITCH is 0. -/
def savedPos (y : Desc) (f : Fmt) (a : Nat) : Option (Nat × Nat) :=
  if y.pitch = 0 ∧ scaleWidth f = 0 ∧ y.base % folioSize ≤ a then some (0, 0) else folioPos y (fmtBits f) a

/-- A saved-output row as P32 values, with the columns whose B16 block has a wrong residue (R80, R186). DESIGN CHOICE (log entries 38, 41). -/
def savedRow (d : Dev) (c e i : Nat) (r : BldyRun) (y : Desc) (first : Bool) : Res ((List W32 × List Nat) × Dev) := do
  let f := (fmtOfCode y.fmt).getD .g16
  let bits := fmtBits f
  let off := r.saved + i * y.pitch
  checkCover d c false off (8 * bits)
  let d ← usePorts d c e (savedPorts off bits)
  let (yb, d) := readFolio d c off (8 * bits)
  match savedPos y f r.saved with
  | none => throw .geometry
  | some (r0, c0) =>
    let (sc, d) ← rowScales d c y f (r0 + i) c0 64 (fun _ => true)
    let d ← if first && scaleWidth f != 0 then usePorts d c e (banksOf (scaleAddr y (scaleWidth f) (r0 + i) c0) 1) else pure d
    let codes := unpackCodes bits yb
    let off32 := (32 - c0 % 32) % 32
    let bad := if f == .b16 then (b16Wrong y (r0 + i) c0 codes sc).flatMap fun k => (List.range 32).map (off32 + 32 * k + ·) else []
    let d := match bad with | [] => d | b :: _ => residueFault d c 8 (folioAddr c (off + 2 * b)) r.tid
    pure (((codes.zip sc).map fun p => p32Enc (tensorVal f p.1 p.2 r.texp), bad), d)

/-- Codes at the places named take unspecified values (R199). -/
def freeCodes : List Nat → List Nat → Dev → List Nat × Dev
  | [], l, d => (l, d)
  | i :: t, l, d => let r := drawWord d; freeCodes t (l.set i (r.1.toNat % 65536)) r.2

/-- R182: gradient row `i` through the derivative unit: results, and the device with the row's events counted (R180, R183). The
invalid products of a row are formed in the CCLK that writes it, `e + 5`. A failed check leaves the element unspecified (R199). -/
def bldyRow (d : Dev) (c e i : Nat) (r : BldyRun) (x y : Desc) (first : Bool) : Res (List Nat × Dev) := do
  let (gb, d) ← readPorts d c e (r.addr + i * x.pitch) 128
  let gs := unpackCodes 16 gb
  let ((ys, wrong), d) ← (if r.fn = 0 then pure ((List.replicate 64 (0 : W32), []), d) else savedRow d c e i r y first)
  let mine := (cellOf d c).slips.filter fun s => s.sub == 5
  let d := if mine.isEmpty then d else modCell d c fun z => { z with slips := z.slips.filter fun s => s.sub != 5 }
  let os := (gs.zip ys).zipIdx.map fun (p, n) => derivative r.fn p.1 p.2 r.p0 r.p1 (slipSum mine fun s => s.col == n)
  let n (p : DerivOut → Bool) : Nat := (os.filter p).length
  let d := descGauges d c x [(gG16Inf, n (·.inf)), (gNanOut, n (·.nan)), (gInvalid, n (·.invalid))]
  let evs := (os.zipIdx.filter fun p => p.1.invalid).map fun p => (i, p.2, 0, 1)
  let d := if evs.isEmpty then d else modCell d c fun z => sched z (e + 5) 0 (.invalids 2 0 r.tid evs)
  let d := if os.any (·.bad) then residueFault d c 5 0 r.tid else d
  pure (freeCodes ((os.zipIdx.filter fun p => p.1.bad || wrong.contains p.2).map (·.2)) (os.map (·.code)) d)

/-- R186: CCLK `k` of BLDY's reads: two rows each, or one row every second CCLK with FN 5. -/
def bldyRows (d : Dev) (c e k : Nat) : Res Dev := do
  match (cellOf d c).bldy with
  | none => pure d
  | some r => match r.d, r.ds with
  | some x, some y =>
    if r.fn = 5 then
      let (a, d) ← bldyRow d c e k r x y true
      pure (modCell d c fun z =>
        let z := { z with bldy := some { r with codes := r.codes ++ a } }
        if k < 63 then sched z (e + 2) 2 (.bldyRows (k + 1)) else z)
    else
      let (a, d) ← bldyRow d c e (2 * k) r x y true
      let (b, d) ← bldyRow d c e (2 * k + 1) r x y false
      pure (modCell d c fun z =>
        let z := { z with bldy := some { r with codes := r.codes ++ a ++ b } }
        if k < 31 then sched z (e + 1) 2 (.bldyRows (k + 1)) else z)
  | _, _ => pure d

/-- R186: the inactive gradient buffer is ready. -/
def bldyDone (d : Dev) (c e : Nat) : Dev :=
  modCell d c fun y =>
    match y.bldy with
    | none => y
    | some r =>
      let b := if y.xyAct then 0 else 1
      startScan ((chunksOf 64 64 r.codes).zipIdx.foldl (fun y p => dySet y b p.2 p.1) { stateClean y .dy b (fun _ => true) with bldy := none }) e

/-- R175, R188: the alignment exponents of the sites (k, n) for token block `b`: row k of the answer holds the 64 sites n. -/
def alignRows (dy rx : List (List Val)) (b : Nat) : List (List (Option Int)) :=
  let rows := (dy.drop (32 * b)).take 32
  let cols := (List.range 64).map (columnOf zeroElem rows)
  rx.map fun xr => cols.map fun g => pairEmax (((xr.drop (32 * b)).take 32).zip g)

/-- R188: the scan has filled the exponent table of instance `i` from the buffers of that instance. -/
def scanTable (y : Cell) (i : Nat) : Cell :=
  let dy := (List.range 64).map fun t => (dyRow y i t).map (decodeCode .g16)
  let rx := (List.range 64).map (rxRow y i)
  [0, 1].foldl (fun y b => (alignRows dy rx b).zipIdx.foldl (fun y p => etabSet y i b p.2 p.1) y) y

/-- R188: the scan has read the inactive buffers and filled the inactive exponent table; the pair is ready. -/
def pairScanned (d : Dev) (c : Nat) : Dev :=
  let i := if (cellOf d c).xyAct then 0 else 1
  let d := (stateEcc (stateEcc d c .dy i fun _ => true).2 c .rx i fun _ => true).2
  modCell d c fun y => { scanTable y i with pairReady := true }

/-- R188: a load into RX or DY starts: a scan under way is abandoned. -/
def abandonScan (y : Cell) : Cell :=
  { dropDue y (fun m => match m with | .pairScan => true | _ => false) with pairReady := false }

/-! ### Streaming -/

/-- R176, R177: the two blocks of each of the 64 left-array columns for one gradient row. -/
def leftRow (slips : List Slip) (dy : List Val) (img : List (List Val)) : List (BwdOut × BwdOut) :=
  (List.range 64).map fun k =>
    let ps := dy.zip (columnOf zeroElem img k)
    let mine (b : Nat) : List Slip := slips.filter fun s => s.col == k && s.blk == b
    (bwdBlock (mine 0) (ps.take 32), bwdBlock (mine 1) (ps.drop 32))

/-- R163, R175, R177: the blocks of the right array for 32 gradient rows and the matching columns of the input image, under the exponents of the table; a slip
names its site as column 64 k + n. -/
def rightBlock (slips : List Slip) (b : Nat) (rows : List (List Val)) (img : List (List Val)) (tab : Nat → List (Option Int)) : List (List BwdOut) :=
  let cols := (List.range 64).map (columnOf zeroElem rows)
  img.zipIdx.map fun (xr, k) => (cols.zip (tab k)).zipIdx.map fun (g, n) =>
    bwdBlockAt (slips.filter fun s => s.col == 64 * k + n && s.blk == b) g.2 (((xr.drop (32 * b)).take 32).zip g.1)

/-- A row of the active gradient buffer in the common form (R171). -/
def dyVals (y : Cell) (i : Nat) : List Val := (dyRow y (if y.xyAct then 1 else 0) i).map (decodeCode .g16)

/-- Adds to the invalid count of a bank (R178). -/
def addCount (t : Tab Nat) (b n : Nat) : Tab Nat := tabPut (fun _ => 0) t b (satAdd 32 (tabGet (fun _ => 0) t b) n)

/-- R178, R179: invalid products (row, column, block, number) of a unit are formed at edge `e`. -/
def invalidsFormed (d : Dev) (c e unit bank tid : Nat) (evs : List (Nat × Nat × Nat × Nat)) : Dev :=
  let n := (evs.map fun v => v.2.2.2).sum
  let d := evs.foldl (fun d v => bpxEvent d c e unit v.1 v.2.1 v.2.2.1 tid v.2.2.2) d
  modCell d c fun y =>
    if unit = 0 then { y with linv := addCount y.linv bank n } else if unit = 1 then { y with rinv := addCount y.rinv bank n } else y

/-- The invalid products that fall due, if there are any. -/
def schedInvalids (y : Cell) (e unit bank tid : Nat) (evs : List (Nat × Nat × Nat × Nat)) : Cell :=
  if evs.isEmpty then y else sched y e 0 (.invalids unit bank tid evs)

/-- The slips of the left (part 0) or right array (part 1), taken out of the cell. -/
def takeSlips (y : Cell) (part : Nat) : List Slip × Cell :=
  let p (s : Slip) : Bool := (s.sub == 3 || s.sub == 4) && s.part == part
  (y.slips.filter p, if y.slips.any p then { y with slips := y.slips.filter fun s => !p s } else y)

/-- R191, left array: row `i`, which entered at `e`; `lost` says that its gradient row held a word with a double-bit error. A failed check, or a lost operand,
leaves the LACC entries that it feeds unspecified (R166, R199). -/
def leftEnter (d : Dev) (c e i : Nat) (r : BwdRun) (lost : Bool) : Dev :=
  let buf := if (cellOf d c).lwAct then 1 else 0
  let g := stateEcc d c .lw buf fun _ => true
  let bank := if r.lb then 1 else 0
  modCell g.2 c fun y =>
    let (mine, y) := takeSlips y 0
    let vs := leftRow mine (dyVals y i) ((List.range 64).map (lwRow y buf))
    let evs := (vs.zipIdx.flatMap fun p => [(i, p.2, 0, p.1.1.inv), (i, p.2, 1, p.1.2.inv)]).filter fun v => v.2.2.2 != 0
    let y := schedInvalids y (e + 1) 0 bank r.tid evs
    let y := sched y (e + 9) 2 (.laccAdd bank i r.clrl (vs.map fun p => (p.1.value, p.2.value)))
    let bads := vs.map fun p => p.1.bad.orElse fun _ => p.2.bad
    let y := match bads.findSome? id with | some s => sched y (e + 7) 0 (.residue s r.tid) | none => y
    let cols := (List.range 64).filter fun k => lost || (bads.getD k none).isSome || g.1.any fun w => w % 64 == k
    if cols.isEmpty then y else sched y (e + 14) 1 (.laccFree bank i cols)

/-- R191, right array: the products of row `i` are formed; after row 31 and row 63 a token block closes. `lostN` are the columns n whose gradient code was lost
to a double-bit error. -/
def rightEnter (d : Dev) (c e i : Nat) (r : BwdRun) (lostN : List Nat) : Dev :=
  let act := if (cellOf d c).xyAct then 1 else 0
  let g := stateEcc d c .rx act fun w => w % 64 == i
  let bank := if r.rb then 1 else 0
  let b := i / 32
  modCell g.2 c fun y =>
    let img := (List.range 64).map (rxRow y act)
    let row := dyVals y i
    let col := columnOf zeroElem img i
    let inf (v : Val) : Bool := match v with | .inf _ => true | _ => false
    let evs := if row.any inf || col.any inf then
        col.zipIdx.flatMap fun (x, k) => (row.zipIdx.filter fun g => invalidProd x g.1).map fun g => (k, g.2, b, 1)
      else []
    let y := schedInvalids y (e + 1) 1 bank r.tid evs
    let close := e + (31 - i % 32)
    let lost := (g.1.flatMap fun w => (List.range 64).map (64 * (w / 64) + ·)) ++ lostN.flatMap fun n => (List.range 64).map (64 * · + n)
    let y := if lost.isEmpty then y else sched y (close + 10) 1 (.raccFree bank lost)
    if i % 32 ≠ 31 then y
    else
      let (mine, y) := takeSlips y 1
      let vs := rightBlock mine b ((List.range 32).map fun j => dyVals y (32 * b + j)) img (etabRow y act b)
      let y := sched y (e + 10) 0 (.raccAdd bank (r.clrr && b == 0) (vs.map fun l => l.map (·.value)))
      let bads := vs.flatten.zipIdx.filter fun p => p.1.bad.isSome
      match bads with
      | [] => y
      | q :: _ => sched (sched y (e + 4) 0 (.residue (q.1.bad.getD 4) r.tid)) (e + 10) 1 (.raccFree bank (bads.map (·.2)))

/-- R189–R191: row `i` of the BWD issued at `t` enters. -/
def bwdRow (d : Dev) (c e t i : Nat) : Dev :=
  match (cellOf d c).bwdCur with
  | none => d
  | some r =>
    if r.t ≠ t then d
    else
      let d := if counting d then modCell d c fun y => { y with nBwd := y.nBwd + 1 } else d
      let g := stateEcc d c .dy (if (cellOf d c).xyAct then 1 else 0) fun w => w / 32 == i
      let d := if r.l then leftEnter g.2 c e i r (!g.1.isEmpty) else g.2
      let d := if r.r then rightEnter d c e i r (g.1.flatMap fun w => [2 * (w % 32), 2 * (w % 32) + 1]) else d
      modCell d c fun y => if i < 63 then sched y (e + 1) 2 (.bwdRow t (i + 1)) else sched y (e + 1) 0 .bwdPendStart

/-- R190: the last row of the current BWD has entered; a pending BWD starts streaming. -/
def bwdNext (d : Dev) (c e : Nat) : Dev :=
  modCell d c fun y =>
    match y.bwdPend with
    | none => { y with bwdCur := none }
    | some r => sched { y with bwdCur := some { r with start := some e }, bwdPend := none } e 2 (.bwdRow r.t 0)

/-- R176, R191: blocks 0 and 1 are added to an LACC row; the row is visible five CCLK later. With CLRL the old entries are not read. -/
def laccAdd (d : Dev) (c e bank row : Nat) (clr : Bool) (cols : List (W32 × W32)) : Dev :=
  let old := laccRow (cellOf d c) bank row
  let r := if clr then (old, d) else stateRow d c .lacc bank (64 * row) 64 old
  modCell r.2 c fun y => sched y (e + 5) 0 (.laccSet bank row (r.1.zip cols |>.map fun p => accumulate clr p.1 [p.2.1, p.2.2]))

/-- R191: the written row is visible. -/
def laccWrite (d : Dev) (c bank row : Nat) (xs : List W32) : Dev :=
  modCell d c fun y => laccSet (stateClean y .lacc bank fun w => w / 64 == row) bank row xs

/-- R199: entries of an LACC row take unspecified values. -/
def laccFree (d : Dev) (c bank row : Nat) (cols : List Nat) : Dev :=
  let r := freeAt cols (laccRow (cellOf d c) bank row) d
  modCell r.2 c fun y => laccSet y bank row r.1

/-- R176, R191: one token block is added into a whole RACC bank; with CLRR its old entries are not read. -/
def raccAdd (d : Dev) (c bank : Nat) (clr : Bool) (blk : List (List W32)) : Dev :=
  let d := blk.zipIdx.foldl (fun d p =>
    let old := raccRow (cellOf d c) bank p.2
    let r := if clr then (old, d) else stateRow d c .racc bank (64 * p.2) 64 old
    modCell r.2 c fun y => raccSet y bank p.2 ((r.1.zip p.1).map fun q => accumulate clr q.1 [q.2])) d
  modCell d c fun y => stateClean y .racc bank fun _ => true

/-- R199: entries of a RACC bank, by 64 k + n, take unspecified values. -/
def raccFree (d : Dev) (c bank : Nat) (sites : List Nat) : Dev :=
  (List.range 64).foldl (fun d k =>
    match (sites.filter fun s => s / 64 == k).map (· % 64) with
    | [] => d
    | ns => let r := freeAt ns (raccRow (cellOf d c) bank k) d; modCell r.2 c fun y => raccSet y bank k r.1) d

/-! ### Drains -/

/-- R178: a drained bank's invalid count goes to the INVALID gauge and is set to 0. -/
def flushLeft (d : Dev) (c bank : Nat) (x : Desc) : Dev :=
  let n := tabGet (fun _ => 0) (cellOf d c).linv bank
  let d := descGauges d c x [(gInvalid, n)]
  modCell d c fun y => { y with linv := tabPut (fun _ => 0) y.linv bank 0 }

/-- R178 for a RACC bank. -/
def flushRight (d : Dev) (c bank : Nat) (x : Desc) : Dev :=
  let n := tabGet (fun _ => 0) (cellOf d c).rinv bank
  let d := descGauges d c x [(gInvalid, n)]
  modCell d c fun y => { y with rinv := tabPut (fun _ => 0) y.rinv bank 0 }

/-- LDRAIN reads its descriptor. -/
def drainDesc (d : Dev) (c : Nat) : Dev :=
  match (cellOf d c).drain with
  | some r =>
    if r.fill then d
    else let (x, d) := readDesc d c r.desc; modCell d c fun y => { y with drain := some { r with d := some x } }
  | none => d

/-- The survey's view of elements written from folio offset `off` on (R551): nothing below BASE. -/
def surveyAt (d : Dev) (c site : Nat) (x : Desc) (bits off : Nat) (els : List (Val × Nat)) : Dev :=
  match folioPos x bits off with
  | none => d
  | some (r, c0) => surveyRun d (cellOf d c).visiting site x (els.zipIdx.map fun (p, i) => (r, c0 + i, p.1, p.2))

/-- R192: row `i` of an LDRAIN or LFILL is read. The invalid count moves when row 63 is read. DESIGN CHOICE (log entry 41). -/
def drainRow (d : Dev) (c e i : Nat) : Res Dev := do
  match (cellOf d c).drain with
  | none => pure d
  | some r =>
    let bank := if r.bank then 1 else 0
    let more (y : Cell) : Cell := if i < 63 then sched y (e + 1) 2 (.drainRow (i + 1)) else y
    if r.fill then
      let (bs, d) ← readPorts d c e (r.addr + 256 * i) 256
      let xs := (unpackCodes 32 bs).map fun n => BitVec.ofNat 32 n
      pure (modCell d c fun y => more (sched y (e + 4) 1 (.lfillWrite bank i xs)))
    else match r.d with
    | none => pure d
    | some x =>
      let (row, d) := stateRow d c .lacc bank (64 * i) 64 (laccRow (cellOf d c) bank i)
      let off := (r.addr + i * x.pitch) % folioSize
      let d := if i = 63 then flushLeft d c bank x else d
      if r.mode then
        let bs := row.flatMap fun v => leBytes 4 v.toNat
        let d := surveyAt d c 1 x 32 off (row.map fun v => (p32Val v, v.toNat))
        pure (modCell d c fun y => more (sched y (e + 4) 1 (.store (atOff off bs) (banksOf off 256))))
      else
        let es := row.map fun v => encodeVal .g16 (p32Val v) .rna
        let cs := es.map (·.code)
        let d := descGauges d c x [(gG16Inf, (es.filter (·.overflow)).length), (gNanOut, (cs.filter (isNanCode .g16)).length)]
        let d := if x.serve then d else observe d c x.baro 0 (maxFinite row)
        let d := surveyAt d c 1 x 16 off (cs.map fun k => (flushVal (decodeCode .g16 k), srvBits 2 k 0))
        pure (modCell d c fun y => more (sched y (e + 4) 1 (.store (atOff off (packCodes 16 cs)) (banksOf off 128))))

/-- R193: LFILL writes an LACC row in edge `e`, unless an accumulate of a BWD writes it in this edge (three edges, the last of them before the row
becomes visible); it can be read from the next edge. -/
def lfillWrite (d : Dev) (c e bank row : Nat) (xs : List W32) : Dev :=
  modCell d c fun y =>
    if y.due.any fun u => (match u.op with
        | .laccSet b k _ => b == bank && k == row && decide (e < u.edge) && decide (u.edge ≤ e + 3)
        | _ => false) then y
    else sched y (e + 1) 0 (.lfillSet bank row xs)

/-- R192: the drain path is free. -/
def drainFree (d : Dev) (c : Nat) : Dev := modCell d c fun y => { y with drain := none }

/-! ### DWACC -/

/-- R107, R196: DWACC reads its descriptor and the exponent of its barometer. -/
def dwDesc (d : Dev) (c : Nat) : Dev :=
  match (cellOf d c).dw with
  | none => d
  | some r =>
    let (x, d) := readDesc d c r.desc
    modCell d c fun y => { y with dw := some { r with d := some x, e16 := (scalesOf d x.baro).e16 } }

/-- R196: source row `i` is read and converted into two B16 blocks. After the last row the memory side remains. DESIGN CHOICE (log entry 41). -/
def dwRow (d : Dev) (c e i : Nat) : Res Dev := do
  match (cellOf d c).dw with
  | none => pure d
  | some r => match r.d with
  | none => pure d
  | some x =>
    let (row, d) ← (if r.folio then do
        let (bs, d) ← readPorts d c e (r.src + 256 * i) 256
        pure ((unpackCodes 32 bs).map fun n => (BitVec.ofNat 32 n : W32), d)
      else let bank := if r.rb then 1 else 0; pure (stateRow d c .racc bank (64 * i) 64 (raccRow (cellOf d c) bank i)))
    let a := b16Block r.e16 ((row.take 32).map p32Val)
    let b := b16Block r.e16 ((row.drop 32).map p32Val)
    let d := descGauges d c x [(gB16Sat, a.overflow + b.overflow)]
    let d := if x.serve then d else observe d c x.baro 0 (maxFinite row)
    let d := if i = 63 ∧ !r.folio then flushRight d c (if r.rb then 1 else 0) x else d
    let r := { r with rows := r.rows ++ [a.codes ++ b.codes], done := decide (i = 63) }
    pure (modCell d c fun y =>
      if i < 63 then sched { y with dw := some r } (e + 2) 2 (.dwRow (i + 1))
      else { y with dw := some { r with rows := [] }, dwMem := y.dwMem ++ [r] })

/-- R194: the dW path is free. -/
def dwFree (d : Dev) (c : Nat) : Dev := modCell d c fun y => { y with dw := none }

/-! ### Hold points and issue (R187, R189, R190, R192, R194) -/

/-- Can the backward slot's operation issue now? -/
def bwdReady (y : Cell) : BwdOp → Bool
  | .bnop => true
  | .bldw _ _ _ _ => y.bldw.isNone
  | .bldx _ _ => y.bldx.isNone
  | .bldy _ _ _ _ => y.bldy.isNone
  | .bswap w xy => y.bwdCur.isNone && y.bwdPend.isNone && (!w || y.bldw.isNone) && (!xy || y.pairReady)
  | .bwd _ _ _ _ _ _ _ => y.bwdPend.isNone
  | .lfill _ _ => y.drain.isNone
  | .ldrain _ _ _ _ => y.drain.isNone
  | .dwacc _ _ _ _ _ _ _ _ => y.dw.isNone

/-- A folio address of a row operand: bits [21:0], bits [5:0] ignored (R255). -/
def rowAddr (v : Nat) : Nat := fld v 21 6 * 64

/-- R185: BLDW or BLDX issued at `t`. -/
def issueBld (y : Cell) (t : Nat) (x : Bool) (desc v : Nat) (vslot snap : Bool) : Cell :=
  let r : BldRun := { t := t, d := none, addr := rowAddr v, desc := desc, vslot := vslot, snap := snap, rh := fld v 32 32, cq := fld v 34 33
                      texp := 0, taexp := 0, strip := [], poolBytes := [], rows := [] }
  let y := bldPut (if x then abandonScan y else y) x (some r)
  sched (sched y (t + 1) 2 (.bldStart x)) (t + 37) 0 (.bldDone x)

/-- R257: the operation begins at edge `t`, its scalar operands read in the issue CCLK. -/
def issueBackward (y : Cell) (t : Nat) : BwdOp → Cell
  | .bnop => y
  | .bldw desc a vslot snap => issueBld y t false desc (sGet y a).toNat vslot snap
  | .bldx desc a => issueBld y t true desc (sGet y a).toNat false false
  | .bldy desc a fn p =>
    let v := (sGet y a).toNat
    let q := (sGet y p).toNat
    let r : BldyRun := { t := t, desc := desc, addr := rowAddr v, saved := fld v 43 28 * 64, tid := fld v 59 44, fn := fn
                         p0 := BitVec.ofNat 32 q, p1 := BitVec.ofNat 32 (q >>> 32), d := none, ds := none, texp := 0, codes := [] }
    let y := { abandonScan y with bldy := some r }
    sched (sched y (t + 1) 2 .bldyStart) (if fn = 5 then t + 133 else t + 38) 0 .bldyDone
  | .bswap w xy => { y with lwAct := y.lwAct != w, xyAct := y.xyAct != xy }
  | .bwd l r lb clrl rb clrr tid =>
    let q : BwdRun := { t := t, l := l, r := r, lb := lb, clrl := clrl, rb := rb, clrr := clrr, tid := tid, start := none }
    if y.bwdCur.isNone then sched { y with bwdCur := some { q with start := some (t + 1) } } (t + 1) 2 (.bwdRow t 0)
    else { y with bwdPend := some q }
  | .lfill bank a =>
    let r : DrainRun := { t := t, fill := true, bank := bank, mode := false, addr := rowAddr (sGet y a).toNat, desc := 0, d := none }
    sched (sched { y with drain := some r } (t + 1) 2 (.drainRow 0)) (t + 65) 0 .drainDone
  | .ldrain bank mode desc a =>
    let r : DrainRun := { t := t, fill := false, bank := bank, mode := mode, addr := rowAddr (sGet y a).toNat, desc := desc, d := none }
    sched (sched (sched { y with drain := some r } (t + 1) 2 .drainDesc) (t + 1) 2 (.drainRow 0)) (t + 65) 0 .drainDone
  | .dwacc src rb clr last desc a b h =>
    let v := (sGet y b).toNat
    let r : DwRun := { t := t, folio := src, rb := rb, clr := clr, last := last, desc := desc, addr := fld (sGet y a).toNat 47 0
                       src := rowAddr v, bucket := fld v 47 32, h := h, d := none, e16 := 0, rows := [], done := false, know := y.known }
    sched (sched (sched { y with dw := some r } (t + 1) 2 .dwDesc) (t + 1) 2 (.dwRow 0)) (t + 129) 0 .dwDone

end Sys2Proof.Machine
end

