-- ==== Sys2Proof/Machine/Vector.lean ====
section
/-! DEFINITION. The vector engine and the lane-reduction unit of a cell (06_vector_engine.md), and the update converter (12_parameter_update.md,
R411–R416): what each operation writes and at which edge its result is visible (R206, R218). -/
namespace Sys2Proof.Machine

/-! ### Lanes and masks -/

/-- Is lane `i` active under a mask? -/
def act (m : W256) (i : Nat) : Bool := m.getLsbD i

/-- The active lanes of a mask, ascending. -/
def actLanes (m : W256) : List Nat := (List.range 256).filter (act m)

/-- Bits [31:0] of a scalar register (R204). -/
def sLow (x : Cell) (r : Nat) : W32 := (sGet x r).setWidth 32

/-- The 256 values of a value operand: a vector register, or a scalar register broadcast (R204). -/
def operand (x : Cell) (r : Nat) (bc : Bool) : List W32 := if bc then List.replicate 256 (sLow x r) else vReg x r

/-- A mask from lanes. -/
def maskOf (p : Nat → Bool) : W256 := BitVec.ofNat 256 ((List.range 256).foldl (fun a i => if p i then a + 2 ^ i else a) 0)

/-- R220: is (edge, lane, kind) earlier than the first event the record holds? -/
def vxEarlier (r : VxRec) (edge lane kind : Nat) : Bool :=
  !r.valid || decide (edge < r.firstEdge) || (edge == r.firstEdge && (decide (lane < r.lane) || (lane == r.lane && decide (kind < r.kind))))

/-- R212, R219, R220, R367: a lane event whose result is written just before `edge`. DESIGN CHOICE (log entry 46). -/
def vxEvent (d : Dev) (c edge bundle lane : Nat) (ev : LaneEvent) : Dev :=
  let x := cellOf d c
  if x.visiting then d
  else
    let r := x.vx
    let k := laneEventKind ev
    let r1 := match ev with
      | .invalid => { r with invalid := satAdd 16 r.invalid 1 }
      | .divz => { r with divz := satAdd 16 r.divz 1 }
      | .range => { r with range := satAdd 16 r.range 1 }
    let r2 := if vxEarlier r edge lane k then
        { r1 with valid := true, kind := k, lane := lane, bundle := bundle, stamp := readStamp d, firstEdge := edge }
      else r1
    putCell d c { x with vx := r2 }

/-- R230: pivots replaced by a VSOLVE. -/
def vxSing (d : Dev) (c n : Nat) : Dev :=
  let x := cellOf d c
  if n = 0 ∨ x.visiting then d
  else putCell d c { x with vx := { x.vx with sing := satAdd 32 x.vx.sing n, flag := true } }

/-! ### Per-lane operations -/

/-- What a lane operation gives: the value and its event. -/
abbrev LaneOut := W32 × Option LaneEvent

/-- A P32 result with its INVALID event (R212). -/
def invOut (r : W32 × Bool) : LaneOut := (r.1, if r.2 then some .invalid else none)

/-- Signed smaller and larger. -/
def imin (a b : W32) : W32 := if a.toInt ≤ b.toInt then a else b
/-- R207: VIMAX. -/
def imax (a b : W32) : W32 := if b.toInt ≤ a.toInt then a else b

/-- R207–R210: an operation on the lane values a, b and c. -/
def laneOp (o : VOp) (a b c : W32) : LaneOut :=
  let sh := b.toNat % 32
  match o with
  | .vadd => invOut (p32AddE a b)
  | .vsub => invOut (p32SubE a b)
  | .vmul => invOut (p32MulE a b)
  | .vfma => invOut (p32FmaE a b c)
  | .vfms => invOut (p32FmsE a b c)
  | .vmin => (p32Min a b, none)
  | .vmax => (p32Max a b, none)
  | .vabs => (p32Abs a, none)
  | .vneg => (p32Neg a, none)
  | .vexp => (p32Exp a, none)
  | .vlog => p32Log a
  | .vrcp => p32Rcp a
  | .vrsq => p32Rsqrt a
  | .viadd => (a + b, none)
  | .visub => (a - b, none)
  | .vimul => (a * b, none)
  | .vand => (a &&& b, none)
  | .vor => (a ||| b, none)
  | .vxor => (a ^^^ b, none)
  | .vshl => (a <<< sh, none)
  | .vshrl => (a >>> sh, none)
  | .vshra => (a.sshiftRight sh, none)
  | .vimin => (imin a b, none)
  | .vimax => (imax a b, none)
  | .vcvtfi => p32ToInt a
  | .vcvtif => (intToP32 a, none)
  | _ => (a, none)

/-- R208, R207: a compare of two lane values. -/
def laneCmp (o : VOp) (a b : W32) : Bool :=
  match o with
  | .vcmpEq => p32Eq a b
  | .vcmpLt => p32Lt a b
  | .vcmpLe => p32Le a b
  | .vcmpUn => p32Un a b
  | .vicmpEq => a == b
  | .vicmpLt => decide (a.toInt < b.toInt)
  | .vicmpLtu => decide (a.toNat < b.toNat)
  | _ => false

/-- R218: CCLK from issue to visibility of a lane result. -/
def laneLatency : VOp → Nat
  | .viadd | .visub | .vand | .vor | .vxor | .vshl | .vshrl | .vshra | .vimin | .vimax => 3
  | .vmov | .vbcast => 2
  | .vgath => 6
  | _ => 5

/-- Schedules lane results (lane, value, event) of an operation issued at `t`. -/
def laneResult (x : Cell) (t at_ d : Nat) (rs : List (Nat × LaneOut)) : Cell :=
  let x := schedRes x at_ t (.lanes d (rs.map fun r => (r.1, r.2.1)))
  let evs := rs.filterMap fun r => r.2.2.map fun e => (r.1, e)
  if evs.isEmpty then x else schedRes x at_ t (.laneEvents x.pc evs)

/-- R213: a lane's multiplying operation whose product is off by `off`, and whether its check modulo 3 finds it; none for an operation that does not multiply. -/
def laneSlip (o : VOp) (a b c : W32) (off : Int) : Option (W32 × Bool) :=
  let m := movedMul a b off
  let found := match p32Val a, p32Val b with
    | .fin _ x _, .fin _ y _ => !mod3Ok x y ((x * y : Nat) + off)
    | _, _ => false
  match o with
  | .vmul => some (p32Enc m.1, found)
  | .vfma => some (p32Enc (valAdd m.1 (p32Val c)).1, found)
  | .vfms => some (p32Enc (valAdd (valNeg m.1) (p32Val c)).1, found)
  | .vimul => some (BitVec.ofInt 32 (a.toInt * b.toInt + off), !mod3Ok a.toInt b.toInt (a.toInt * b.toInt + off))
  | _ => none

/-- R213: the slips that wait for the lanes' multipliers meet a multiplying operation: its results with them, and whether a check fails. -/
def applySlips (x : Cell) (o : VOp) (a b c : List W32) (rs : List (Nat × LaneOut)) : Cell × List (Nat × LaneOut) × Bool :=
  let mine := x.slips.filter fun s => s.sub == 6
  if mine.isEmpty || (laneSlip o 0 0 0 0).isNone then (x, rs, false)
  else
    let hit (i : Nat) : Option (W32 × Bool) :=
      if mine.any fun s => s.col == i then laneSlip o (a.getD i 0) (b.getD i 0) (c.getD i 0) (slipSum mine fun s => s.col == i) else none
    let rs' := rs.map fun r => match hit r.1 with | some w => (r.1, w.1, r.2.2) | none => r
    ({ x with slips := x.slips.filter fun s => s.sub != 6 }, rs', rs.any fun r => match hit r.1 with | some w => w.2 | none => false)

/-- Schedules a mask result over the lanes named. -/
def maskResult (x : Cell) (t at_ m : Nat) (rs : List (Nat × Bool)) : Cell := schedRes x at_ t (.mask m rs)

/-- R214: one lane of a gather. -/
def gatherLane (x : Cell) (b n : Nat) (i : W32) : LaneOut :=
  if i.toNat < 256 * n then (vGet x (b + i.toNat / 256) (i.toNat % 256), none) else (0, some .range)

/-- Is the operation transcendental (R211)? -/
def isTrans : VOp → Bool
  | .vexp | .vlog | .vrcp | .vrsq => true
  | _ => false

/-- R203, R207: the mask operations. -/
def maskOp (o : VOp) (a b : W256) : W256 :=
  match o with
  | .mand => a &&& b
  | .mor => a ||| b
  | .mxor => a ^^^ b
  | _ => ~~~a

/-- The vector registers that an operation of the vector slot reads at issue (R204, R214, R259). -/
def vecReads (o : VecOp) : List Nat :=
  let k := vecKinds o.op
  let one (k : OpndKind) (r : Nat) (bc : Bool) : List Nat :=
    match k with
    | .vreg => [r]
    | .value => if bc then [] else [r]
    | _ => []
  if o.op == .vsolve then []
  else (if o.op == .vst then [o.d] else []) ++ one k.2.1 o.a o.ba
    ++ (if o.op == .vgath then (List.range (gathN o.x)).map (o.b + ·) else one k.2.2.1 o.b o.bb) ++ one k.2.2.2 o.c false

/-- R203: vector registers are read: a lane whose word has a double-bit error raises ECC and holds an unspecified value. -/
def vregEcc (d : Dev) (c : Nat) (regs : List Nat) : Dev :=
  if (cellOf d c).flips.isEmpty then d
  else regs.foldl (fun d r =>
    let e := stateEcc d c .vreg r fun _ => true
    if e.1.isEmpty then e.2 else let f := freeAt e.1 (vReg (cellOf e.2 c) r) e.2; modCell f.2 c fun x => vSet x r f.1) d

/-- R258–R260: the vector slot's operation issued at edge `t`; it reads its registers now (R240). `stamp` is the stamp that dice take at issue (R411). -/
def issueVector (x : Cell) (t stamp : Nat) (o : VecOp) : Cell :=
  let m := mGetMask x o.mask
  let ls := actLanes m
  let a := operand x o.a o.ba
  let b := operand x o.b o.bb
  let all (v : W256) : List (Nat × Bool) := (List.range 256).map fun i => (i, act v i)
  let compare (lat : Nat) : Cell := maskResult x t (t + lat) (o.d % 8) (ls.map fun i => (i, laneCmp o.op (a.getD i 0) (b.getD i 0)))
  let plain : Cell :=
    let c := vReg x o.c
    let at_ := t + laneLatency o.op
    let r := applySlips x o.op a b c (ls.map fun i => (i, laneOp o.op (a.getD i 0) (b.getD i 0) (c.getD i 0)))
    let y := laneResult r.1 t at_ o.d r.2.1
    if r.2.2 then schedRes (schedRes y at_ t (.laneUnspec o.d ls)) at_ t (.residue 6 0) else y
  let trans : Cell :=
    let y := (List.range 4).foldl (fun y j =>
      laneResult y t (t + 11 + j) o.d ((ls.filter fun i => i / 64 == j).map fun i => (i, laneOp o.op (a.getD i 0) 0 0))) x
    sched { y with transBusy := true } (t + 4) 0 .transFree
  match o.op with
  | .vcmpEq | .vcmpLt | .vcmpLe | .vcmpUn => compare 4
  | .vicmpEq | .vicmpLt | .vicmpLtu => compare 3
  | .vsel =>
    let s := mGetMask x (fld o.x 26 24)
    laneResult x t (t + 5) o.d (ls.map fun i => (i, (if act s i then a.getD i 0 else b.getD i 0, none)))
  | .vexp | .vlog | .vrcp | .vrsq => trans
  | .vbcast => laneResult x t (t + 2) o.d (ls.map fun i => (i, (sLow x o.a, none)))
  | .vlaneget =>
    let l := fld o.x 26 19
    if act m l then schedRes x (t + 3) t (.sreg (o.d % 32) ((vGet x o.a l).setWidth 64)) else x
  | .vlaneset =>
    let l := fld o.x 26 19
    if act m l then laneResult x t (t + 3) o.d [(l, (sLow x o.a, none))] else x
  | .vgath => laneResult x t (t + 6) o.d (ls.map fun i => (i, gatherLane x o.b (gathN o.x) (a.getD i 0)))
  | .mand | .mor | .mxor | .mnot =>
    maskResult x t (t + 2) (o.d % 8) (all (maskOp o.op (mGetMask x (o.a % 8)) (mGetMask x (o.b % 8))))
  | .mfirst =>
    let n := fld (sGet x o.a).toNat 8 0
    maskResult x t (t + 2) (o.d % 8) ((List.range 256).map fun i => (i, decide (i < n)))
  | .vld =>
    let addr := rowAddr (sGet x o.c).toNat
    let f := fld o.x 18 15
    if f < 2 then
      sched (sched x (t + 1) 2 (.vldHalf o.d addr 0 (f == 1) m)) (t + 2) 2 (.vldHalf o.d addr 1 (f == 1) m)
    else sched x (t + 1) 2 (.vld o.d addr (fld o.x 26 19) f m)
  | .vst =>
    let addr := rowAddr (sGet x o.c).toNat
    let x0 := fld (sGet x ((o.c + 1) % 32)).toNat 47 0
    sched x (t + 1) 2 (.vst addr (fld o.x 26 19) (fld o.x 18 15) (vReg x o.d) m x0 stamp)
  | .vsolve =>
    let r : SolveRun := { t := t, lu := bitAt o.x 26, n := solveN o.x, a := o.a, b := o.b, s := o.c, d := o.d % 32 }
    sched { x with solve := some r } (t + 1) 2 .solveRead
  | _ => plain

/-- Hold points of the vector slot (R211, R232). -/
def vecReady (x : Cell) : Option VecOp → Bool
  | none => true
  | some o => x.solve.isNone && !(isTrans o.op && x.transBusy)

/-- Hold point of the lane-reduction slot (R232). -/
def redReady (x : Cell) : Option LaneRed → Bool
  | none => true
  | some _ => x.solve.isNone

/-! ### Lane reduction -/

/-- The reduction codes as R222's tree takes them. -/
def redNum : RedOp → Nat
  | .rsum => 1 | .rssq => 2 | .rmax => 3 | .rmin => 4 | .rargmax => 5 | .rcount => 6

/-- R221: a reduction issued at `t` reads A now; the accumulate read follows at t + 10 (R223). -/
def issueReduce (x : Cell) (t : Nat) (r : LaneRed) : Cell :=
  let m := mGetMask x r.mask
  let v := redTree (redNum r.op) r.int ((vReg x r.a).zipIdx.map fun (w, i) => (act m i, w))
  sched x (t + 10) 3 (.reduce r v t)

/-- R223, R224: the accumulate read of a reduction, and its result, visible one CCLK later. -/
def reduceRead (x : Cell) (e : Nat) (r : LaneRed) (v : Option W64) (iss : Nat) : Cell :=
  let cur : W64 := if r.dv then (vGet x r.a r.dst).setWidth 64 else sGet x r.dst
  let op := redNum r.op
  let res : Option W64 := match v with
    | none => if r.acc then none else some (redEmpty op r.int)
    | some t => some (if r.acc then redAcc op r.int cur t else t)
  match res with
  | none => x
  | some w =>
    if r.dv then schedRes x (e + 1) iss (.lanes r.a [(r.dst, w.setWidth 32)])
    else schedRes x (e + 1) iss (.sreg r.dst (if op == 1 && r.int then w else (w.setWidth 32).setWidth 64))

/-! ### Small solves -/

/-- R227: matrix element (i, j) of a VSOLVE. -/
def solveElem (x : Cell) (a i j : Nat) : W32 := vGet x (a + (64 * i + j) / 256) ((64 * i + j) % 256)

/-- R203: the registers that a VSOLVE reads. -/
def solveEcc (d : Dev) (c : Nat) : Dev :=
  match (cellOf d c).solve with
  | none => d
  | some r => vregEcc d c (r.b :: (List.range ((64 * r.n + 255) / 256)).map (r.a + ·))

/-- R213: a slip that waits for the lanes' multipliers is made by one of a VSOLVE's products, which no rule tells from the others: the solution lanes are
unspecified, and the check finds a slip that is no multiple of 3. DESIGN CHOICE (log entry 46). -/
def solveSlips (x : Cell) (at_ t b : Nat) (lanes : List Nat) : Cell :=
  let mine := x.slips.filter fun s => s.sub == 6
  if mine.isEmpty then x
  else
    let y := schedRes { x with slips := x.slips.filter fun s => s.sub != 6 } at_ t (.laneUnspec b lanes)
    if mine.any fun s => s.delta % 3 != 0 then schedRes y at_ t (.residue 6 0) else y

/-- R227, R231: VSOLVE reads its operands in t + 1; its results are visible after its whole duration. -/
def solveRead (x : Cell) : Cell :=
  match x.solve with
  | none => x
  | some r =>
    let idx := List.range r.n
    let m : Tab W32 := idx.foldl (fun m i => idx.foldl (fun m j => mPut m i j (solveElem x r.a i j)) m) []
    let bs := (List.range 4).map fun k => idx.map fun i => vGet x r.b (64 * k + i)
    let s := solve r.lu m r.n bs (sLow x r.s)
    let xs := s.1.zipIdx.flatMap fun (l, k) => l.zipIdx.map fun (w, i) => (64 * k + i, w)
    let dur := if r.lu then 8 + 60 * r.n else 8 + 68 * r.n
    solveSlips (schedRes x (r.t + dur) r.t (.solveDone xs s.2)) (r.t + dur) r.t r.b (xs.map (·.1))

/-- R230, R231: the solution and the count are visible, the engine is free. -/
def solveDone (d : Dev) (c : Nat) (xs : List (Nat × W32)) (rep : Nat) : Dev :=
  match (cellOf d c).solve with
  | none => d
  | some r =>
    vxSing (modCell d c fun x => sPut (vPutL { x with solve := none } r.b xs) r.d (BitVec.ofNat 64 rep)) c rep

/-! ### VLD -/

/-- The format of a VLD or VST FMT code (R260): FMT 0x9 is G16. -/
def vecFmt (f : Nat) : Fmt := if f = 9 then .g16 else (fmtOfCode f).getD .g16

/-- R216, R218: half `h` of a P32 or I32 row, visible at t + 6. -/
def vldHalf (d : Dev) (c e v addr h : Nat) (int : Bool) (m : W256) : Res Dev := do
  let (bs, d) ← readPorts d c e (addr + 512 * h) 512
  let t := e - 1 - h
  let ws := (unpackCodes 32 bs).zipIdx.map fun (k, i) =>
    let w : W32 := BitVec.ofNat 32 k
    (128 * h + i, if int then w else p32Flush w)
  pure (modCell d c fun x => schedRes x (t + 6) t (.lanes v (ws.filter fun p => act m p.1)))

/-- R216: a row in any other format, read in t + 1 and visible at t + 5. -/
def vldRow (d : Dev) (c e v addr desc f : Nat) (m : W256) : Res Dev := do
  let fm := vecFmt f
  let bits := fmtBits fm
  let (bs, d) ← readPorts d c e addr (32 * bits)
  let codes := unpackCodes bits bs
  let t := e - 1
  let put (d : Dev) (ws : List W32) : Dev :=
    modCell d c fun x => schedRes x (t + 5) t (.lanes v ((ws.zipIdx.map fun p => (p.2, p.1)).filter fun p => act m p.1))
  let d := if f = 9 then (readDesc d c desc).2 else d
  if f = 2 ∨ f = 9 then pure (put d (codes.map fun k => p32Enc (flushVal (decodeCode .g16 k))))
  else
    let (x, d) := readDesc d c desc
    match folioPos x bits addr with
    | none => throw .geometry
    | some (r, c0) =>
      let (sc, d) ← rowScales d c x fm r c0 256 (act m)
      let soff := scaleAddr x (scaleWidth fm) r c0
      let d ← usePorts d c e (banksOf soff (if f = 3 then 16 else 1))
      let ws := (codes.zip sc).map fun p => p32Enc (tensorVal fm p.1 p.2 (descScales d x).1)
      if f = 3 then
        let lead := (32 - c0 % 32) % 32
        let d := put d ws
        match b16Wrong x r c0 codes sc with
        | [] => pure d
        | k :: t =>
          let lanes := (actLanes m).filter fun i => decide (lead ≤ i) && (k :: t).contains ((i - lead) / 32)
          let d := modCell d c fun y => schedRes y (e + 4) (e - 1) (.laneUnspec v lanes)
          pure (residueFault d c 8 (folioAddr c (addr + 2 * (lead + 32 * k))) x.tid)
      else pure (put d ws)

/-- The lanes named take unspecified values (R160, R213). -/
def laneUnspec (d : Dev) (c v : Nat) (lanes : List Nat) : Dev :=
  lanes.foldl (fun d i => let w := drawWord d; modCell w.2 c fun x => vPut x v i (w.1.setWidth 32)) d

/-! ### VST -/

/-- Bytes (offset, byte) of the active lanes `lo` to `lo + n - 1` whose codes have `w` bytes each (R217). -/
def laneBytes (addr w : Nat) (m : W256) (lo n : Nat) (codes : List Nat) : List (Nat × Byte) :=
  (List.range n).flatMap fun i =>
    if act m (lo + i) then atOff (addr + w * (lo + i)) (leBytes w (codes.getD (lo + i) 0)) else []

/-- R84, R411: row and column of the element with index `i`. -/
def idxPos (x : Desc) (i : Nat) : Nat × Nat := if x.cols = 0 then (0, i) else (i / x.cols, i % x.cols)

/-- R82, R411: the dice output of lane `i` of a store that issued under `stamp`. -/
def updDice (d : Dev) (stamp : Nat) (x : Desc) (x0 i use : Nat) : W32 :=
  dice (stSeed d) (BitVec.ofNat 48 stamp) (BitVec.ofNat 32 x.tid) (BitVec.ofNat 48 (x0 + i)) (BitVec.ofNat 8 use)

/-- The survey's view of a VST (R551) whose lane `i` holds the element with index X0 + i. -/
def surveyIdx (d : Dev) (c : Nat) (x : Desc) (x0 : Nat) (m : W256) (els : List (Val × Nat)) : Dev :=
  surveyRun d (cellOf d c).visiting 3 x ((els.zipIdx.filter fun p => act m p.2).map fun (p, i) =>
    let q := idxPos x (x0 + i)
    (q.1, q.2, p.1, p.2))

/-- R217: a VST of P32, I32 or G16. DESIGN CHOICE (log entry 46). -/
def vstPlain (d : Dev) (c e addr f : Nat) (x : Desc) (v : List W32) (m : W256) : Dev :=
  let surv (d : Dev) (bits : Nat) (els : List (Val × Nat)) : Dev :=
    match folioPos x bits addr with
    | none => d
    | some (r, c0) => surveyRun d (cellOf d c).visiting 3 x
        ((els.zipIdx.filter fun p => act m p.2).map fun (p, i) => (r, c0 + i, p.1, p.2))
  if f < 2 then
    let codes := v.map (·.toNat)
    let d := surv d 32 (v.map fun w => (if f = 1 then decodeCode .i32 w.toNat else p32Val w, w.toNat))
    modCell d c fun y =>
      sched (sched y (e + 2) 1 (.store (laneBytes addr 4 m 0 128 codes) (banksOf addr 512))) (e + 3) 1
        (.store (laneBytes addr 4 m 128 128 codes) (banksOf (addr + 512) 512))
  else
    let es := v.map fun w => encodeVal .g16 (p32Val w) .rna
    let live := es.zipIdx.filter fun p => act m p.2
    let d := descGauges d c x [(gG16Inf, (live.filter (·.1.overflow)).length), (gNanOut, (live.filter fun p => isNanCode .g16 p.1.code).length)]
    let d := if x.serve then d else observe d c x.baro 0 (maxFinite ((v.zipIdx.filter fun p => act m p.2).map (·.1)))
    let d := surv d 16 (es.map fun k => (flushVal (decodeCode .g16 k.code), srvBits 2 k.code 0))
    modCell d c fun y => sched y (e + 2) 1 (.store (laneBytes addr 2 m 0 256 (es.map (·.code))) (banksOf addr 512))

/-- R412, R415, R416: a VST of the moments S1 (G8) and S2 (V8). DESIGN CHOICE (log entry 46). -/
def vstMoment (d : Dev) (c e addr f : Nat) (x : Desc) (v : List W32) (m : W256) (x0 stamp : Nat) : Res Dev := do
  let fm := vecFmt f
  let p := idxPos x x0
  let soff := scaleAddr x 1 p.1 p.2
  let overflow := decide (x.cols < p.2 + 256) && (List.range (p.2 + 256 - x.cols)).any fun i => act m (x.cols - p.2 + i)
  if x.bdir ∨ x.bsize ≠ 32 then
    -- R402 broken: the spec states no values for such blocks, nor a fault
    let scl := (List.range 256).map fun i => scaleAddr x 1 p.1 (p.2 + i) % folioSize
    pure (modCell d c fun y => sched y (e + 2) 1 (.unspec ((List.range 256).map (fun i => (addr + i) % folioSize) ++ scl.eraseDups)))
  else if x.cols = 0 ∨ p.2 % 32 ≠ 0 ∨ overflow then
    -- R298: the lanes do not cover whole blocks
    let lead := p.2 % 32
    let n := (lead + 256 + 31) / 32
    let codes := (List.range (32 * n)).map fun i => (addr + folioSize - lead + i) % folioSize
    let scl := (List.range n).map fun i => (soff + i) % folioSize
    pure (modCell d c fun y => sched y (e + 2) 1 (.unspec (codes ++ scl)))
  else
    let (bs, d) ← readPorts d c e addr 256
    let (ss, d) ← readPorts d c e soff 8
    let codes := bs.map (·.toNat)
    let texp := (descScales d x).1
    let use := if f = 5 then 1 else 2
    let kept (i : Nat) : Bool := !act m i || p32IsNan (v.getD i 0)
    let blks := (List.range 8).map fun k =>
      momentBlk fm texp (ss.getD k 0).toNat ((List.range 32).map fun j =>
        let i := 32 * k + j
        (codes.getD i 0, if kept i then none else some (p32Val (v.getD i 0)), updDice d stamp x x0 i use))
    let overflow := (blks.map (·.overflow)).sum
    let hold := ((List.range 256).filter fun i => act m i && p32IsNan (v.getD i 0)).length
    let d := descGauges d c x (if f = 5 then [(gG8Inf, overflow), (gNanHold, hold)] else [(gNarrowSat, overflow)])
    let d := if x.serve then d else observe d c x.baro 0 (maxFinite ((actLanes m).map fun i => v.getD i 0))
    let live := blks.zipIdx.filter fun q => (List.range 32).any fun j => !kept (32 * q.2 + j)
    let d := surveyIdx d c x x0 m (blks.flatMap fun b => b.codes.map fun k =>
      (p32Round (elemVal fm k b.scale ((b.scale : Int) - 127 + texp)), srvBits f k b.scale))
    let st := live.flatMap fun q =>
      atOff (addr + 32 * q.2) (q.1.codes.map fun k => BitVec.ofNat 8 k) ++ atOff (soff + q.2) [BitVec.ofNat 8 q.1.scale]
    pure (modCell d c fun y => sched y (e + 2) 1 (.store st (banksOf addr 256 ++ banksOf soff 8)))

/-- R413, R415, R416: a VST of the narrow master. -/
def vstMaster (d : Dev) (c e addr : Nat) (x : Desc) (v : List W32) (m : W256) (x0 stamp : Nat) : Res Dev := do
  let (bs, d) ← readPorts d c e addr 512
  let old := unpackCodes 16 bs
  let texp := (descScales d x).1
  let kept (i : Nat) : Bool := !act m i || p32IsNan (v.getD i 0)
  let es := (List.range 256).map fun i =>
    if kept i then ({ code := old.getD i 0, overflow := false } : Enc) else nmStore (old.getD i 0) (v.getD i 0) texp (updDice d stamp x x0 i 0)
  let d := descGauges d c x [(gG16Inf, (es.filter (·.overflow)).length)]
  let incs := ((List.range 256).filter fun i => !kept i).map fun i => p32Enc (scaleVal (p32Val (p32Abs (v.getD i 0))) texp)
  let d := if x.serve then d else observe (observe d c x.baro 2 (maxFinite incs)) c x.baro 0 (maxFinite ((actLanes m).map fun i => v.getD i 0))
  let d := surveyIdx d c x x0 m (es.map fun k => (flushVal (decodeCode .g16 k.code), srvBits 2 k.code 0))
  let all := (List.range 256).flatMap fun i => atOff (addr + 2 * i) (leBytes 2 ((es.map (·.code)).getD i 0))
  pure (modCell d c fun y => sched y (e + 2) 1 (.store all (banksOf addr 512)))

/-- The pool under selection of tile (ti, tj) of a descriptor. -/
def tileOf (y : Cell) (x : Desc) (ti tj : Nat) : TilePool :=
  (y.tiles.find? fun p => decide (p.d = x) && p.ti == ti && p.tj == tj).getD { d := x, ti := ti, tj := tj, entries := [], bad := false }

/-- The tile pools without that of a tile. -/
def tilesBut (y : Cell) (x : Desc) (ti tj : Nat) : List TilePool := y.tiles.filter fun p => !(decide (p.d = x) && p.ti == ti && p.tj == tj)

/-- Replaces the pool of a tile. -/
def tilePut (y : Cell) (p : TilePool) : Cell := { y with tiles := tilesBut y p.d p.ti p.tj ++ [p] }

/-- Folio offsets of `n` bytes. -/
def offRange (off n : Nat) : List Nat := (List.range n).map fun i => (off + i) % folioSize

/-- R298, R414: the bytes of a group that was not stored in order hold unspecified values, and so does the pool of its tile. -/
def breakGroup (y : Cell) (e : Nat) (g : GroupRun) : Cell :=
  let rows := g.rows.flatMap fun r => offRange r.1 128
  let y := tilePut y { tileOf y g.d (g.row0 / 128) (g.col0 / 256) with bad := true }
  sched { y with group := none } (e + 2) 1 (.unspec (rows ++ offRange (scaleAddr g.d 1 g.row0 g.col0) 256))

/-- R414: the converter applies R92 to the whole group, whose last row was stored in `e - 1`. -/
def convertGroup (d : Dev) (c e : Nat) (g : GroupRun) : Dev :=
  let x := g.d
  let b := x.bsize
  let s := descScales d x
  let cfg := baroCfg d x.baro
  let pool := poolOf g.fmt cfg
  let ti := g.row0 / 128
  let tj := g.col0 / 256
  let tp0 := tileOf (cellOf d c) x ti tj
  let tp := if g.row0 % 128 = 0 then { tp0 with entries := [], bad := false } else tp0
  let ac : Option AnnexCfg := if pool = 0 then none else some { theta := cfg.theta, pool := pool, texp := s.1, taexp := s.2 }
  let o := convGroup g.fmt ac s.1 (g.row0 % 128) 0 (g.rows.map (·.2)) { entries := tp.entries, ovf := 0, sat := 0 }
  let d := descGauges d c x [(gAnnexOvf, o.sel.ovf), (gNanOut, o.nans), (gNarrowSat, o.overflow + o.sel.sat)]
  let live := g.rows.flatMap fun r => r.2.filterMap id
  let d := if x.serve then d else observe d c x.baro 0 (maxFinite (live.map p32Enc))
  let scl := o.scales.headD []
  let d := (o.codes.zip g.rows).zipIdx.foldl (fun d (q, k) =>
    let els := convSurvey g.fmt s.1 s.2 (g.row0 + k) g.col0 q.1 scl o.sel.entries
    surveyRun d (cellOf d c).visiting 3 x (((els.zip q.2.2).filter fun p => p.2.isSome).map (·.1))) d
  let soff := scaleAddr x 1 g.row0 g.col0
  let last := (g.row0 + b) % 128 == 0 || decide (x.rows ≤ g.row0 + b)
  modCell d c fun y =>
    let y := { y with group := none }
    let y := (o.codes.zip g.rows).zipIdx.foldl (fun y (q, k) =>
      sched y (e + 3 + k) 1 (.store (atOff q.2.1 (packCodes 4 q.1)) (banksOf q.2.1 128))) y
    let y := sched y (e + 3 + b) 1 (.store (atOff soff (scl.map fun k => BitVec.ofNat 8 k)) (banksOf soff 256))
    let y := tilePut y { tp with entries := o.sel.entries }
    if !last then y
    else
      let n := poolStride pool
      let off := poolAddr x pool ti tj
      let y := { y with tiles := tilesBut y x ti tj }
      if pool = 0 then y
      else if tp.bad then sched y (e + 4 + b) 1 (.unspec (offRange off n))
      else
        let bs := (o.sel.entries.flatMap (leBytes 4)) ++ List.replicate (n - 4 * o.sel.entries.length) 0
        sched y (e + 4 + b) 1 (.store (atOff off bs) (banksOf off n))

/-- R414: a VST of a row of the forward copy. -/
def vstCopy (d : Dev) (c e addr f : Nat) (x : Desc) (v : List W32) (m : W256) (x0 : Nat) : Dev :=
  let fm := vecFmt f
  let p := idxPos x x0
  let row : List (Option Val) := v.zipIdx.map fun (w, i) => if act m i then some (p32Val w) else none
  let y0 := cellOf d c
  let b := x.bsize
  let next (g : GroupRun) : Bool := decide (g.d = x) && g.fmt == fm && g.col0 == p.2 && g.row0 + g.rows.length == p.1
  let d := match y0.group with
    | some g => if next g then d else putCell d c (breakGroup y0 e g)
    | none => d
  if !kBlocked x true || x.cols = 0 || p.2 % 256 != 0 then
    -- R298: geometry of the store
    let pool := poolOf fm (baroCfg d x.baro)
    let scl := if x.bsize = 0 then [] else offRange (scaleAddr x 1 p.1 p.2) 256
    modCell d c fun y => sched y (e + 2) 1
      (.unspec (offRange addr 128 ++ scl ++ offRange (poolAddr x pool (p.1 / 128) (p.2 / 256)) (poolStride pool)))
  else
    match (cellOf d c).group with
    | some g =>
      let g := { g with rows := g.rows ++ [(addr, row)] }
      if (p.1 + 1) % b = 0 then convertGroup d c e g else modCell d c fun y => { y with group := some g }
    | none =>
      let g : GroupRun := { d := x, fmt := fm, row0 := p.1, col0 := p.2, rows := [(addr, row)] }
      if p.1 % b ≠ 0 then putCell d c (breakGroup (cellOf d c) e { g with row0 := p.1 / b * b })
      else modCell d c fun y => { y with group := some g }

/-- R217, R260: a VST reads its descriptor in t + 1 and acts by its FMT. -/
def vstRow (d : Dev) (c e addr desc f : Nat) (v : List W32) (m : W256) (x0 stamp : Nat) : Res Dev :=
  let (x, d) := readDesc d c desc
  if f < 3 then .ok (vstPlain d c e addr f x v m)
  else if f = 5 ∨ f = 6 then vstMoment d c e addr f x v m x0 stamp
  else if f = 9 then vstMaster d c e addr x v m x0 stamp
  else .ok (vstCopy d c e addr f x v m x0)

end Sys2Proof.Machine
end

