-- ==== Sys2Proof/Machine/Engine.lean ====
section
/-! DEFINITION. The cycle-exact domain of a cell (08_timing_contract.md, R274, R278): the effects that issued operations owe, run in the order of
their edges up to the edge that the cell has reached. -/
namespace Sys2Proof.Machine

/-- R254, R262, R322: the transfer that the bytes of DMA descriptor `q.dd` of cell `c` describe for the queue entry `q`. -/
def dmaOfDesc (bs : List Byte) (c : Nat) (q : DmaEntry) : Xfer :=
  let w (k : Nat) : Nat := leNat ((bs.drop (8 * k)).take 8)
  let ctl := w 5
  { id := q.id, cell := c, h := some q.h, prog := false, dd := q.dd, mode := fld ctl 47 46
    src := (fld (w 0) 47 0 + q.a) % 2 ^ 48, dst := (fld (w 1) 47 0 + q.b) % 2 ^ 48
    rows := fld (w 2) 47 32 + 1, rowBytes := fld (w 2) 23 0, spitch := fld (w 3) 31 0, dpitch := fld (w 4) 31 0
    fill := fld ctl 31 0, tsize := fld ctl 45 44, esize := fld ctl 43 42, cls := fld ctl 63 56
    sstash := bitAt ctl 41, dstash := bitAt ctl 40, region := fld ctl 39 33, rpos := 0, wpos := 0, buf := [], stamp := q.stamp, overflow := false
    cover := q.cover, paidR := [], paidW := [] }

/-- R262: the transfer of a PDMA: consecutive bundles from a device address. -/
def dmaOfProg (c : Nat) (q : DmaEntry) : Xfer :=
  { id := q.id, cell := c, h := some q.h, prog := true, dd := 0, mode := 0, src := q.a % 2 ^ 48, dst := 32 * q.first, rows := 1
    rowBytes := 32 * q.n, spitch := 0, dpitch := 0, fill := 0, tsize := 0, esize := 0, cls := 0, sstash := false, dstash := false
    region := 0, rpos := 0, wpos := 0, buf := [], stamp := q.stamp, overflow := false
    cover := q.cover, paidR := [], paidW := [] }

/-- The queue entry with its transfer's description. -/
def readDmaDesc (d : Dev) (c id : Nat) : Dev :=
  match (cellOf d c).dmaq.find? fun q => decide (q.id = id ∧ !q.pdma) with
  | none => d
  | some q =>
    let r := readFolio d c (0x3F_8000 + 64 * q.dd) 64
    modCell r.2 c fun x => { x with dmaq := x.dmaq.map fun p => if p.id = id then { p with x := some (dmaOfDesc r.1 c q) } else p }

/-- A mask with the bits named replaced (R205). -/
def maskWrite (m : W256) (xs : List (Nat × Bool)) : W256 :=
  xs.foldl (fun m p => if p.2 then m ||| (1#256 <<< p.1) else m &&& ~~~(1#256 <<< p.1)) m

/-- One effect of cell `c` at edge `e`. DEDUCED (log entry 34). -/
def runMicro (d : Dev) (c e : Nat) (op : Micro) : Res Dev :=
  match op with
  | .sreg r v => .ok (modCell d c fun x => sPut x r v)
  | .lanes v xs => .ok (modCell d c fun x => vPutL x v xs)
  | .mask m xs => .ok (modCell d c fun x => mPutMask x m (maskWrite (mGetMask x m) xs))
  | .laneEvents b evs => .ok (evs.foldl (fun d p => vxEvent d c e b p.1 p.2) d)
  | .laneUnspec v ls => .ok (laneUnspec d c v ls)
  | .load r sz addr => do
    let (bs, d) ← readPorts d c e addr sz
    pure (modCell d c fun x => schedRes x (e + 2) (e - 1) (.sreg r (BitVec.ofNat 64 (leNat bs))))
  | .store bs banks => storeFolio d c e bs banks
  | .storeLow off v => storeLow d c off v
  | .unspec addrs => .ok (wrUnspec (addrs.map (folioAddr c)) d)
  | .reduce r v iss => .ok (modCell (if r.acc && r.dv then vregEcc d c [r.a] else d) c fun x => reduceRead x e r v iss)
  | .vldHalf v a h int m => vldHalf d c e v a h int m
  | .vld v a desc f m => vldRow d c e v a desc f m
  | .vst a desc f v m x0 st => vstRow d c e a desc f v m x0 st
  | .pload desc p j vs => ploadStart d c e desc p j vs
  | .ploadRead k => ploadRead d c e k
  | .ploadDone => .ok (plinthDone d c)
  | .fwdDesc t => fwdDescRead d c t
  | .fwdPre t k => fwdPrePass d c e t k
  | .fwdVec t i => fwdVector d c e t i
  | .fwdVec2 t i a cs eb => fwdVector2 d c e t i a cs eb
  | .fwdPendStart => .ok (fwdNext d c e)
  | .accAdd b r clr cols => .ok (accAdd d c b r clr cols)
  | .accFree b r cols => .ok (accFree d c b r cols)
  | .residue k tid => .ok (residueFault d c k 0 tid)
  | .convDesc => convDescRead d c
  | .fcvtRow i => fcvtRow d c e i
  | .fdrainRow i => .ok (fdrainRow d c e i)
  | .convDone => .ok (convFree d c)
  | .bldStart x => bldStart d c e x
  | .bldRows x k => bldRows d c e x k
  | .bldDone x => bldDone d c e x
  | .bldyStart => bldyStart d c e
  | .bldyRows k => bldyRows d c e k
  | .bldyDone => .ok (bldyDone d c e)
  | .pairScan => .ok (pairScanned d c)
  | .bwdRow t i => .ok (bwdRow d c e t i)
  | .bwdPendStart => .ok (bwdNext d c e)
  | .invalids u b tid evs => .ok (invalidsFormed d c e u b tid evs)
  | .laccFree b r cols => .ok (laccFree d c b r cols)
  | .raccFree b sites => .ok (raccFree d c b sites)
  | .laccAdd b r clr cols => .ok (laccAdd d c e b r clr cols)
  | .laccSet b r xs => .ok (laccWrite d c b r xs)
  | .raccAdd b clr blk => .ok (raccAdd d c b clr blk)
  | .drainDesc => .ok (drainDesc d c)
  | .drainRow i => drainRow d c e i
  | .lfillWrite b r xs => .ok (lfillWrite d c e b r xs)
  | .lfillSet b r xs => .ok (laccWrite d c b r xs)
  | .drainDone => .ok (drainFree d c)
  | .dwDesc => .ok (dwDesc d c)
  | .dwRow i => dwRow d c e i
  | .dwDone => .ok (dwFree d c)
  | .solveRead => .ok (modCell (solveEcc d c) c solveRead)
  | .solveDone xs n => .ok (solveDone d c xs n)
  | .transFree => .ok (modCell d c fun x => { x with transBusy := false })
  | .dqDesc id => .ok (readDmaDesc d c id)

/-- The first effect that falls due at or before `e`, taken out of the list. -/
def takeDue (x : Cell) (e : Nat) : Option (Due × Cell) :=
  match x.due with
  | [] => none
  | u :: t => if u.edge ≤ e then some (u, { x with due := t }) else none

/-- Runs the effects of cell `c` that fall due up to edge `e`; `fuel` bounds their number. -/
def settleN : Nat → Dev → Nat → Nat → Res Dev
  | 0, d, _, _ => .ok d
  | fuel + 1, d, c, e =>
    match takeDue (cellOf d c) e with
    | none => .ok d
    | some (u, x) => do
      let d ← runMicro (putCell d c x) c u.edge u.op
      settleN fuel d c e

/-- More effects than any operation can owe within the edges that a command settles. -/
def settleFuel : Nat := 1_000_000

/-- The cell as it stands at edge `e`. -/
def settle (d : Dev) (c e : Nat) : Res Dev := settleN settleFuel d c e

end Sys2Proof.Machine
end

