-- ==== Sys2Proof/Machine/UnitTree.lean ====
section
/-! DEFINITION. The unit tree (01_unit_tree.md): kinds of ports, parents and members through composites, the subtree of a port, command queues with
fan-out and completion, hold counters of ports, and fault summaries. -/
namespace Sys2Proof.Machine

/-! ### Ports -/

/-- The kinds of ports (R23, R26). -/
inductive PortKind where
  | cell | gallery | wing | device | composite
  deriving DecidableEq, Repr

/-- R23, R24: the kind of a port index; reserved indices have none. -/
def portKind (p : Nat) : Option PortKind :=
  if p = 0 then some .device
  else if p < 5 then some .wing
  else if 8 ≤ p ∧ p < 56 then some .gallery
  else if 64 ≤ p ∧ p < 448 then some .cell
  else if 512 ≤ p ∧ p < 1024 then some .composite
  else none

/-- Is the port a cell's? -/
def isCell (p : Nat) : Bool := portKind p == some .cell

/-- What UP_GROUP[k] reads when the table has no entry: UP = 0x3FF (R53). -/
def groupDefault (_ : Nat) : W64 := 0x0000_00FF_C000_0000#64

/-- UP_GROUP[k] as it is in force. -/
def groupWord (d : Dev) (k : Nat) : Nat := (tabGet groupDefault d.groups k).toNat
/-- VALID. -/
def gValid (w : Nat) : Bool := bitAt w 40
/-- UP: the composite above. -/
def gUp (w : Nat) : Nat := fld w 39 30
/-- MEMBERS. -/
def gMembers (w : Nat) : Nat := fld w 29 18
/-- HOME. -/
def gHome (w : Nat) : Nat := fld w 17 11
/-- LEVEL. -/
def gLevel (w : Nat) : Nat := fld w 10 9

/-- R53: the port of the home unit of a composite of the level and home named. -/
def homePort (level home : Nat) : Nat := if level = 0 then 8 + home else if level = 1 then 1 + home else 0

/-- R53: the port of silicon child `j` of that home unit. -/
def memberPort (level home j : Nat) : Nat := if level = 0 then 64 + 8 * home + j else if level = 1 then 8 + 12 * home + j else 1 + j

/-- R25, R34: is the port in service: a silicon port of the active map, or a composite that is defined? -/
def portUp (d : Dev) (p : Nat) : Bool :=
  match portKind p with
  | none => false
  | some .composite => gValid (groupWord d (p - 512))
  | some _ => d.actMap.getLsbD p

/-- The silicon parent; the device port has none. -/
def siliconParent (p : Nat) : Option Nat :=
  match portKind p with
  | some .cell => some (8 + (p - 64) / 8)
  | some .gallery => some (1 + (p - 8) / 12)
  | some .wing => some 0
  | _ => none

/-- The composite that names a silicon port as its member (R55). -/
def holderOf (d : Dev) (p : Nat) : Option Nat :=
  (d.groups.find? fun e =>
    let w := e.2.toNat
    gValid w && (List.range 12).any fun j => bitAt (gMembers w) j && memberPort (gLevel w) (gHome w) j == p).map (·.1)

/-- R55: the parent of a port: the composite that contains it, or else its silicon parent or home unit. -/
def parentOf (d : Dev) (p : Nat) : Option Nat :=
  match portKind p with
  | some .composite =>
    let w := groupWord d (p - 512)
    if gUp w = 0x3FF then some (homePort (gLevel w) (gHome w)) else some (512 + gUp w)
  | some _ => match holderOf d p with | some k => some (512 + k) | none => siliconParent p
  | none => none

/-- The silicon children of a silicon port. -/
def siliconChildren (p : Nat) : List Nat :=
  match portKind p with
  | some .gallery => (List.range 8).map fun j => 64 + 8 * (p - 8) + j
  | some .wing => (List.range 12).map fun j => 8 + 12 * (p - 1) + j
  | some .device => (List.range 4).map fun j => 1 + j
  | _ => []

/-- R33, R44, R55: the members of a port that are in service: its silicon children and the composites whose parent it is. -/
def members (d : Dev) (p : Nat) : List Nat :=
  let comps := (d.groups.filter fun e => gValid e.2.toNat && parentOf d (512 + e.1) == some p).map fun e => 512 + e.1
  match portKind p with
  | none => []
  | some .cell => []
  | some .composite =>
    let w := groupWord d (p - 512)
    if gValid w then
      ((List.range 12).filter fun j => bitAt (gMembers w) j && portUp d (memberPort (gLevel w) (gHome w) j)).map
        (memberPort (gLevel w) (gHome w)) ++ comps
    else []
  | some _ => ((siliconChildren p).filter fun q => portUp d q && (holderOf d q).isNone) ++ comps

/-- Ports in service below a port, itself included; `fuel` bounds the depth. -/
def subtreeN : Nat → Dev → Nat → List Nat
  | 0, _, _ => []
  | fuel + 1, d, p => p :: (members d p).flatMap (subtreeN fuel d)

/-- The subtree of a port: device, wing, gallery and cell levels with at most eight composites between two of them (R53, R54). -/
def subtree (d : Dev) (p : Nat) : List Nat := subtreeN 32 d p

/-- The in-map cells of a subtree, by global number. -/
def cellsUnder (d : Dev) (p : Nat) : List Nat := (subtree d p).filterMap fun q => if isCell q && portUp d q then some (q - 64) else none

/-- The PARENT chain of a port up to the device port, itself first. -/
def chainN : Nat → Dev → Nat → List Nat
  | 0, _, _ => []
  | fuel + 1, d, p => p :: match parentOf d p with | some q => chainN fuel d q | none => []

/-- The PARENT chain. -/
def chain (d : Dev) (p : Nat) : List Nat := chainN 32 d p

/-- Offset of a register of a port's frame (R25). -/
def upReg (p off : Nat) : Nat := 0x200_0000 + p * 0x1000 + off

/-- R27: is a unit reset of this subtree in progress? -/
def resetting (d : Dev) (p : Nat) : Bool := (chain d p).any fun q => (portOf d q).wiping

/-! ### Hold counters of ports -/

/-- R36, R37, R265: counter `h` of port `p` is complete; a port that is not in service is complete at once. DESIGN CHOICE (log entry 39). -/
def portDone (d : Dev) (p h : Nat) : Bool := !portUp d p || (cellsUnder d p).all fun c => holdDone (cellOf d c) h

/-- R283: counter `h` of port `p` as WAITP sees it. -/
def portFar (d : Dev) (p h : Nat) : Bool := !portUp d p || (cellsUnder d p).all fun c => holdFar (cellOf d c) h

/-- R39, R36: adds to a cell's counter; a cell out of the map counts nothing (R59). -/
def countAt (d : Dev) (c : Nat) (q : Credit) : Dev := if portUp d (cellPort c) then modCell d c fun x => holdCredit x q else d

/-- An addition by one that no transfer of a cell's DMA queue stands behind. -/
def plainCredit (h : Nat) : Credit := { h := h, n := 1, know := [], nclk := none }

/-- R42: the hold limit that port `p` names, in wt; 0 names none, but at the device port the reset value. -/
def holdLimitAt (d : Dev) (p : Nat) : Nat :=
  let v := rgf d (upReg p 0x38) 31 0
  if p = 0 ∧ v = 0 then 0x98_9680 else v

/-- R42: the effective hold limit of a cell in wt. -/
def holdLimit (d : Dev) (c : Nat) : Nat := ((chain d (cellPort c)).map (holdLimitAt d)).find? (· != 0) |>.getD 0x98_9680

/-! ### Fault summaries -/

/-- R44: the summary of a port: its own bits and those of its members. -/
def faultSum (d : Dev) (p : Nat) : Nat := (subtree d p).foldl (fun a q => a ||| (portOf d q).own) 0

/-- UP_FAULT_SUM of a port (R43, R44). -/
def faultSumWord (d : Dev) (p : Nat) : W64 :=
  let s := faultSum d p
  BitVec.ofNat 64 ((if s = 0 then 0x3FF else (portOf d p).first) * 2 ^ 32 + s)

/-- The NCLK edge by which R15 compares events and writes of a port: its wing's; at the device port and composites the model takes the root's cycles by fours.
DESIGN CHOICE (log entry 39). -/
def portNclk (d : Dev) (p : Nat) : Nat :=
  match portKind p with
  | some .cell => nclkAt d (p - 64)
  | some .gallery => nclkOf (wingOf d ((p - 8) / 12))
  | some .wing => nclkOf (wingOf d (p - 1))
  | _ => d.root / 4

/-- The bits that events have set in a port in its present NCLK (R15). DESIGN CHOICE (log entry 39). -/
def newBits (d : Dev) (p : Nat) : Nat := let x := portOf d p; if x.news.1 = portNclk d p then x.news.2 else 0

/-- An event sets bits of a port (R15). -/
def markNew (d : Dev) (p bits : Nat) : Dev :=
  let k := portNclk d p
  let b := newBits d p ||| bits
  modPort d p fun x => { x with news := (k, b) }

/-- R43, R44: a fault sets bit `b` in port `p`; FIRST is set in every port above whose summary was all-zero. -/
def setFaultBit (d : Dev) (p b : Nat) : Dev :=
  let d := (chain d p).foldl (fun e q => if faultSum d q = 0 then modPort e q fun x => { x with first := p } else e) d
  modPort (markNew d p (2 ^ b)) p fun x => { x with own := x.own ||| 2 ^ b }

/-- R45, R15, R235: clears bits in a port and its subtree; clearing ILLEGAL clears the DCT_ILL record of its cells. -/
def clearFaults (d : Dev) (p bits : Nat) : Dev :=
  (subtree d p).foldl (fun d q =>
    let bits := bits &&& ((2 ^ 64 - 1) ^^^ newBits d q)
    let d := modPort d q fun x => { x with own := x.own &&& ((2 ^ 64 - 1) ^^^ bits) }
    if bitAt bits 4 && isCell q then modCell d (q - 64) fun x => { x with ill := none } else d) d

/-! ### Command queues -/

/-- OP of a command (R31). -/
def cmdOp (w : W64) : Nat := fld w.toNat 63 60
/-- H of a command. -/
def cmdH (w : W64) : Nat := fld w.toNat 59 55
/-- ARG of a command. -/
def cmdArg (w : W64) : Nat := fld w.toNat 47 0

/-- R34: REFUSED, at the device port when the target's frame reads as zero. -/
def refuse (d : Dev) (p : Nat) : Dev :=
  let q := if portUp d p then p else 0
  modPort (markNew d q (2 ^ 11)) q fun x => { x with refused := true }

/-- A queue accepts a command: it is the last one that the port shows (R31). DEDUCED (log entry 10). -/
def enqueue (d : Dev) (p : Nat) (w : W64) (parent : Option (Nat × Nat)) (know : List Nat) : Dev :=
  let (i, d) := newId d
  modPort d p fun x => { x with last := w, q := x.q ++ [{ id := i, cmd := w, parent := parent, out := none, begun := false, know := know }] }

/-- Has the queue no free entry (R28)? -/
def queueFull (d : Dev) (p : Nat) : Bool := decide (16 ≤ (portOf d p).q.length)

/-- R31, R34: a command offered to a port; `extra` is a further ground of refusal (R527), `know` what the sender had covered (R288). The answer tells whether it
was accepted. -/
def pushFrom (d : Dev) (p : Nat) (w : W64) (extra : Bool) (know : List Nat) : Bool × Dev :=
  if !portUp d p || decide (8 ≤ cmdOp w) || queueFull d p || resetting d p || extra then (false, refuse d p)
  else (true, enqueue d p w none know)

/-- A command offered by the driver or LAUNCH, which act after every transfer that has completed. DEDUCED (log entry 10). -/
def pushCmd (d : Dev) (p : Nat) (w : W64) (extra : Bool) : Bool × Dev := pushFrom d p w extra (d.ended.map (·.id))

/-- R30, R33: the entry `i` of port `p` completes: it leaves its queue, and the entry of which it is a copy counts one copy less and completes after the last.
`fuel` bounds the levels. -/
def completeN : Nat → Dev → Nat → Nat → Dev
  | 0, d, _, _ => d
  | fuel + 1, d, p, i =>
    match (portOf d p).q.find? fun e => e.id == i with
    | none => d
    | some e =>
      let d := modPort d p fun x => { x with q := x.q.filter fun u => u.id != i }
      match e.parent with
      | none => d
      | some (pp, pi) =>
        match (portOf d pp).q.find? fun u => u.id == pi with
        | none => d
        | some u => match u.out with
          | some (n + 2) =>
            modPort d pp fun x => { x with q := x.q.map fun v => if v.id == pi then { v with out := some (n + 1) } else v }
          | _ => completeN fuel d pp pi

/-- Completion through every level of the tree. -/
def complete (d : Dev) (p i : Nat) : Dev := completeN 32 d p i

/-- The command at the head of a port's queue. -/
def headCmd (d : Dev) (p : Nat) : Option PortCmd := (portOf d p).q.head?

/-- R33: is a command of this operation fanned out? -/
def fansOut (op : Nat) : Bool := op != 6 && op != 7

/-- R33: the command at the head of a port other than a cell's is copied to every member, or waits; with no member it completes at once. -/
def fanOut (d : Dev) (p : Nat) : Dev :=
  match headCmd d p with
  | none => d
  | some e =>
    if isCell p || !portUp d p || e.out.isSome || !fansOut (cmdOp e.cmd) then d
    else
      let ms := members d p
      if ms.any fun q => queueFull d q || resetting d q then d
      else if ms.isEmpty then complete d p e.id
      else
        let d := modPort d p fun x => { x with q := x.q.map fun u => if u.id == e.id then { u with out := some ms.length } else u }
        ms.foldl (fun d q => enqueue d q e.cmd (some (p, e.id)) e.know) d

/-- The head of a cell's queue when it has the operation named. -/
def headOp (d : Dev) (p op : Nat) : Option PortCmd :=
  match headCmd d p with
  | some e => if cmdOp e.cmd = op ∧ portUp d p then some e else none
  | none => none

/-! ### Status (R27) -/

/-- Does the docent of a cell run? -/
def docentRuns (d : Dev) (c : Nat) : Bool := (cellOf d c).running

/-- HOLDING: does the bundle of a running docent wait? -/
def docentWaits (d : Dev) (c : Nat) : Bool := (cellOf d c).running && (cellOf d c).wait.isSome

/-- IDLE of R27: no docent of the subtree runs and every queue in it is empty. -/
def portIdle (d : Dev) (p : Nat) : Bool := (subtree d p).all fun q => (portOf d q).q.isEmpty && !(isCell q && docentRuns d (q - 64))

/-- OP of a command's words (R472). -/
def opOf (ws : List W64) : Nat := fld (ws.getD 0 0).toNat 63 56

/-- R480, R482: has a PROGLOAD or a COPY been taken that is not complete? -/
def engineBusy (d : Dev) : Bool := d.host.tasks.any fun t => (opOf t.words == 7 || opOf t.words == 8) && t.accepted && !t.ownDone

/-- R56: the device is quiet: every port is idle and no DMA is outstanding. -/
def quiet (d : Dev) : Bool :=
  portIdle d 0 && (d.gals.all fun g => g.2.xs.isEmpty) && (d.cells.all fun c => c.2.dmaq.isEmpty) && !engineBusy d

end Sys2Proof.Machine
end

