-- ==== Sys2Proof/Machine/Trace.lean ====
section
/-! DEFINITION. The instruction trace (17_observation.md, R536–R549): records, runs, the gallery's trace buffer with its losses, and the trace funnel. -/
namespace Sys2Proof.Machine

/-- Bytes of a gallery's trace buffer: 256 KiB. -/
def traceBytes : Nat := 0x4_0000

/-- TRC registers of gallery `g` (R547). -/
def trcReg (g off : Nat) : Nat := 0x300_0000 + 32 * g + off

/-- Free bytes of a gallery's trace buffer. -/
def traceRoom (d : Dev) (g : Nat) : Nat := traceBytes - 8 * (galOf d g).trace.length

/-- UP_TRACE.MODE of a cell (R47). -/
def traceMode (d : Dev) (c : Nat) : Nat := rgf d (upReg (cellPort c) 0x28) 2 1

/-- R48: EN is 1 in the cell's port and in every port on its PARENT chain. -/
def funnelOn (d : Dev) (c : Nat) : Bool := portUp d (cellPort c) && (chain d (cellPort c)).all fun p => rgf d (upReg p 0x28) 0 0 == 1

/-- R545: does a mode write records of a type? -/
def modeWrites (mode type : Nat) : Bool :=
  if mode = 0 then true
  else if mode = 1 then type == 3 || type == 4 || type == 5 || type == 7 || type == 8 || type == 9
  else type == 4 || type == 7 || type == 8 || type == 9

/-- R549: when 8 bytes are free again a LOST record goes in first; its CELL field is not stated and is drawn. DESIGN CHOICE (log entry 48). -/
def putLost (d : Dev) (g : Nat) : Dev :=
  let x := galOf d g
  if x.dropped = 0 ∨ traceRoom d g < 8 then d
  else
    let (w, d) := drawWord d
    let rec9 := BitVec.ofNat 64 (9 * 2 ^ 60 + fld w.toNat 2 0 * 2 ^ 57 + min x.dropped (2 ^ 32 - 1))
    modGal d g fun y => { y with trace := y.trace ++ [rec9], dropped := 0, resync := List.range 8 }

/-- Words enter a gallery's buffer, or the record is dropped and counted (R549). -/
def putWords (d : Dev) (g : Nat) (ws : List Nat) : Dev :=
  let d := putLost d g
  if (galOf d g).dropped != 0 || decide (traceRoom d g < 8 * ws.length) then
    let d := putRg d (trcReg g 0x18) (BitVec.ofNat 64 (satAdd 64 (rg d (trcReg g 0x18)).toNat 1))
    modGal d g fun y => { y with dropped := y.dropped + 1 }
  else modGal d g fun y => { y with trace := y.trace ++ ws.map (BitVec.ofNat 64 ·) }

/-- Word 0 of a record of cell `c` (R539). -/
def traceW0 (c type body : Nat) : Nat := type * 2 ^ 60 + (c % 8) * 2 ^ 57 + body % 2 ^ 57

/-- SYNC or END (type 7 or 8) of a cell: WHY, CYC and WT. -/
def putTimed (d : Dev) (c type why cyc : Nat) : Dev :=
  let d := putWords d (galleryOfCell c) [traceW0 c type (why * 2 ^ 54 + cyc % 2 ^ 48), d.wt]
  modCell d c fun x => { x with tref := cyc }

/-- R549: the SYNC that a cell owes after a LOST record. -/
def resyncCell (d : Dev) (c cyc : Nat) : Dev :=
  let g := galleryOfCell c
  if (galOf d g).resync.contains (c % 8) then
    putTimed (modGal d g fun y => { y with resync := y.resync.filter (· != c % 8) }) c 7 2 cyc
  else d

/-- R539–R545: a record enters the buffer, if the funnel is on and its mode writes the type. -/
def emitRec (d : Dev) (c : Nat) (r : TraceRec) : Dev :=
  if !(cellOf d c).traceOn || !modeWrites (traceMode d c) r.type then d
  else
    let d := resyncCell (putLost d (galleryOfCell c)) c r.edge
    let d := if r.dcyc && decide (2 ^ 32 ≤ r.edge - (cellOf d c).tref) then putTimed d c 7 3 r.edge else d
    let dc := if r.dcyc then (r.edge - (cellOf d c).tref) % 2 ^ 32 else 0
    let d := putWords d (galleryOfCell c) (traceW0 c r.type (r.w0 + dc) :: (match r.w1 with | some w => [w] | none => []))
    modCell d c fun x => { x with tref := if r.dcyc || r.w1.isSome then r.edge else x.tref }

/-- R541, R543, R546: the open run ends: its record is written, and then the records that waited behind its reference edge. -/
def flushRun (d : Dev) (c : Nat) : Dev :=
  let x := cellOf d c
  match x.trun with
  | none => d
  | some r =>
    let d := putCell d c { x with trun := none, tpend := [] }
    let d := emitRec d c { type := if r.w then 2 else 1, edge := r.edge, w0 := r.first * 2 ^ 45 + (r.n - 1) * 2 ^ 32, w1 := none, dcyc := true }
    x.tpend.foldl (fun d t => emitRec d c t) d

/-- A record in the order of reference edges: behind the open run, or at once (R546). -/
def addRec (d : Dev) (c : Nat) (r : TraceRec) : Dev :=
  if (cellOf d c).trun.isSome then modCell d c fun x => { x with tpend := x.tpend ++ [r] } else emitRec d c r

/-- A SYNC or END record in that order. -/
def addTimed (d : Dev) (c type why cyc : Nat) : Dev :=
  addRec d c { type := type, edge := cyc, w0 := why * 2 ^ 54 + cyc % 2 ^ 48, w1 := some d.wt, dcyc := false }

/-- R541: a bundle issued at `edge` joins a run (`w` tells a run of W-class accesses); an 8,192nd issue ends it. Only MODE 0 has runs (R47, R545). -/
def joinRun (d : Dev) (c pc edge : Nat) (w : Bool) : Dev :=
  if traceMode d c ≠ 0 then d else
  let d := match (cellOf d c).trun with
    | some r => if r.w == w then d else flushRun d c
    | none => d
  let d := modCell d c fun x =>
    match x.trun with
    | some r => { x with trun := some { r with n := r.n + 1 } }
    | none => { x with trun := some { first := pc, n := 1, edge := edge, w := w } }
  match (cellOf d c).trun with
  | some r => if 8192 ≤ r.n then flushRun d c else d
  | none => d

/-- R537: a GAP record: the cause, the edge at which CYC stood, and the wall ticks missed. -/
def gapRec (d : Dev) (c cause dwt : Nat) : Dev :=
  let cyc := cellEdge d c
  emitRec (flushRun d c) c { type := 4, edge := cyc, w0 := cause * 2 ^ 54 + cyc % 2 ^ 48, w1 := some dwt, dcyc := false }

/-- R48, R544: a cell's funnel follows the enables on its chain: SYNC when it turns on, END when it turns off. -/
def updateFunnel (d : Dev) (c : Nat) : Dev :=
  let on := funnelOn d c
  let x := cellOf d c
  if on == x.traceOn then d
  else if on then
    let d := modCell d c fun y => { y with traceOn := true, trun := none, tpend := [], tsync := ticks d }
    addTimed d c 7 1 (cellEdge d c)
  else
    let d := flushRun d c
    let d := emitRec d c { type := 8, edge := cellEdge d c, w0 := cellEdge d c % 2 ^ 48, w1 := some d.wt, dcyc := false }
    modCell d c fun y => { y with traceOn := false }

/-- The funnels of every cell below a port. -/
def updateFunnels (d : Dev) (p : Nat) : Dev := (cellsUnder d p).foldl updateFunnel d

end Sys2Proof.Machine
end

