-- ==== Sys2Proof/Machine/Docent.lean ====
section
/-! DEFINITION. The docent (07_docent_isa.md, 08_timing_contract.md): fetch and legality, hold points, the issue of a bundle with every slot's
operation, the next address, loops and redirects, and the waits. -/
namespace Sys2Proof.Machine

/-! ### Fault requests of a docent -/

/-- DCT_ILL of an illegal bundle (R234). -/
def illWord (slot bundle : Nat) : W64 := BitVec.ofNat 64 (2 ^ 63 + slot * 2 ^ 12 + bundle)

/-- R244: an illegal bundle: DCT_ILL, ILLEGAL and the docent stops. -/
def illegalBundle (d : Dev) (c slot : Nat) : Dev :=
  let pc := (cellOf d c).pc
  let d := modCell (stopDocent (flushRun d c) c) c fun x => { x with ill := some (slot, pc) }
  raise d { kind := 5, sub := slot, port := cellPort c, bundle := some pc, addr := 0, detail := illWord slot pc, cell := some c, abandons := true }

/-! ### Fetch and legality -/

/-- DCT_CTL.KX7 of a cell (R234). -/
def kx7Mode (d : Dev) (c : Nat) : Bool := rgf d (0x048_0000 + 0x20 * c) 1 1 == 1

/-- The bundle at an address of a cell's program store. -/
def progWord (x : Cell) (a : Nat) : W256 := tabGet (fun _ => 0) x.prog a

/-- R244, R251: the bundle that a cell is about to issue, or its lowest-numbered illegal slot. -/
def fetch (d : Dev) (c : Nat) : Except Nat Bundle :=
  let x := cellOf d c
  match decodeBundle (progWord x x.pc).toNat x.pc (kx7Mode d c) with
  | .error s => .error s
  | .ok b => match b.scalar with
    | .loop _ _ _ _ _ => if x.loops.length = 4 then .error 7 else .ok b
    | _ => .ok b

/-- Is the bundle address `a` written by a program DMA of this cell that no hold point has covered (R237, case 1 of R297)? -/
def progUncovered (d : Dev) (c a : Nat) : Bool :=
  (liveXfers d ++ endedFor d (cellOf d c).known).any fun q => q.prog && q.cell == c && decide ((a + 4096 - q.dst / 32) % 4096 < q.rowBytes / 32)

/-! ### Registers written by a bundle (R242) -/

/-- The scalar register the scalar slot writes; 0 when it writes none. -/
def scalarDest : ScalarOp → Nat
  | .alu _ d _ _ => d
  | .aluImm _ d _ _ => d
  | .li d _ => d
  | .lih d _ _ => d
  | .fp _ d _ _ => d
  | .load _ _ d _ _ => d
  | .getwb d => d
  | .rdstamp d => d
  | .rdid d => d
  | .rdlc d _ => d
  | _ => 0

/-- The scalar register the vector slot writes; 0 when it writes none. -/
def vecScalarDest : Option VecOp → Nat
  | some o => (match o.op with | .vlaneget => o.d | .vsolve => o.d | _ => 0)
  | none => 0

/-- The vector register the vector slot writes. -/
def vecDest : Option VecOp → Option Nat
  | none => none
  | some o => match (vecKinds o.op).1 with
    | .vreg => if o.op == .vst then none else some o.d
    | _ => if o.op == .vsolve then some o.b else none

/-- R242, R206: do two slots write one register?. DEDUCED (log entry 6). -/
def doubleWrites (b : Bundle) : Bool :=
  let s := scalarDest b.scalar
  let v := vecScalarDest b.vec
  let r := match b.red with | some o => if o.dv then 0 else o.dst | none => 0
  (s != 0 && (s == v || s == r)) || (v != 0 && v == r)
    || (match b.red, vecDest b.vec with | some o, some q => o.dv && o.a == q | _, _ => false)

/-! ### Hold points (R267, R279, R280) -/

/-- R271: a scalar load in the CCLK after a W-class load waits. -/
def scalarReady (x : Cell) (e : Nat) : ScalarOp → Bool
  | .load _ _ _ _ _ => match x.lastW with | some t => t + 1 != e | none => true
  | _ => true

/-- R279: the local hold points of a bundle are met at edge `e`. -/
def localReady (x : Cell) (e : Nat) (b : Bundle) : Bool :=
  scalarReady x e b.scalar && fwdReady x b.fwd && bwdReady x b.bwd && vecReady x b.vec && redReady x b.red

/-- The awaited hold point that a bundle does not meet: SUB code of R520, counter and port; none when all are met (R280). -/
def awaited (d : Dev) (c : Nat) (b : Bundle) : Option (Nat × Nat × Nat) :=
  let x := cellOf d c
  let dmaFull := b.dma != .dnop && decide (8 ≤ x.dmaq.length)
  if dmaFull then some (4, 0, 0)
  else if x.started && inStep d && !d.scl.ready then some (5, 0, 0)
  else match b.sync with
  | .waith h => if holdSeen x h then none else some (1, h, 0)
  | .waitp h p =>
    let q := fld (sGet x p).toNat 9 0
    if portFar d q h then none else some (2, h, q)
  | .pcmd s p =>
    let q := fld (sGet x p).toNat 9 0
    if portUp d q && decide (cmdOp (sGet x s) < 8) && (queueFull d q || resetting d q) then some (3, 0, q) else none
  | _ => none

/-! ### The scalar slot -/

/-- R246: an integer operation. -/
def saluOp (o : SAlu) (a b : W64) : W64 :=
  let sh := b.toNat % 64
  match o with
  | .add => a + b
  | .sub => a - b
  | .and => a &&& b
  | .or => a ||| b
  | .xor => a ^^^ b
  | .shl => a <<< sh
  | .shr => a >>> sh
  | .sra => a.sshiftRight sh
  | .mul => a * b
  | .min => if a.toInt ≤ b.toInt then a else b
  | .max => if b.toInt ≤ a.toInt then a else b
  | .slt => if a.toInt < b.toInt then 1 else 0
  | .sltu => if a.toNat < b.toNat then 1 else 0
  | .seq => if a = b then 1 else 0

/-- R246: visibility of an integer operation. -/
def saluLatency : SAlu → Nat
  | .mul => 3
  | _ => 1

/-- R246: a scalar P32 operation. -/
def sfpOp (o : SFp) (a b : W32) : W32 :=
  match o with
  | .fadd => p32Add a b
  | .fsub => p32Sub a b
  | .fmul => p32Mul a b

/-- R249: a branch condition. -/
def brTaken (k : BrCond) (a : W64) : Bool :=
  match k with
  | .always => true
  | .zero => a == 0
  | .nonzero => a != 0
  | .negative => a.msb

/-- R247: the folio address of a plain scalar access. -/
def scalarAddr (a imm : W64) (sz : Nat) : Nat := (a + imm).toNat / sz * sz

/-- R269: the folio address of a W-class access. -/
def windowAddr (wb : Nat) (a imm : W64) (sz : Nat) : Nat := (wb * 4096 + ((a + imm).toNat % 65536) / sz * sz) % folioSize

/-- R273: does a DMA target the window that starts at page `wb`?. DEDUCED (log entry 6). -/
def windowTargeted (d : Dev) (c wb : Nat) : Bool :=
  let off := wb * 4096
  let n := min 65536 (folioSize - off)
  (liveXfers d).any fun q => xferMeets q false (folioAddr c off) n
    || (decide (n < 65536) && xferMeets q false (folioAddr c 0) (65536 - n))

/-- Where issue goes on after the scalar slot: as R252 has it, past END of a loop with count 0 (R251), or nowhere (HALT). -/
inductive Flow where
  | next
  | skipTo (n : Nat)
  | halt
  deriving DecidableEq, Repr

/-- R245–R253: the scalar slot's operation at edge `t`; `d` is the device as it stands. -/
def issueScalar (d : Dev) (c : Nat) (x : Cell) (t : Nat) (o : ScalarOp) : Res (Cell × Flow) :=
  let res (lat r : Nat) (v : W64) : Res (Cell × Flow) := .ok (schedRes x (t + lat) t (.sreg r v), .next)
  match o with
  | .snop => .ok (x, .next)
  | .alu op r a b => res (saluLatency op) r (saluOp op (sGet x a) (sGet x b))
  | .aluImm op r a imm => res 1 r (saluOp op (sGet x a) imm)
  | .li r imm => res 1 r imm
  | .lih r a imm => res 1 r (imm.setWidth 64 <<< 32 ||| (sLow x a).setWidth 64)
  | .fp op r a b => res 4 r ((sfpOp op (sLow x a) (sLow x b)).setWidth 64)
  | .load w sz r a imm =>
    let addr := if w then windowAddr x.winbase (sGet x a) imm sz else scalarAddr (sGet x a) imm sz
    if folioSize ≤ addr then .error .outOfRange
    else .ok (sched { x with lastW := if w then some t else x.lastW } (t + 1) 2 (.load r sz addr), .next)
  | .store w sz r a imm =>
    let addr := if w then windowAddr x.winbase (sGet x a) imm sz else scalarAddr (sGet x a) imm sz
    if folioSize ≤ addr then .error .outOfRange
    else .ok (sched x (t + 1) 1 (.store (atOff addr (leBytes sz (sGet x r).toNat)) (banksOf addr sz)), .next)
  | .setwb a =>
    let v := fld (sGet x a).toNat 21 12
    let before := match x.winPend.getLast? with | some r => r.value | none => x.winbase
    if v ≠ before ∧ windowTargeted d c x.winbase then .error .windowMove
    else .ok ({ x with winPend := x.winPend ++ [{ value := v, left := 3 }] }, .next)
  | .getwb r => res 1 r (BitVec.ofNat 64 (x.winbase * 4096))
  | .rdstamp r => res 1 r (BitVec.ofNat 64 (readStamp d))
  | .rdid r => res 1 r (BitVec.ofNat 64 (myDev d * 65536 + c))
  | .rdlc r n => res 1 r ((lcGet x n).setWidth 64)
  | .br k a target =>
    .ok (if brTaken k (sGet x a) then { x with redirects := x.redirects ++ [{ value := target, left := 2 }] } else x, .next)
  | .loop l fromReg a count stop =>
    let n : W32 := if fromReg then sLow x a else BitVec.ofNat 32 count
    if n = 0 then .ok (x, .skipTo ((stop + 1) % 4096))
    else .ok ({ lcPut x l n with loops := { ctr := l, start := (x.pc + 1) % 4096, stop := stop } :: x.loops }, .next)
  | .halt => .ok (x, .halt)

/-! ### The next address (R249–R252) -/

/-- Is address `n` in the body of a loop? -/
def inBody (l : LoopEntry) (n : Nat) : Bool := decide ((n + 4096 - l.start) % 4096 ≤ (l.stop + 4096 - l.start) % 4096)

/-- R252: the loops that end at `a`, innermost first: counters, and the loop back if one goes on. -/
def loopBack (a : Nat) : List LoopEntry → Cell → Option Nat × Cell
  | [], x => (none, x)
  | l :: t, x =>
    if l.stop ≠ a then (none, x)
    else if 1 < (lcGet x l.ctr).toNat then (some l.start, lcPut x l.ctr (lcGet x l.ctr - 1))
    else loopBack a t (lcPut x l.ctr 0)

/-- R252: pops the loops whose body does not contain `n`. -/
def popLoops (n : Nat) : List LoopEntry → List LoopEntry
  | [] => []
  | l :: t => if inBody l n then l :: t else popLoops n t

/-- R249, R251, R252: the cell with its next address after the bundle at its PC; the answer tells whether a redirect took effect. -/
def advance (x : Cell) (flow : Flow) : Cell × Bool :=
  let dec (l : List Delayed) : List Delayed := l.map fun r => { r with left := r.left - 1 }
  match x.redirects with
  | r :: rest =>
    if r.left = 0 then ({ x with pc := r.value, redirects := dec rest, loops := popLoops r.value x.loops }, true)
    else
      let q := match flow with | .skipTo n => (some n, x) | _ => loopBack x.pc x.loops x
      let n := q.1.getD ((x.pc + 1) % 4096)
      ({ q.2 with pc := n, redirects := dec x.redirects, loops := popLoops n x.loops }, false)
  | [] =>
    let q := match flow with | .skipTo n => (some n, x) | _ => loopBack x.pc x.loops x
    let n := q.1.getD ((x.pc + 1) % 4096)
    ({ q.2 with pc := n, loops := popLoops n x.loops }, false)

/-- R270: one more issue has passed. -/
def advanceWindow (x : Cell) : Cell := { x with winPend := x.winPend.map fun r => { r with left := r.left - 1 } }

/-- R270, R273: a bundle begins to issue: the WINBASE whose third issue this is comes into force; the window must not move while a DMA targets its bytes. -/
def moveWindow (d : Dev) (c : Nat) : Res Dev :=
  let x := cellOf d c
  match x.winPend.filter fun r => r.left == 0 with
  | [] => .ok d
  | r :: _ =>
    if r.value ≠ x.winbase ∧ windowTargeted d c x.winbase then .error .windowMove
    else .ok (putCell d c { x with winbase := r.value, winPend := x.winPend.filter fun q => q.left != 0 })

/-! ### DMA and sync slots -/

/-- R364: a DQ queued while the update sweep runs is one of the sweep's writes. DEDUCED (log entry 40). -/
def noteSweep (d : Dev) (id : Nat) : Dev := if sweeping d then { d with sweep := d.sweep ++ [{ slot := 1 - stPub d, id := id, peer := false }] } else d

/-- R263: DQ and PDMA enter the cell's DMA queue at issue; a DQ's descriptor is read in the next CCLK (R254). -/
def issueDma (d : Dev) (c t : Nat) (o : DmaOp) : Dev :=
  match o with
  | .dnop => d
  | .dq dd a b h =>
    let (i, d) := newId d
    let d := noteSweep d i
    modCell d c fun x =>
      let q : DmaEntry := { id := i, slot := 2 ^ 36 + dd * 2 ^ 28 + a * 2 ^ 23 + b * 2 ^ 18 + h * 2 ^ 13, pdma := false, dd := dd, first := 0, n := 0, a := (sGet x a).toNat, b := (sGet x b).toNat, h := h
                            stamp := readStamp d, cover := x.known, x := none }
      sched { x with dmaq := x.dmaq ++ [q] } (t + 1) 2 (.dqDesc i)
  | .pdma first a n h =>
    let (i, d) := newId d
    modCell d c fun x =>
      let q : DmaEntry := { id := i, slot := 2 ^ 37 + first * 2 ^ 24 + a * 2 ^ 19 + (n - 1) * 2 ^ 11 + h * 2 ^ 6, pdma := true, dd := 0, first := first, n := n
                            a := fld (sGet x a).toNat 47 0, b := 0, h := h, stamp := readStamp d, cover := x.known, x := none }
      { x with dmaq := x.dmaq ++ [{ q with x := some (dmaOfProg c q) }] }

/-- R288: the transfers that a wait on counter `h` of port `p` covers. -/
def portCovers (d : Dev) (p h : Nat) : List Nat := if portUp d p then (cellsUnder d p).flatMap fun c => coveredBy d c h else []

/-- R264–R266, R288, R367: the sync slot; `extra` is a further ground to refuse a pushed command (R527). -/
def issueSync (d : Dev) (c e : Nat) (pc : Nat) (extra : Bool) (o : SyncOp) : Dev :=
  match o with
  | .none => d
  | .waith h => modCell d c fun x => learn d x (coveredBy d c h)
  | .waitp h p => modCell d c fun x => learn d x (portCovers d (fld (sGet x p).toNat 9 0) h)
  | .seth h s => modCell d c fun x => holdStart x h 0 (sLow x s).toNat fun q => q.nclk.any fun n => n / 2 == nclkAt d c / 2
  | .inch h s => modCell d c fun x => holdCredit x { h := h, n := (sLow x s).toNat, know := x.known, nclk := none }
  | .pcmd s p =>
    let x := cellOf d c
    (pushFrom d (fld (sGet x p).toNat 9 0) (sGet x s) (extra && cmdOp (sGet x s) == 6) x.known).2
  | .mark v =>
    let d := modCell d c fun x => { x with visiting := if v = 0x1FFE then true else if v = 0x1FFF then false else x.visiting }
    addRec d c { type := 5, edge := e, w0 := v * 2 ^ 44 + pc * 2 ^ 32, w1 := none, dcyc := true }

/-! ### Issue -/

/-- Does a bundle contain a W-class access (R541)? -/
def isW : ScalarOp → Bool
  | .load w _ _ _ _ => w
  | .store w _ _ _ _ => w
  | _ => false

/-- R32, R33: the first bundle at START's address has issued: START completes. -/
def completeStart (d : Dev) (c : Nat) : Dev :=
  match headOp d (cellPort c) 1 with
  | some e => if e.begun then complete d (cellPort c) e.id else d
  | none => d

/-- R541–R543: the trace of an issued bundle: a HOLD record for one that waited at an awaited hold point, else a place in a run. -/
def traceIssue (d : Dev) (c e pc : Nat) (b : Bundle) (w : Option Wait) (waited : Nat) (loopN : Option Nat) : Dev :=
  if !(cellOf d c).traceOn then d
  else
    let d := match w with
      | some q =>
        if q.sub = 0 then joinRun d c pc e (isW b.scalar)
        else
          let h := if q.sub ≤ 2 then q.h else 0
          emitRec (flushRun d c) c
            { type := 3, edge := e, w0 := pc * 2 ^ 45 + q.sub * 2 ^ 42 + h * 2 ^ 37 + waited % 2 ^ 37, w1 := some (e % 2 ^ 48), dcyc := false }
      | none => joinRun d c pc e (isW b.scalar)
    match loopN with
    | some n => addRec d c { type := 6, edge := e, w0 := pc * 2 ^ 45 + n, w1 := none, dcyc := false }
    | none => d

/-- The wait of a bundle so far in wall ticks (R284). -/
def waitTicks (d : Dev) (w : Wait) : Nat := ticks d - w.since - w.gated

/-- R285: has the wait of the bundle of cell `c` exceeded the effective hold limit? -/
def overdue (d : Dev) (c : Nat) : Bool :=
  match (cellOf d c).wait with
  | some w => w.sub != 0 && (cellOf d c).running && decide (holdLimit d c < waitTicks d w)
  | none => false

/-- R240: a bundle issues at edge `e`: every slot reads its registers and begins, and the next address is found. -/
def issueBundle (d : Dev) (c e : Nat) (b : Bundle) (extra : Bool) : Res Dev := do
  if doubleWrites b then throw .doubleWrite
  let x := cellOf d c
  let pc := x.pc
  if progUncovered d c pc then throw .uncoveredDma
  let d ← moveWindow d c
  let d := vregEcc d c ((match b.vec with | some o => vecReads o | none => []) ++ match b.red with | some r => [r.a] | none => [])
  let waited := match x.wait with | some w => waitTicks d w | none => 0
  let loopN := match b.scalar with | .loop _ true a _ _ => some (sLow x a).toNat | _ => none
  let d := traceIssue d c e pc b x.wait waited loopN
  let x := cellOf d c
  -- what the step report counts of awaited waits (R486), and CNT_ISSUE (R555)
  let aw := match x.wait with | some w => w.sub != 0 | none => false
  let x := if aw && inStep d then { x with hwait := x.hwait + waited, hmax := max x.hmax waited, hcnt := x.hcnt + 1 } else x
  let x := if counting d then { x with nIssue := x.nIssue + 1 } else x
  let x := { x with wait := none, nextEdge := e + 1 }
  let (x, flow) ← issueScalar d c x e b.scalar
  let x := issueForward x e b.fwd
  let x := issueBackward x e b.bwd
  let x := match b.vec with | some o => issueVector x e (workStamp d) o | none => x
  let x := match b.red with | some o => issueReduce x e o | none => x
  let d := putCell d c x
  let d := issueDma d c e b.dma
  let d := issueSync d c e pc extra b.sync
  let d := if x.started then completeStart (modCell d c fun y => { y with started := false }) c else d
  let y := cellOf d c
  match flow with
  | .halt =>
    let d := putCell d c { advanceWindow y with pc := (pc + 1) % 4096, loops := [], redirects := [], running := false }
    pure (flushRun d c)
  | f =>
    let r := advance y f
    let d := putCell d c (advanceWindow r.1)
    pure (if r.2 then flushRun d c else d)

/-- The cell, not receiving the edge `e`, waits at an awaited hold point (R280); its run of the trace ends (R541). -/
def holdCell (d : Dev) (c e : Nat) (w : Nat × Nat × Nat) : Dev :=
  modCell (flushRun d c) c fun x =>
    let since := match x.wait with | some q => q.since | none => ticks d
    let gated := match x.wait with | some q => q.gated | none => 0
    { x with frozen := some (e - 1), wait := some { sub := w.1, h := w.2.1, port := w.2.2, since := since, gated := gated }
             gateWt := if x.gatedNow then ticks d else x.gateWt }

/-- R279: the bundle fails a local hold condition at edge `e`. -/
def waitLocal (d : Dev) (c e : Nat) : Dev :=
  let n := if counting d then 1 else 0
  modCell d c fun x =>
    { x with nextEdge := e + 1, nLocal := x.nLocal + n
             wait := match x.wait with
               | some q => some { q with sub := 0 }
               | none => some { sub := 0, h := 0, port := 0, since := ticks d, gated := 0 } }

/-- R240, R279–R281, R293: the bundle at PC at each edge up to `last`, until it issues or is held; `fuel` bounds the edges. -/
def tryIssue : Nat → Dev → Nat → Nat → Bool → Res Dev
  | 0, d, _, _, _ => .ok d
  | fuel + 1, d, c, last, extra => do
    let e := (cellOf d c).nextEdge
    if last < e then pure d
    else
      -- the device as it would stand if the cell received edge `e`
      let s ← settle d c e
      let (bad, s) := eccFetch s c (cellOf s c).pc
      if bad then pure s
      else match fetch s c with
      | .error k => pure (illegalBundle s c k)
      | .ok b =>
        if !localReady (cellOf s c) e b then tryIssue fuel (waitLocal s c e) c last extra
        else match awaited s c b with
        | some w => do
          let d ← settle d c (e - 1)
          pure (holdCell d c e w)
        | none =>
          if (cellOf s c).gatedNow then do
            let d ← settle d c (e - 1)
            pure (modCell d c fun x => { x with frozen := some (e - 1), gateWt := ticks d })
          else issueBundle s c e b extra

/-- The last edge at which the bundle at PC may be looked at: of a held cell, the edge that it would receive next. -/
def lookEdge (d : Dev) (c : Nat) : Nat :=
  match (cellOf d c).frozen with
  | some _ => (cellOf d c).nextEdge
  | none => cellEdge d c

/-- A held cell as it stands if it receives edges again from `nextEdge` on: its next edge is the wing's current one. -/
def resumeCell (d : Dev) (c : Nat) : Dev :=
  match (cellOf d c).frozen with
  | none => d
  | some _ => modCell d c fun x => { x with frozen := none, base := (wingOf d (wingOfCell c)).edges - x.nextEdge }

/-- BUNDLE_ISSUE (R240): the docent of cell `c` looks at the bundle at its PC. One whose wait has exceeded the hold limit does not issue (R285); a gated cell
that receives no edges issues nothing (R293). -/
def bundleIssue (d : Dev) (c : Nat) (extra : Bool) : Res Dev :=
  let x := cellOf d c
  if !x.running || !portUp d (cellPort c) || overdue d c || (x.gatedNow && x.frozen.isSome) then .ok d
  else
    let d := resumeCell d c
    tryIssue (lookEdge d c + 1) d c (lookEdge d c) extra

/-- R32, R253, R367, R544: START begins: empty loop stack and redirect queue, visiting hours closed, SYNC. DEDUCED (log entry 30). -/
def startDocent (d : Dev) (c addr : Nat) : Dev :=
  let d := flushRun d c
  let e := cellEdge d c
  let d := modCell d c fun x =>
    { x with running := true, started := true, loops := [], redirects := [], pc := addr % 4096, visiting := false, wait := none
             nextEdge := max (if x.frozen.isSome then e + 1 else e) x.nextEdge }
  addTimed d c 7 0 ((cellOf d c).nextEdge)

end Sys2Proof.Machine
end

