-- ==== Sys2Proof/Machine/Dma.lean ====
section
/-! DEFINITION. Gallery DMA engines, the almanac and the archive (09_stores_and_almanac.md): the address map, HBM and depot ports, slot classes, the
pieces of a transfer, stash targets, DMA faults and completion. -/
namespace Sys2Proof.Machine

/-! ### Address map (R303–R305, R315, R316, R320) -/

/-- Where a device address lies. -/
inductive Place where
  | hbm (off : Nat)
  | depot (off : Nat)
  | gstore (g off : Nat)
  | folio (c off : Nat)
  | host (off : Nat)
  | range
  | bad
  deriving DecidableEq, Repr

/-- N: the used depot channels in ascending order (R318). -/
def depotChans (d : Dev) : List Nat := (List.range 8).filter fun c => bitAt (rg d 0x30A_0000).toNat (40 + c)

/-- N × C in bytes (R318, R321). -/
def depotSize (d : Dev) : Nat := (depotChans d).length * rgf d 0x30A_0000 15 0 * 2 ^ 30

/-- R303–R305: the region of an address; `bad` is what R304 faults on, `range` what R305 leaves undefined. -/
def place (d : Dev) (a : Nat) : Place :=
  if a < hbmSize then .hbm a
  else if depotBase ≤ a ∧ a < depotBase + depotSize d then .depot (a - depotBase)
  else if galleryBase ≤ a ∧ a < galleryBase + 48 * 0x400_0000 then
    (let o := a - galleryBase; if o % 0x400_0000 < 0x200_0000 then .gstore (o / 0x400_0000) (o % 0x400_0000) else .range)
  else if folioBase ≤ a ∧ a < folioBase + 384 * 0x80_0000 then
    (let o := a - folioBase; if o % 0x80_0000 < folioSize then .folio (o / 0x80_0000) (o % 0x80_0000) else .range)
  else if hostBase ≤ a ∧ a < hostBase + 2 ^ 44 then .host (a - hostBase)
  else .bad

/-- The home-stack region of an HBM address: base and slice size (R316). -/
def homeRegion (d : Dev) (a : Nat) : Option (Nat × Nat) :=
  ((List.range 16).filterMap fun n =>
    let w := (rg d (0x30A_0100 + 8 * n)).toNat
    let b := fld w 24 0 * 0x8000
    let s := fld w 56 32 * 0x1000
    if bitAt w 63 && decide (b ≤ a ∧ a < b + 8 * s) then some (b, s) else none).head?

/-- R315, R316: stack and offset of an HBM address. -/
def hbmMap (d : Dev) (a : Nat) : Nat × Nat :=
  match homeRegion d a with
  | some (b, s) => ((a - b) / s, b / 8 + (a - b) % s)
  | none => (fld a 14 12, a / 0x8000 * 0x1000 + a % 0x1000)

/-- R314, R315: global number of the pseudo-channel of an HBM address. -/
def hbmPort (d : Dev) (a : Nat) : Nat := let m := hbmMap d a; 64 * m.1 + fld m.2 11 6

/-- R320: channel, half and offset within the channel of a depot offset. -/
def depotMap (d : Dev) (a : Nat) : Nat × Nat × Nat :=
  let cs := depotChans d
  let u := a / 256
  let off := u / cs.length * 256 + a % 256
  (cs.getD (u % cs.length) 0, off / 128 % 2, off)

/-- R319: the subchannel of a depot offset. -/
def depotPort (d : Dev) (a : Nat) : Nat := let m := depotMap d a; 2 * m.1 + m.2.1

/-- R51, R59, R527: is the memory that holds the place blocked or out of the map? `phase` 2 is the wipe of a compute or warm reset. -/
def blockedPlace (d : Dev) (p : Place) : Bool :=
  let wiping := rgf d 0x40_0010 5 4 == 2
  match p with
  | .hbm _ => wiping
  | .depot _ => wiping
  | .gstore g _ => wiping || !portUp d (galleryPort g) || resetting d (galleryPort g)
  | .folio c _ => wiping || !portUp d (cellPort c) || resetting d (cellPort c)
  | _ => false

/-! ### Reads and writes of DMA engines -/

/-- BRK_STAT.STATE: is the host link up (R460)? -/
def hostUp (d : Dev) : Bool := rgf d 0x20_1000 9 8 == 2

/-! ### Coefficient table (R403, R405) -/

/-- Address of coefficient entry `n`. -/
def coefAddr (d : Dev) (n : Nat) : Nat := rgf d 0x30B_1000 47 23 * 0x80_0000 + 128 * n

/-- R405, R297 case 10: do the bytes written at `a` change the coefficient table: an entry that is VALID, or becomes so? DEDUCED (log entry 6). -/
def coefHit (d : Dev) (a : Nat) (bs : List Byte) : Bool :=
  let base := coefAddr d 0
  bs.zipIdx.any fun (b, i) =>
    let p := a + i
    decide (base ≤ p ∧ p < base + 0x80_0000)
      && (bitAt (rdB d (p - (p - base) % 128 + 7)).toNat 7 || ((p - base) % 128 == 7 && bitAt b.toNat 7))

/-- R405: a write during the sweep must not change the coefficient table. DEDUCED (log entry 6). -/
def coefGuard (d : Dev) (a : Nat) (bs : List Byte) : Res Unit := if sweeping d && coefHit d a bs then .error .coefWrite else .ok ()

/-! ### Engine reads and writes -/

/-- R462: a device read of host bytes allocates the lines that hold them. -/
def lineAlloc (d : Dev) (a n : Nat) : Dev :=
  if n = 0 then d
  else
    let ls := (List.range ((a % 64 + n - 1) / 64 + 1)).map fun i => a / 64 + i
    let all := (d.hostLines.filter fun l => !ls.contains l) ++ ls
    { d with hostLines := all.drop (all.length - 0x4_0000) }

/-- R462, R463: a write invalidates the copies of its lines. -/
def lineDrop (d : Dev) (a n : Nat) : Dev :=
  { d with hostLines := d.hostLines.filter fun l => !decide (a / 64 ≤ l ∧ l * 64 < a + n) }

/-- A read by a device engine of `n` bytes that lie in one place (R51, R59, R462, R527). -/
def engRead (d : Dev) (a n : Nat) : List Byte × Dev :=
  let p := place d a
  if blockedPlace d p then drawBytes n d
  else match p with
    | .host _ => (rdBytes d a n, lineAlloc d a n)
    | .bad => drawBytes n d
    | .range => drawBytes n d
    | _ => eccRead d a (rdBytes d a n)

/-- A write by a device engine of bytes that lie in one place (R51, R59, R462, R527). -/
def engWrite (d : Dev) (a : Nat) (bs : List Byte) : Dev :=
  let p := place d a
  if blockedPlace d p then d
  else match p with
    | .host _ => wrBytes (lineDrop d a bs.length) a bs
    | .bad => d
    | .range => d
    | _ => wrBytes d a bs

/-! ### Almanac (R328–R336) -/

/-- A class table entry in fields (R331). -/
structure SlotClass where
  valid : Bool
  dir : Nat
  cross : Bool
  prog : Bool
  owner : Nat
  deriving DecidableEq, Repr

/-- R331. -/
def classOf (w : Nat) : SlotClass :=
  { valid := bitAt w 31, dir := fld w 30 29, cross := bitAt w 28, prog := bitAt w 27, owner := fld w 21 16 }

/-- R330: the refresh positions of an HBM timetable. -/
def hbmRefresh (s : Nat) : Bool :=
  decide (s < 16) || decide (341 ≤ s ∧ s < 357) || decide (682 ≤ s ∧ s < 698) || decide (1023 ≤ s ∧ s < 1039)

/-- R330: the refresh positions of a depot timetable. -/
def depotRefresh (s : Nat) : Bool := s % 128 == 0

/-- R336: the class table entry in force. The base almanac has one class, at code 0x10 (R461). -/
def almClass (d : Dev) (e : Nat) : SlotClass :=
  match d.alm with
  | some t => classOf (t.classes.getD e 0)
  | none => { valid := e == 16, dir := 2, cross := true, prog := false, owner := 49 }

/-- The code of slot `s` of a memory port: pseudo-channels 0–511, then subchannels from 512 (R328, R336). -/
def slotCode (d : Dev) (port s : Nat) : Nat :=
  match d.alm with
  | some t => if port < 512 then (t.hbm.getD port []).getD s 0 else (t.depot.getD (port - 512) []).getD s 0
  | none => if (if port < 512 then hbmRefresh s else depotRefresh s) then 1 else 16

/-- Slots per period of a port (R328). -/
def slotCount (port : Nat) : Nat := if port < 512 then 1365 else 512

/-- R328: MCLK runs at 1.4 GHz, one period of six root cycles, and a period starts with the almanac (R499); the slot of a port that the current MCLK belongs to, and the MCLK it begins at. -/
def slotNow (d : Dev) (port : Nat) : Option (Nat × Nat) :=
  let m := d.root / 6
  let k := (m - d.almBase) % 4096
  let len := if port < 512 then 3 else 8
  if port < 512 ∧ k = 4095 then none else some (k / len, m - k % len)

/-- R331, R332: does a class serve a direction? -/
def dirOk (k : SlotClass) (write : Bool) : Bool := k.dir == 2 || k.dir == (if write then 1 else 0)

/-- R333: is an access of owner `o` to a memory port a crossing one? -/
def crossing (o port : Nat) : Bool := decide (48 ≤ o) || decide (512 ≤ port) || port / 128 != o / 12

/-- R332, R333: class `e` is granted to owner `o` for a direction on a port. DEDUCED (log entry 6). -/
def classGranted (d : Dev) (e o : Nat) (write : Bool) (port : Nat) : Bool :=
  let k := almClass d e
  decide (16 ≤ e) && k.valid && k.owner == o && dirOk k write && k.cross == crossing o port && (List.range (slotCount port)).any fun s => slotCode d port s == e

/-- R332, R333: owner `o` has a class for a direction on a port. -/
def ownerGranted (d : Dev) (o : Nat) (write : Bool) (port : Nat) : Bool := (List.range 256).any fun e => classGranted d e o write port

/-- The memory port of a place; none where no slot is needed. -/
def placePort (d : Dev) : Place → Option Nat
  | .hbm o => some (hbmPort d o)
  | .depot o => some (512 + depotPort d o)
  | _ => none

/-- R332: can owner `o` move `n` bytes from address `a` in a direction: has it a class on each memory port that they touch? The moment is the sender's.
DESIGN CHOICE (log entry 12). -/
def ownerMay (d : Dev) (o : Nat) (write : Bool) (a n : Nat) : Bool :=
  (List.range (if n = 0 then 0 else (a % 64 + n - 1) / 64 + 1)).all fun i =>
    match placePort d (place d (if i = 0 then a else (a / 64 + i) * 64)) with
    | some p => ownerGranted d o write p
    | none => true

/-- A slot of code `e` is there for a piece now: the port's current slot has the code and has carried no piece. DESIGN CHOICE (log entry 12). -/
def slotFree (d : Dev) (e port : Nat) : Bool :=
  match slotNow d port with
  | some (s, m) => slotCode d port s == e && tabGet (fun _ => 0) d.slotUsed port != m + 1
  | none => false

/-- The current slot of a port carries a piece. -/
def takeSlot (d : Dev) (port : Nat) : Dev :=
  match slotNow d port with
  | some (_, m) => { d with slotUsed := tabPut (fun _ => 0) d.slotUsed port (m + 1) }
  | none => d

/-! ### Archive (R338–R343) -/

/-- What a stash offset is mapped to (R340). -/
inductive StashTarget where
  | hbm (a : Nat)
  | depot (a : Nat)
  | overflow
  deriving DecidableEq, Repr

/-- Is stash region `n` valid (R338)? -/
def regionValid (d : Dev) (n : Nat) : Bool := bitAt (rg d (0x30A_1000 + 16 * n)).toNat 63

/-- R340 stash_target. -/
def stashTarget (d : Dev) (n o : Nat) : StashTarget :=
  let rb := (rg d (0x30A_1000 + 16 * n)).toNat
  let ro := (rg d (0x30A_1008 + 16 * n)).toNat
  let lim := fld rb 62 40 * 0x1000
  let olim := fld ro 55 32 * 0x1_0000
  if o < lim then .hbm ((fld rb 39 12 * 0x1000 + o) % 2 ^ 48)
  else if o - lim < olim then
    .depot ((depotBase + rgf d 0x30A_0300 24 0 * 0x1_0000 + fld ro 24 0 * 0x1_0000 + (o - lim)) % 2 ^ 48)
  else .overflow

/-- R342, R343: region `n` is the first, or the lower one of the first MCLK `at_`: the region recorded at bits `lo` and up, valid with bit `v`.
DESIGN CHOICE (log entry 12). -/
def firstRegion (d : Dev) (v lo at_ n : Nat) : Bool :=
  !bitAt (rg d 0x30A_0308).toNat v || (at_ == d.root / 6 + 1 && decide (n < rgf d 0x30A_0308 (lo + 6) lo))

/-- R342, R343: a piece of region `n` was written to an overflow extent. -/
def stashSpill (d : Dev) (n : Nat) : Dev :=
  let d := putRgf d 0x30A_0308 63 32 (satAdd 32 (rgf d 0x30A_0308 63 32) 1)
  if firstRegion d 7 0 d.arcAt.1 n then putRgf (putRgf { d with arcAt := (d.root / 6 + 1, d.arcAt.2) } 0x30A_0308 7 7 1) 0x30A_0308 6 0 n else d

/-- R341–R343: the first overflow_fault piece of a transfer. -/
def stashFault (d : Dev) (n o : Nat) : Dev :=
  let d := if firstRegion d 31 24 d.arcAt.2 n then
      putRgf (putRgf { d with arcAt := (d.arcAt.1, d.root / 6 + 1) } 0x30A_0308 31 31 1) 0x30A_0308 30 24 n
    else d
  raise d { kind := 3, sub := 0, port := 0, bundle := none, addr := o, detail := rg d 0x30A_0308, cell := none, abandons := true }

/-- R342: are bytes of a stash region within entries that exist?. DEDUCED (log entry 6). -/
def stashHas (d : Dev) (n o len : Nat) : Bool :=
  (List.range len).all fun i => d.stash.any fun e => e.region == n && decide (e.off ≤ o + i ∧ o + i < e.off + e.n)

/-! ### Pieces -/

/-- Bytes that a transfer reads, and bytes that it writes. -/
def xferBytes (x : Xfer) : Nat := let s := xferShape x; s.1 * s.2

/-- R323: the bytes of the destination when it is not the source in order: a transposed tile (elements of 4, 8 or 16 bits). -/
def transposed (x : Xfer) (bs : List Byte) : List Byte :=
  let t := if x.tsize = 0 then 64 else 128
  let bits := 4 * 2 ^ x.esize
  let rows := chunksOf (t * bits / 8) t bs
  let els := rows.map (unpackCodes bits)
  (List.range t).flatMap fun m => packCodes bits (els.map fun r => r.getD m 0)

/-- Row, column and address of byte position `p` of a stream of rows of `rb` bytes (R323). -/
def rowPos (base pitch rb p : Nat) : Nat × Nat := ((base + p / rb * pitch + p % rb) % 2 ^ 48, rb - p % rb)

/-- Bytes of the aligned piece of `k` bytes that begin at `a`. -/
def pieceLen (k a left : Nat) : Nat := min left (k - a % k)

/-- The next piece of a transfer in a direction: the address (or stash offset) and the number of bytes; none when there is nothing to move. Depot
pieces are 128 bytes, stash pieces and all others 64 (R326, R340). -/
def nextPiece (d : Dev) (x : Xfer) (write : Bool) : Option (Nat × Nat) :=
  let rb := (xferShape x).2
  let p := if write then x.wpos else x.rpos
  let a := if write then rowPos x.dst x.dpitch rb p else rowPos x.src x.spitch rb p
  let stash := if write then x.dstash else x.sstash
  let k := if stash then 64 else match place d a.1 with | .depot _ => 128 | _ => 64
  let n := if x.prog && write then min 32 a.2 else pieceLen k a.1 a.2
  let ready :=
    if !write then x.mode != 2 && decide (x.rpos < xferBytes x)
    else decide (x.wpos < xferBytes x) &&
      (x.mode == 2 || (if x.mode == 1 then decide (x.rpos = xferBytes x) else decide (n ≤ x.buf.length)))
  if ready then some (a.1, n) else none

/-- R327, R515, R520: a DMA fault of gallery `g`: the transfer stops and is never counted. -/
def dmaFault (d : Dev) (g : Nat) (x : Xfer) (sub a : Nat) : Dev :=
  raise (modGal d g fun y => { y with xs := y.xs.filter fun u => u.id != x.id })
    { kind := 4, sub := sub, port := galleryPort g, bundle := none, addr := a % 2 ^ 48, detail := BitVec.ofNat 64 x.dd, cell := none
      abandons := true }

/-- R327: the conditions a transfer shows before it moves: SUB code and address; none when it may move. -/
def xferCheck (d : Dev) (x : Xfer) : Option (Nat × Nat) :=
  let ss := x.sstash && x.mode != 2
  if x.prog then (if x.src % 32 = 0 then none else some (13, x.src))
  else if x.mode != 1 && x.mode != 3 && x.rowBytes == 0 then some (2, 0)
  else if x.mode == 3 || (x.mode == 1 && (decide (2 ≤ x.tsize) || x.esize == 3)) then some (3, 0)
  else if (ss || x.dstash) && !regionValid d x.region then some (4, 0)
  else if ss && x.src % 64 != 0 then some (5, x.src)
  else if x.dstash && x.dst % 64 != 0 then some (5, x.dst)
  else none

/-- What a piece's port and class are (R326, R332–R334): no slot is needed, or a class of owner `g` on a port, or an overflow slot. -/
inductive SlotNeed where
  | free
  | cls (e port : Nat)
  | spill (port : Nat)
  deriving DecidableEq, Repr

/-- R334: the class of PDMA for the access. -/
def progClass (d : Dev) (g : Nat) (cross : Bool) : Nat :=
  ((List.range 240).map (· + 16)).find? (fun e => let k := almClass d e; k.valid && k.owner == g && k.prog && k.cross == cross) |>.getD 0

/-- R333: is an access of gallery `g` to an HBM address a crossing access? -/
def crosses (d : Dev) (g a : Nat) : Bool := (hbmMap d a).1 / 2 != g / 12

/-- The slot that an access of gallery `g`'s engine to a device address needs. DESIGN CHOICE (log entry 12). -/
def slotNeed (d : Dev) (g : Nat) (x : Xfer) (a : Nat) : SlotNeed :=
  match place d a with
  | .hbm o => .cls (if x.prog then progClass d g (crosses d g o) else x.cls) (hbmPort d o)
  | .depot o => .cls (if x.prog then progClass d g true else x.cls) (512 + depotPort d o)
  | _ => .free

/-- R289: has the transfer, whose write stream has come to `wpos`, written the byte at `a` of its destination's space? -/
def wroteAt (y : Xfer) (a : Nat) : Bool :=
  let sh := xferShape y
  if a < y.dst ∨ sh.2 = 0 ∨ sh.1 = 0 then false
  else
    let o := a - y.dst
    let r := if o < sh.2 ∨ y.dpitch = 0 then 0 else (o - sh.2) / y.dpitch + 1
    decide (r < sh.1) && decide (r * y.dpitch ≤ o) && decide (o < r * y.dpitch + sh.2) && decide (r * sh.2 + (o - r * y.dpitch) < y.wpos)

/-- The transfers that the cell of `x` queued after it. -/
def laterQueued (d : Dev) (x : Xfer) : List Xfer :=
  ((d.gals.flatMap (·.2.xs)) ++ d.ended).filter fun y => y.cell == x.cell && decide (x.id < y.id) && y.prog == x.prog

/-- R289: does byte `a` of the destination of `x` (an offset of the region, for a stash) stand as a later transfer of its queue has left it? -/
def laterHolds (d : Dev) (x : Xfer) (a : Nat) : Bool :=
  (laterQueued d x).any fun y =>
    if x.prog then decide ((a + 4096 - y.dst / 32) % 4096 < y.wpos / 32)
    else y.dstash == x.dstash && (!x.dstash || y.region == x.region) && wroteAt y a

/-- Does a transfer touch pieces of `k` bytes from several rows (R326)? -/
def sharesPieces (x : Xfer) (write : Bool) (k : Nat) : Bool :=
  let sh := xferShape x
  let base := if write then x.dst else x.src
  let pitch := if write then x.dpitch else x.spitch
  decide (1 < sh.1) && !(base % k == 0 && pitch % k == 0 && decide (sh.2 ≤ pitch))

/-- The piece of device address `a`: its length and number. -/
def pieceOf (d : Dev) (a : Nat) : Nat × Nat := let k := match place d a with | .depot _ => 128 | _ => 64; (k, a / k)

/-- R326: has the transfer used a slot for the piece at `a`? DESIGN CHOICE (log entry 12). -/
def paid (d : Dev) (x : Xfer) (write : Bool) (a : Nat) : Bool := (if write then x.paidW else x.paidR).contains (pieceOf d a).2

/-- The transfer once it has used the slot of the piece at `a`, if it will touch that piece again. DESIGN CHOICE (log entry 12). -/
def pay (d : Dev) (x : Xfer) (write : Bool) (a : Nat) : Xfer :=
  let p := pieceOf d a
  if !sharesPieces x write p.1 || paid d x write a then x
  else if write then { x with paidW := p.2 :: x.paidW } else { x with paidR := p.2 :: x.paidR }

/-- The transfer with a read piece taken in. -/
def gotRead (x : Xfer) (bs : List Byte) : Xfer :=
  let x := { x with rpos := x.rpos + bs.length, buf := x.buf ++ bs }
  if x.mode = 1 ∧ x.rpos = xferBytes x then { x with buf := transposed x x.buf } else x

/-- The bytes that a write piece of `n` bytes carries. -/
def writeBytes (x : Xfer) (n : Nat) : List Byte :=
  if x.mode = 2 then (List.range n).map fun i => BitVec.ofNat 8 (x.fill >>> (8 * ((x.wpos % (xferShape x).2 + i) % 4)))
  else x.buf.take n

/-- The transfer with a write piece done. -/
def gotWrite (x : Xfer) (n : Nat) : Xfer := { x with wpos := x.wpos + n, buf := if x.mode = 2 then x.buf else x.buf.drop n }

/-- CNT_DMA[g]: bytes moved by the engine of gallery `g` (R556). DEDUCED (log entry 26). -/
def countDma (d : Dev) (g n : Nat) : Dev := if counting d then putRg d (0x307_0100 + 8 * g) (rg d (0x307_0100 + 8 * g) + BitVec.ofNat 64 n) else d

/-- Replaces an active transfer. -/
def putXfer (d : Dev) (g : Nat) (x : Xfer) : Dev :=
  modGal d g fun y => { y with xs := y.xs.map fun u => if u.id = x.id then x else u }

/-- The effects of a cell up to its present edge (R288). -/
def settleNow (d : Dev) (c : Nat) : Res Dev := settle d c (cellEdge d c)

/-- The cell whose folio store an address lies in settles before the access. -/
def settlePlace (d : Dev) (a : Nat) : Res Dev :=
  match place d a with
  | .folio c _ => settleNow d c
  | _ => .ok d

/-- R309, R237, R51: a bundle into the program store of a cell. DESIGN CHOICE (log entry 13). -/
def putBundle (d : Dev) (c a : Nat) (bs : List Byte) : Dev :=
  if resetting d (cellPort c) || !portUp d (cellPort c) then d
  else
    let w := progWord0 c a
    modCell { d with upset := d.upset.filter fun e => !decide (w ≤ e.1 ∧ e.1 < w + 4) } c fun x =>
      { x with prog := tabPut (fun _ => 0) x.prog (a % 4096) (BitVec.ofNat 256 (leNat bs)) }

/-- The slot of a piece, its owner and direction, is at hand (true), is granted but not at hand, or is not granted (case 6 of R297).
DESIGN CHOICE (log entry 12). -/
def slotTest (d : Dev) (g : Nat) (write : Bool) (n : SlotNeed) : Res Bool :=
  match n with
  | .free => .ok true
  | .spill p => .ok (slotFree d 2 p)
  | .cls e p => if classGranted d e g write p then .ok (slotFree d e p) else .error .classNotGranted

/-- The device with the slot of a piece used. -/
def useSlot (d : Dev) : SlotNeed → Dev
  | .free => d
  | .spill p => takeSlot d p
  | .cls _ p => takeSlot d p

/-- The slot that the next piece of a transfer in a direction waits for. -/
def waitsFor (d : Dev) (g : Nat) (y : Xfer) (write : Bool) : SlotNeed :=
  match nextPiece d y write with
  | none => .free
  | some (a, _) =>
    if y.prog && write then .free
    else if !(if write then y.dstash else y.sstash) then (if paid d y write a then .free else slotNeed d g y a)
    else match stashTarget d y.region a with
      | .hbm b => if paid d y write b then .free else slotNeed d g y b
      | .depot b => .spill (512 + depotPort d (b - depotBase))
      | .overflow => .free

/-- R332: does a piece of an earlier active transfer of the engine wait for the same class on the same port, in a direction that the class serves?
DESIGN CHOICE (log entry 12). -/
def earlierWaits (d : Dev) (g : Nat) (xs : List Xfer) (write : Bool) (n : SlotNeed) : Bool :=
  match n with
  | .free => false
  | .spill _ => xs.any fun y => waitsFor d g y write == n || waitsFor d g y (!write) == n
  | .cls e _ => xs.any fun y => waitsFor d g y write == n || ((almClass d e).dir == 2 && waitsFor d g y (!write) == n)

/-- R288, R289, R297 case 1: does a piece of a transfer meet a transfer of another cell that was uncovered for the cell that queued this one?.
DEDUCED (log entry 10). -/
def othersMeet (d : Dev) (x : Xfer) (write : Bool) (a n : Nat) : Bool :=
  ((d.gals.flatMap (·.2.xs)) ++ endedFor d x.cover).any fun y => y.cell != x.cell && xferMeets y write a n

/-- The bytes of a write piece reach memory, but for those that a later transfer of the queue has written (R289); the coefficient table must not change in
a sweep (R405). -/
def landPiece (d : Dev) (a : Nat) (bs : List Byte) (keep : Nat → Bool) : Res Dev := do
  coefGuard d a bs
  if (List.range bs.length).all keep then pure (engWrite d a bs)
  else pure ((bs.zipIdx.filter fun p => keep p.2).foldl (fun d p => engWrite d (a + p.2) [p.1]) d)

/-- One piece at a device address: moved when its slot is at hand, and, in host memory, while the link is up (R460). `keep` names the bytes of a write that
land. A transfer that a reset has cut off runs to its end (R50), also when the base almanac of the reset grants its gallery no class (R336).
DESIGN CHOICE (log entry 12). -/
def movePlain (d : Dev) (g : Nat) (before : List Xfer) (x : Xfer) (write : Bool) (a n : Nat) (need : SlotNeed) (keep : Nat → Bool) : Res Dev := do
  match place d a with
  | .bad => pure (dmaFault d g x 1 a)
  | .range => throw .outOfRange
  | p =>
    let need := if paid d x write a || (x.h.isNone && d.alm.isNone) then .free else need
    if !(← slotTest d g write need) || earlierWaits d g before write need || ((match p with | .host _ => true | _ => false) && !hostUp d) then pure d
    else if othersMeet d x write a n then throw .uncoveredDma
    else
      let d ← settlePlace (useSlot d need) a
      let x := if need == .free then x else pay d x write a
      if write then pure (putXfer (countDma (← landPiece d a (writeBytes x n) keep) g n) g (gotWrite x n))
      else
        let r := engRead d a n
        pure (putXfer r.2 g (gotRead x r.1))

/-- One piece of a stash region (R340–R342). -/
def moveStash (d : Dev) (g : Nat) (before : List Xfer) (x : Xfer) (write : Bool) (o n : Nat) : Res Dev := do
  match stashTarget d x.region o with
  | .overflow =>
    let d := if x.overflow then d else stashFault d x.region o
    let x := { x with overflow := true }
    if write then pure (putXfer d g (gotWrite x n))
    else
      let r := drawBytes n d
      pure (putXfer r.2 g (gotRead x r.1))
  | t =>
    if !write && !stashHas d x.region o n then throw .stash
    let keep (i : Nat) : Bool := !laterHolds d x (o + i)
    match t with
    | .depot a =>
      let need := SlotNeed.spill (512 + depotPort d (a - depotBase))
      let e ← movePlain d g before x write a n need keep
      let moved := ((galOf e g).xs.find? fun y => y.id == x.id).any fun y => y.wpos != x.wpos
      pure (if write && moved then stashSpill e x.region else e)
    | .hbm a => movePlain d g before x write a n (slotNeed d g x a) keep
    | .overflow => pure d

/-- DMA_PIECE_TRANSFER (R332): the next piece of active transfer `k` of gallery `g` in a direction. -/
def pieceTransfer (d : Dev) (g k : Nat) (write : Bool) : Res Dev :=
  match (galOf d g).xs[k]? with
  | none => .ok d
  | some x =>
    match nextPiece d x write with
    | none => .ok d
    | some (a, n) =>
      let before := (galOf d g).xs.take k
      if x.prog && write then
        let b := x.dst / 32 + x.wpos / 32
        let d := if laterHolds d x b then d else putBundle d x.cell b (x.buf.take n)
        .ok (putXfer (countDma d g n) g (gotWrite x n))
      else if (if write then x.dstash else x.sstash) then moveStash d g before x write a n
      else movePlain d g before x write a n (slotNeed d g x a) fun i => !laterHolds d x (a + i)

/-! ### Taking and completing (R324, R325) -/

/-- The queue that the round of gallery `g` serves next: the first of its eight cells, from `next` on, whose head transfer is described. -/
def nextQueue (d : Dev) (g : Nat) : Option (Nat × DmaEntry × Xfer) :=
  ((List.range 8).filterMap fun i =>
    let c := 8 * g + ((galOf d g).next + i) % 8
    match (cellOf d c).dmaq with
    | q :: _ => (q.x.map fun x => (c, q, x))
    | [] => none).head?

/-- DMA_TAKE (R324): the engine takes one head transfer when it has room for an active transfer. -/
def dmaTake (d : Dev) (g : Nat) : Res Dev := do
  if 48 ≤ g ∨ !portUp d (galleryPort g) ∨ 16 ≤ (galOf d g).xs.length then pure d
  else
    let d ← (List.range 8).foldlM (fun d j => settleNow d (8 * g + j)) d
    match nextQueue d g with
    | none => pure d
    | some (c, _, x) =>
      let d := modCell d c fun y => { y with dmaq := y.dmaq.tail }
      let d := modGal d g fun y => { y with xs := y.xs ++ [x], next := (c + 1) % 8 }
      match xferCheck d x with
      | some (sub, a) => pure (dmaFault d g x sub a)
      | none => pure d

/-- R342: what a completed transfer leaves in the stash. -/
def stashRows (x : Xfer) : List StashEntry :=
  if x.dstash then
    let s := xferShape x
    (List.range s.1).map fun r => { region := x.region, off := (x.dst + r * x.dpitch) % 2 ^ 48, n := s.2 }
  else []

/-- R325: the transfer has read and written every byte. -/
def xferDone (x : Xfer) : Bool :=
  decide (x.wpos = xferBytes x) && (x.mode == 2 || decide (x.rpos = xferBytes x))

/-- DMA_COMPLETE (R325): the transfer counts at its hold counter; its bytes wait for a hold point that depends on it (R288). One that a unit reset has cut off
counts nowhere (R50), and no hold point can wait for it. DEDUCED (log entry 10). -/
def dmaComplete (d : Dev) (g k : Nat) : Res Dev :=
  match (galOf d g).xs[k]? with
  | none => .ok d
  | some x =>
    if !xferDone x then .ok d
    else
      let d := modGal d g fun y => { y with xs := y.xs.filter fun u => u.id != x.id }
      let d := { d with stash := d.stash ++ stashRows x }
      match x.h, x.overflow with
      | none, _ => .ok d
      | some _, true => .ok { d with ended := d.ended ++ [{ x with buf := [] }] }
      | some h, false =>
        let d := { d with ended := d.ended ++ [{ x with buf := [] }] }
        .ok (countAt d x.cell { h := h, n := 1, know := x.id :: x.cover, nclk := some (nclkAt d x.cell) })

end Sys2Proof.Machine
end

