-- ==== Sys2Proof/Machine/Accumulate.lean ====
section
/-! DEFINITION. The memory side of DWACC (05_backward_pair.md, R196–R198): what the gallery DMA engine reads from and writes to the gradient accumulator
region, with its slots (R332), faults (R304) and counts. -/
namespace Sys2Proof.Machine

/-- What the memory side of a DWACC has made of one block (R197, R198): codes, side word, elements limited, whether a check failed. -/
structure DwBlock where
  codes : List Nat
  side : Nat
  sat : Nat
  bad : Bool
  deriving DecidableEq, Repr

/-- R197, R198: a converted block, added to the stored one unless CLR; `old` are the stored codes and side word. -/
def dwBlock (e16 : Nat) (clr : Bool) (new : List Nat) (old : List Nat) (oldSide : Nat) : DwBlock :=
  if clr then { codes := new, side := sideWord e16 (b16Residue new), sat := 0, bad := false }
  else
    let rs := (old.zip new).map fun p => b16Add p.1 p.2
    let cs := rs.map (·.1)
    { codes := cs, side := sideWord e16 (b16Residue cs), sat := (rs.filter (·.2)).length
      bad := oldSide / 256 != b16Residue old || !b16AddCheck old new (oldSide / 256) (b16Residue new) cs }

/-- Row and column of the tile that a DWACC names by its accumulator-region address (R385): A = BASE + r × PITCH + 2c. -/
def dwPos (x : Desc) (a : Nat) : Nat × Nat := if x.pitch = 0 then (0, 0) else ((a - x.base) / x.pitch, (a - x.base) % x.pitch / 2)

/-- The address of the codes of block `(i, j)` of a DWACC's tile, and of its side word. -/
def dwPlace (r : DwRun) (x : Desc) (i j : Nat) : Nat × Nat :=
  let p := dwPos x r.addr
  (r.addr + i * x.pitch + 64 * j, scaleAddr x 2 (p.1 + i) (p.2 + 32 * j))

/-- The 128 blocks of a DWACC's tile, by row and half. -/
def dwTile : List (Nat × Nat) := (List.range 64).flatMap fun i => [(i, 0), (i, 1)]

/-- The bytes that a DWACC's memory side touches: addresses and lengths. -/
def dwRanges (r : DwRun) (x : Desc) : List (Nat × Nat) :=
  if r.clr && r.last then [] else dwTile.flatMap fun b => let p := dwPlace r x b.1 b.2; [(p.1, 64), (p.2, 2)]

/-- R304: the first byte of a DWACC's region that no DMA may touch. DEDUCED (log entry 32). -/
def dwBad (d : Dev) (r : DwRun) (x : Desc) : Option Nat :=
  (dwRanges r x).findSome? fun p => if place d p.1 = .bad then some p.1 else if place d (p.1 + p.2 - 1) = .bad then some (p.1 + p.2 - 1) else none

/-- R332: has the gallery engine a class for every access of a DWACC's memory side? DESIGN CHOICE (log entry 12). DEDUCED (log entry 32). -/
def dwMay (d : Dev) (g : Nat) (r : DwRun) (x : Desc) : Bool :=
  (dwRanges r x).all fun p => (r.clr || ownerMay d g false p.1 p.2) && (r.last || ownerMay d g true p.1 p.2)

/-- R304, R327: the memory side of a DWACC raises a DMA fault and stops; it never counts. Its DETAIL names no DMA descriptor. DEDUCED (log entry 32). -/
def dwFault (d : Dev) (c a : Nat) (r : DwRun) : Dev :=
  raise (modCell d c fun x => { x with dwMem := x.dwMem.erase r })
    { kind := 4, sub := 1, port := galleryPort (galleryOfCell c), bundle := none, addr := a % 2 ^ 48, detail := 0, cell := none, abandons := true }

/-- The stored codes and side words of the tile, read by the gallery engine; nothing with CLR = 1 (R197). -/
def dwRead (d : Dev) (c : Nat) (r : DwRun) (x : Desc) : List (List Nat × Nat) × Dev :=
  if r.clr then (dwTile.map fun _ => ([], 0), d)
  else dwTile.foldl (fun s b =>
    let p := dwPlace r x b.1 b.2
    let u := engRead s.2 p.1 64
    let v := engRead (countDma u.2 (galleryOfCell c) 66) p.2 2
    (s.1 ++ [(unpackCodes 16 u.1, leNat v.1)], v.2)) ([], d)

/-- The blocks of a DWACC as its memory side makes them from the stored ones. -/
def dwBlocks (r : DwRun) (old : List (List Nat × Nat)) : List DwBlock :=
  (dwTile.zip old).map fun (b, o) => dwBlock r.e16 r.clr (((r.rows.getD b.1 []).drop (32 * b.2)).take 32) o.1 o.2

/-- R197: the counts and the residue fault of a DWACC's memory side. -/
def dwCounts (d : Dev) (c : Nat) (r : DwRun) (x : Desc) (bs : List DwBlock) : Dev :=
  let d := descGauges d c x [(gB16Sat, (bs.map (·.sat)).sum), (gNanOut, (bs.map fun b => (b.codes.filter (· == 0x8000)).length).sum)]
  if bs.any (·.bad) then
    let k := bs.findIdx (·.bad)
    residueFault d c 7 (dwPlace r x (k / 2) (k % 2)).1 x.tid
  else d

/-- R197, LAST = 0: the result is written back to the region, and observed (R551). -/
def dwStore (d : Dev) (c : Nat) (r : DwRun) (x : Desc) (bs : List DwBlock) : Res Dev :=
  let p := dwPos x r.addr
  (dwTile.zip bs).foldlM (fun d (b, q) => do
    let a := dwPlace r x b.1 b.2
    let codes := packCodes 16 q.codes
    let side := leBytes 2 q.side
    coefGuard d a.1 codes
    coefGuard d a.2 side
    let d := countDma (engWrite (engWrite d a.1 codes) a.2 side) (galleryOfCell c) 66
    pure (surveyRun d (cellOf d c).visiting 2 x (q.codes.zipIdx.map fun (k, i) =>
      (p.1 + b.1, p.2 + 32 * b.2 + i, p32Val (b16ToP32 k (q.side % 256)), srvBits 3 k (q.side % 256))))) d

end Sys2Proof.Machine
end

