-- ==== Sys2Proof/Machine/Events.lean ====
section
/-! DEFINITION. What the device tells the host and its peers: writes to host memory (R464), events (R479), fabric messages (R436), squalls (R451, R452), the
flushes of ring and fabric (R397, R443), and the abandonment of a step (R295, R361). -/
namespace Sys2Proof.Machine

/-! ### Host memory -/

/-- R464, R460: bytes for host memory at a device address; they wait while the link is down. DESIGN CHOICE (log entries 7, 29). -/
def hostWrite (d : Dev) (a : Nat) (bs : List Byte) : Dev :=
  if hostUp d then engWrite d a bs else { d with host := { d.host with out := d.host.out ++ [(a, bs)] } }

/-- The bytes that waited for the link, in order (R464). DESIGN CHOICE (log entry 29). -/
def hostDrain (d : Dev) : Dev :=
  d.host.out.foldl (fun d w => engWrite d w.1 w.2) { d with host := { d.host with out := [] } }

/-- A word from a number. -/
def w64 (n : Nat) : W64 := BitVec.ofNat 64 n

/-- The bytes of words. -/
def wordBytes (ws : List W64) : List Byte := ws.flatMap fun w => leBytes 8 w.toNat

/-! ### Fabric messages -/

/-- FAB_PORT[p].STATE (R428). -/
def fabState (d : Dev) (p : Nat) : Nat := rgf d (0x100_0100 + 8 * p) 33 32

/-- Is fabric port `p` up? -/
def fabUp (d : Dev) (p : Nat) : Bool := decide (p < 12) && fabState d p == 2

/-- The up ports. -/
def upPorts (d : Dev) : List Nat := (List.range 12).filter (fabUp d)

/-- A message enters the buffers of a port (R435). DESIGN CHOICE (log entry 7). -/
def sendMsg (d : Dev) (p : Nat) (m : FabMsg) : Dev := { d with tx := d.tx ++ [(p, m)] }

/-- R436: a message of this device. -/
def ownMsg (d : Dev) (cls dst kind : Nat) (w1 : W64) (body : List Byte) : FabMsg :=
  { cls := cls, dst := dst, src := myDev d, hops := 0, kind := kind, w1 := w1, body := body }

/-! ### Events (R478, R479) -/

/-- R475: PHASE of index `i` in a ring of 2^sz entries. -/
def phaseBit (i sz : Nat) : Nat := 1 - i / 2 ^ sz % 2

/-- The words of an event; `phase` is its PHASE bit. -/
def eventWords (e : HeldEvent) (phase : Nat) : List W64 :=
  [w64 (e.type * 2 ^ 56 + e.dev * 2 ^ 50 + phase * 2 ^ 49 + e.stamp % 2 ^ 48), w64 e.wt, e.arg0, e.arg1]

/-- EQ_ROUTE.FWD and ROOT (R478): the device that takes this device's events and reports; none when it keeps them. -/
def fwdRoot (d : Dev) : Option Nat :=
  if bitAt (rg d 0x20_0118).toNat 63 && rgf d 0x20_0118 5 0 != myDev d then some (rgf d 0x20_0118 5 0) else none

/-- R433: the port on which a relay message for another device leaves; none when it cannot be reached. -/
def relayPort (d : Dev) (dst : Nat) : Option Nat :=
  let w := (rg d (0x100_1000 + 8 * dst)).toNat
  if !bitAt w 63 then none
  else if fabUp d (fld w 3 0) then some (fld w 3 0)
  else if fabUp d (fld w 7 4) then some (fld w 7 4)
  else none

/-- An event is held until it is written (R479). -/
def pushHeld (d : Dev) (e : HeldEvent) : Dev := { d with host := { d.host with held := d.host.held ++ [e] } }

/-- The oldest held event has gone; EQ_OVF follows when events have been dropped. -/
def eventGone (d : Dev) : Dev :=
  let n := d.host.dropped
  let d := { d with host := { d.host with held := d.host.held.tail, dropped := 0 } }
  if n = 0 then d else pushHeld d { dev := myDev d, type := 0xA, stamp := stStamp d, wt := d.wt, arg0 := w64 n, arg1 := 0 }

/-- EVENT_WRITE (R479): the oldest held event is written, or forwarded to ROOT. DEDUCED (log entry 26). -/
def eventWrite (d : Dev) : Dev :=
  match d.host.held with
  | [] => d
  | e :: _ =>
    match fwdRoot d with
    | some root =>
      match relayPort d root with
      | some p => eventGone (sendMsg d p (ownMsg d 3 root 3 0 (wordBytes (eventWords e 0))))
      | none => d
    | none =>
      let base := (rg d 0x20_0100).toNat
      let sz := fld base 59 56
      let prod := rgf d 0x20_0110 63 32
      let used := (prod + 2 ^ 32 - rgf d 0x20_0108 31 0) % 2 ^ 32
      if !bitAt base 63 || !hostUp d || decide (2 ^ sz ≤ used) then d
      else
        let d := hostWrite d (hostBase + fld base 43 5 * 32 + 32 * (prod % 2 ^ sz)) (wordBytes (eventWords e (phaseBit prod sz)))
        eventGone (putRgf d 0x20_0110 63 32 ((prod + 1) % 2 ^ 32))

/-- R479: a new event is held. While 256 are held the oldest is written first; the new one is dropped when none can be. -/
def holdEvent (d : Dev) (e : HeldEvent) : Dev :=
  let d := if 256 ≤ d.host.held.length then eventWrite d else d
  if 256 ≤ d.host.held.length then
    { putRgf d 0x20_0110 31 0 (satAdd 32 (rgf d 0x20_0110 31 0) 1) with host := { d.host with dropped := d.host.dropped + 1 } }
  else pushHeld d e

/-- R479: the device posts an event. -/
def postEvent (d : Dev) (type : Nat) (arg0 arg1 : W64) : Dev :=
  holdEvent d { dev := myDev d, type := type, stamp := stStamp d, wt := d.wt, arg0 := arg0, arg1 := arg1 }

/-- The LINK event (R479): port `p` (15 for the host link) has a new STATE. DEDUCED (log entry 20). -/
def linkEvent (d : Dev) (p state : Nat) : Dev := postEvent d 6 (w64 (state * 256 + p)) 0

/-! ### Squalls and ring messages -/

/-- FAB_CFG.SQM. -/
def squallMode (d : Dev) : Bool := bitAt (rg d 0x100_0000).toNat 39

/-- R451, R452: the device emits a squall on every up port when SQM = 1. DEDUCED (log entry 30). -/
def emitSquall (d : Dev) (cause : Nat) : Dev :=
  if !squallMode d then d
  else
    let seq := (d.fab.seq + 1) % 2 ^ 16
    let d := { d with fab := { d.fab with seq := seq } }
    let m := { ownMsg d 6 0 0 0 (leBytes 8 (seq * 2 ^ 48 + stStamp d) ++ leBytes 8 cause) with hops := rgf d 0x100_0000 43 40 }
    (upPorts d).foldl (fun d p => sendMsg d p m) d

/-! ### Ring configuration (R374–R376) -/

/-- PM1 + 1: the number of positions. -/
def ringP (d : Dev) : Nat := rgf d 0x118_0000 13 8 + 1
/-- MYPOS. -/
def ringPos (d : Dev) : Nat := rgf d 0x118_0000 21 16
/-- R4. -/
def ringR4 (d : Dev) : Bool := bitAt (rg d 0x118_0000).toNat 1
/-- The running ring engines (R375). -/
def ringsRunning (d : Dev) : List Nat := if ringP d = 1 then [] else if ringR4 d then [0, 1, 2, 3] else [0, 2]
/-- Send port of a ring. -/
def ringTx (d : Dev) (r : Nat) : Nat := rgf d 0x118_0048 (8 * r + 7) (8 * r + 4)
/-- Receive port of a ring. -/
def ringRx (d : Dev) (r : Nat) : Nat := rgf d 0x118_0048 (8 * r + 3) (8 * r)
/-- R383, R375: the ring that carries a quarter. -/
def quarterRing (d : Dev) (q : Nat) : Nat := if ringR4 d then q else if q ≤ 1 then 0 else 2

/-- The header of a ring message (R388). -/
def ringHeader (d : Dev) (type ring own bucket tile q stamp : Nat) (fn : Option (Nat × Nat)) (count : Nat) : List Byte :=
  leBytes 8 (type * 2 ^ 60 + ring * 2 ^ 58 + ringPos d * 2 ^ 52 + own * 2 ^ 46 + bucket * 2 ^ 16 + tile * 2 ^ 4 + q * 4) ++ leBytes 8 stamp
    ++ leBytes 8 (match fn with | some (i, p) => 2 ^ 17 + p * 2 ^ 10 + i | none => 0) ++ leBytes 8 count

/-- A ring message goes to the ring's send port. -/
def sendRing (d : Dev) (r : Nat) (body : List Byte) : Dev := sendMsg d (ringTx d r) (ownMsg d 2 0 0 0 body)

/-! ### Flushes -/

/-- R397: the ring engines discard the step's tile-quarters, send a marker each, and discard until their peers' markers; a marker recorded with this device's
stamp counts as arrived (R528). A list of combined maxima that has been adopted stays for the report (R486). -/
def ringFlush (d : Dev) : Dev :=
  let st := stStamp d
  let rings := ringsRunning d
  let left := rings.filter fun r => fabUp d (ringRx d r) && !d.ring.marks.contains (r, st)
  let d := rings.foldl (fun d r => sendRing d r (ringHeader d 2 r 0 0 0 0 st none 0)) d
  { d with ring := { d.ring with buckets := [], store := [], rx := [], handed := [], done := 0, discard := left, marks := [], first := none } }

/-- R443: the data markers go out on every up port once no taken transfer but loans is left. -/
def fabMarkers (d : Dev) : Dev :=
  if d.fab.flushing && !d.fab.marked && d.fab.xs.all (·.loan) then
    let d := (upPorts d).foldl (fun d p => sendMsg d p (ownMsg d 1 0 15 (w64 (stStamp d)) [])) d
    { d with fab := { d.fab with marked := true } }
  else d

/-- R443: a flush ends when its markers are out and every port has its peer's. -/
def fabFlushEnd (d : Dev) : Dev :=
  if d.fab.flushing && d.fab.marked && d.fab.discard.isEmpty then { d with fab := { d.fab with flushing := false, marked := false } } else d

/-- FAB_XRING[r]. -/
def xring (d : Dev) (r : Nat) : Nat := (rg d (0x100_0200 + 8 * r)).toNat

/-- Base of a transfer ring's area (R439). -/
def xringBase (d : Dev) (r : Nat) : Nat := fld (xring d r) 47 6 * 64

/-- R440, R443: CONS of a transfer ring is set to its PROD, which the engine reads. -/
def xringSkip (d : Dev) (r : Nat) : Dev :=
  let b := engRead d (xringBase d r) 4
  let d := engWrite b.2 (xringBase d r + 32) b.1
  { d with fab := { d.fab with prod := tabPut (fun _ => 0) d.fab.prod r (leNat b.1) } }

/-- R443: a fabric flush starts; one under way goes on. The data messages held for forwarding are gone. -/
def fabFlush (d : Dev) : Dev :=
  if d.fab.flushing then d
  else
    let d := (List.range 48).foldl (fun d r => if bitAt (xring d r) 63 then xringSkip d r else d) d
    let d := { d with tx := d.tx.filter fun m => !(m.2.cls == 1 && m.2.src != myDev d) }
    let left := (upPorts d).filter fun p => !d.fab.marks.contains (p, stStamp d)
    let d := { d with fab := { d.fab with flushing := true, marked := false, discard := left, marks := []
                                          overrun := d.fab.overrun.filter (· == 48) } }
    fabFlushEnd (fabMarkers d)

/-! ### Abandonment (R295, R360, R361) -/

/-- R295: no docent issues a further bundle, and DMA transfers that no engine has taken are discarded. -/
def stopAll (d : Dev) : Dev :=
  (List.range nCells).foldl (fun d c =>
    let x := cellOf d c
    if x.running then modCell (stopDocent d c) c fun y => { y with dmaq := [] }
    else if x.dmaq.isEmpty then d else modCell d c fun y => { y with dmaq := [] }) d

/-- R361: the running step is abandoned. -/
def abandonStep (d : Dev) : Dev :=
  if stState d != 1 then d
  else
    let d := stopAll d
    let d := if stGate d then d else putRgf d 0x30B_0010 0 0 (stPub0 d)
    let d := putRgf (putRgf d 0x30B_0000 3 2 0) 0x30B_0000 1 0 2
    fabFlush (ringFlush d)

end Sys2Proof.Machine
end

