-- ==== Sys2Proof/Machine/Faults.lean ====
section
/-! DEFINITION. Fault classes, records and the log (16_faults_and_recovery.md, R515–R521), ring faults' register (R396), and the freeze of an inventory dump
(R559). -/
namespace Sys2Proof.Machine

/-- The bit of UP_FAULT_SUM of a fault class: R515 and R520 number DMA 4 and ILLEGAL 5, R43 lays ILLEGAL in bit 4 and DMA in bit 5.
DEDUCED (log entry 22). -/
def faultBit (kind : Nat) : Nat := if kind = 4 then 5 else if kind = 5 then 4 else kind

/-- R520: the eight words of a fault record. -/
def faultWords (d : Dev) (f : FaultReq) (abnd : Bool) : List W64 :=
  let b (x : Bool) : Nat := if x then 1 else 0
  [w64 (f.kind * 2 ^ 56 + f.sub % 256 * 2 ^ 48 + myDev d * 2 ^ 42 + f.port * 2 ^ 32 + b abnd * 2 ^ 14 + b (inStep d) * 2 ^ 13
      + (match f.bundle with | some n => 2 ^ 12 + n % 4096 | none => 0)),
   w64 (stStamp d), w64 d.wt, w64 (f.addr % 2 ^ 48), f.detail,
   w64 (match f.cell with | some c => cellEdge d c % 2 ^ 48 | none => 0), 0, 0]

/-- The order of R518 within one wall tick: PORT, then KIND. -/
def recBefore (a b : List W64) : Bool :=
  let k (r : List W64) : Nat × Nat × Nat :=
    ((r.getD 2 0).toNat, fld (r.getD 0 0).toNat 41 32, fld (r.getD 0 0).toNat 63 56)
  let x := k a
  let y := k b
  decide (x.1 < y.1) || (x.1 == y.1 && (decide (x.2.1 < y.2.1) || (x.2.1 == y.2.1 && decide (x.2.2 < y.2.2))))

/-- Inserts a record behind every record that does not come after it. -/
def insRec (r : List W64) : List (List W64) → List (List W64)
  | [] => [r]
  | x :: t => if recBefore r x && (x.getD 2 0) == (r.getD 2 0) then r :: x :: t else x :: insRec r t

/-- R518, R519: the record enters the log and the step's records; FLT_STAT counts it. -/
def logFault (d : Dev) (r : List W64) : Dev :=
  let l := insRec r d.flog
  let d := putRgf d 0x40_0000 63 32 (satAdd 32 (rgf d 0x40_0000 63 32) 1)
  let d := if 64 < l.length then putRgf d 0x40_0000 7 7 1 else d
  let d := putRgf { d with flog := l.take 64 } 0x40_0000 6 0 (min l.length 64)
  if inStep d then { d with stp := { d.stp with recs := (insRec r d.stp.recs).take 64, nfault := d.stp.nfault + 1 } } else d

/-- R521: one FAULT event in each wall tick in which a record is written. DEDUCED (log entry 23). -/
def faultEvent (d : Dev) : Dev :=
  if d.faultWt = some d.wt then d
  else postEvent { d with faultWt := some d.wt } 2 (faultSumWord d 0) (w64 (portOf d 0).first)

/-- R361 at the freeze of a dump: the step registers of an abandoned step; nothing else moves (R559). -/
def abandonRegs (d : Dev) : Dev :=
  if stState d != 1 then d
  else
    let d := if stGate d then d else putRgf d 0x30B_0010 0 0 (stPub0 d)
    putRgf (putRgf d 0x30B_0000 3 2 0) 0x30B_0000 1 0 2

/-- One fault: its bit, its record, its event, and the abandonment of a running step with a squall (R516). A squall's own fault emits none (R451).
DEDUCED (log entry 22). -/
def takeFault (d : Dev) (f : FaultReq) : Dev :=
  let abnd := f.abandons && stState d == 1
  let r := faultWords d f abnd
  let d := setFaultBit d f.port (faultBit f.kind)
  let d := faultEvent (logFault d r)
  if abnd then
    let d := if f.kind = 8 then d else emitSquall d (faultBit f.kind)
    if d.dump.isSome then abandonRegs d else abandonStep d
  else d

/-- Faults in the order of R518. DEDUCED (log entry 23). -/
def insReq (f : FaultReq) : List FaultReq → List FaultReq
  | [] => [f]
  | x :: t => if f.port < x.port ∨ (f.port = x.port ∧ f.kind < x.kind) then f :: x :: t else x :: insReq f t

/-- The faults that wait are taken up, in order of PORT and KIND. -/
def takeRound (d : Dev) : Dev :=
  (d.raised.foldl (fun l f => insReq f l) []).foldl takeFault { d with raised := [] }

/-- The faults that a command has raised are taken up; then those that the abandonment of the step has raised, which reads memory (R443, R515).
DEDUCED (log entry 23). -/
def takeFaults (d : Dev) : Dev := takeRound (takeRound d)

/-- R559: the END record of a gallery none of whose cells has its funnel on; its CELL and CYC fields are not stated and are drawn.
DESIGN CHOICE (log entry 25). -/
def freezeEnd (d : Dev) (g : Nat) : Dev :=
  if !portUp d (galleryPort g) || (List.range 8).any (fun j => (cellOf d (8 * g + j)).traceOn) then d
  else
    let w := drawWord d
    putWords w.2 g [8 * 2 ^ 60 + fld w.1.toNat 59 57 * 2 ^ 57 + 2 ^ 54 + fld w.1.toNat 47 0, d.wt]

/-- R559: the device freezes; an END record with WHY 1 goes into every gallery buffer, for each cell whose funnel is on. -/
def dumpFreeze (d : Dev) (cause port bundle : Nat) (task : Option Nat) : Dev :=
  let d := (List.range nCells).foldl (fun d c =>
    if (cellOf d c).traceOn then
      emitRec (flushRun d c) c
        { type := 8, edge := cellEdge d c, w0 := 2 ^ 54 + cellEdge d c % 2 ^ 48, w1 := some d.wt, dcyc := false }
    else d) d
  let d := (List.range 48).foldl freezeEnd d
  let d := putRgf (putRgf d 0x305_0008 15 8 cause) 0x305_0008 1 0 1
  { d with dump := some { port := port, bundle := bundle, wt := d.wt, task := task } }

/-- R396: of two ring faults of one FCLK the one of lower RING, BUCKET, TILE, QUARTER, BLOCK and KIND is recorded. -/
def faultRank (w : Nat) : Nat :=
  ((((fld w 59 58 * 2 ^ 16 + fld w 47 32) * 2 ^ 12 + fld w 31 20) * 4 + fld w 19 18) * 32 + fld w 17 13) * 8 + fld w 62 60

/-- R396: a ring fault: RNG_FLT unless it holds one, and the fault. -/
def ringFault (d : Dev) (kind ring src bucket tile q blk : Nat) : Dev :=
  let w := w64 (2 ^ 63 + kind * 2 ^ 60 + ring * 2 ^ 58 + src % 64 * 2 ^ 52 + bucket % 2 ^ 16 * 2 ^ 32 + tile % 2 ^ 12 * 2 ^ 20 + q % 4 * 2 ^ 18
    + blk % 32 * 2 ^ 13)
  let old := (rg d 0x118_0060).toNat
  let fclk := d.root / 5
  let d := if !bitAt old 63 || (d.ring.fltAt == fclk && decide (faultRank w.toNat < faultRank old)) then
      { putRg d 0x118_0060 w with ring := { d.ring with fltAt := fclk } } else d
  raise d { kind := 6, sub := kind, port := 0, bundle := none, addr := 0, detail := rg d 0x118_0060, cell := none, abandons := true }

/-- R519: the log is emptied and OVF cleared. -/
def clearLog (d : Dev) : Dev := putRgf (putRgf { d with flog := [] } 0x40_0000 7 7 0) 0x40_0000 6 0 0

/-! ### Hold overruns (R284, R285, R559) -/

/-- R285, R520: HOLD with the overrun's record; the docent stops. -/
def overrun (d : Dev) (c : Nat) : Dev :=
  let x := cellOf d c
  match x.wait with
  | none => d
  | some w =>
    let waited := waitTicks d w
    let x := if inStep d then { x with hwait := x.hwait + waited, hmax := max x.hmax waited, hcnt := x.hcnt + 1 } else x
    let d := stopDocent (putCell d c x) c
    raise d { kind := 2, sub := w.sub, port := cellPort c, bundle := some x.pc, addr := 0
              detail := w64 (holdLimit d c % 2 ^ 32 * 2 ^ 32 + w.port * 2 ^ 16 + w.h), cell := some c, abandons := true }

/-- R559: the squall of a freeze that an overrun triggers; in STATE 1 it is that of the abandonment (R516). -/
def freezeSquall (d : Dev) : Dev := if stState d == 1 then d else emitSquall d (faultBit 2)

/-- HOLD_OVERRUN (R285): at the overrun of cell `c`'s wait; with ARM = 1 it triggers the dump (R558, R559). -/
def holdOverrun (d : Dev) (c : Nat) : Dev :=
  let again := match d.dump with | some s => s.wt == d.wt && rgf d 0x305_0008 15 8 == 1 | none => true
  if !overdue d c || !again || !portUp d (cellPort c) then d
  else
    let bundle := (cellOf d c).pc
    let d := overrun d c
    if rgf d 0x305_0000 0 0 = 1 ∧ rgf d 0x40_0010 5 4 = 0 then
      match d.dump with
      | none => if rgf d 0x305_0008 1 0 = 0 then dumpFreeze (freezeSquall d) 1 (cellPort c) bundle none else d
      | some s => if cellPort c < s.port then { d with dump := some { s with port := cellPort c, bundle := bundle } } else d
    else d

/-- R285: the waits that have exceeded their limit overrun within their wall tick. DESIGN CHOICE (log entry 1). DEDUCED (log entry 30). -/
def overrunSweep (d : Dev) : Dev := (d.cells.filter fun e => e.2.wait.isSome).foldl (fun d e => holdOverrun d e.1) d

end Sys2Proof.Machine
end

