-- ==== Sys2Proof/Machine/Ring.lean ====
section
/-! DEFINITION. The ring reducer (11_ring_reduction.md): bucket entries, the order of adds, hand-over from DWACC, partials and their adds, delivery, NaN
records, completion of buckets, and the combined maxima. -/
namespace Sys2Proof.Machine

/-! ### Bucket entries (R380–R384) -/

/-- Address of bucket entry `b`. -/
def bucketAddr (d : Dev) (b : Nat) : Nat := rgf d 0x118_0050 47 22 * 0x40_0000 + 64 * b

/-- Word `k` of an open bucket's entry. -/
def bkWord (b : Bucket) (k : Nat) : Nat := (b.words.getD k 0).toNat
/-- OWNPOS. -/
def bkOwn (b : Bucket) : Nat := fld (bkWord b 0) 61 56
/-- NTM1 + 1. -/
def bkTiles (b : Bucket) : Nat := fld (bkWord b 0) 55 44 + 1
/-- BARO. -/
def bkBaro (b : Bucket) : Nat := fld (bkWord b 0) 43 26
/-- T0. -/
def bkT0 (b : Bucket) : Nat := fld (bkWord b 1) 31 0
/-- ROWS. -/
def bkRows (b : Bucket) : Nat := fld (bkWord b 2) 63 32
/-- COLS. -/
def bkCols (b : Bucket) : Nat := fld (bkWord b 2) 31 0
/-- TID. -/
def bkTid (b : Bucket) : Nat := fld (bkWord b 3) 31 0
/-- Tiles across the tensor: ceil(COLS / 64) (R382). -/
def tilesAcross (cols : Nat) : Nat := (cols + 63) / 64
/-- First row and column of tile `j` of a bucket (R382). -/
def tileOrigin (b : Bucket) (j : Nat) : Nat × Nat :=
  let t := bkT0 b + j
  let tc := tilesAcross (bkCols b)
  (64 * (t / tc), 64 * (t % tc))

/-- R380, R381: the entry of bucket `n` as it is read when the bucket opens. -/
def readBucket (d : Dev) (n stamp : Nat) : Bucket × Dev :=
  let r := engRead d (bucketAddr d n) 64
  ({ num := n, stamp := stamp, words := (List.range 7).map fun k => w64 (leNat ((r.1.drop (8 * k)).take 8)), qs := [] }, r.2)

/-- R396 KIND 4: an entry is invalid, or its OWNPOS is not a position. -/
def entryBad (d : Dev) (b : Bucket) : Bool := !bitAt (bkWord b 0) 63 || decide (ringP d ≤ bkOwn b)

/-- R384: the order in which positions add. -/
def addOrder (own q p : Nat) : List Nat :=
  (List.range p).map fun h => if q ≤ 1 then (own + h + 1) % p else (own + p - (h + 1)) % p

/-- Is this device the first position of a quarter's order? -/
def isFirst (d : Dev) (b : Bucket) (q : Nat) : Bool := (addOrder (bkOwn b) q (ringP d)).head? == some (ringPos d)
/-- Is this device the owner? -/
def isOwner (d : Dev) (b : Bucket) : Bool := bkOwn b == ringPos d

/-- The open bucket with a number. -/
def openBucket (d : Dev) (n : Nat) : Option Bucket := d.ring.buckets.find? (·.num == n)
/-- Replaces an open bucket. -/
def putBucket (d : Dev) (b : Bucket) : Dev :=
  { d with ring := { d.ring with buckets := d.ring.buckets.map fun x => if x.num = b.num then b else x } }
/-- State of tile-quarter `(j, q)`. -/
def qState (b : Bucket) (j q : Nat) : QState := tabGet (fun _ => QState.wait) b.qs (4 * j + q)
/-- Sets it. -/
def setQ (b : Bucket) (j q : Nat) (s : QState) : Bucket := { b with qs := tabPut (fun _ => QState.wait) b.qs (4 * j + q) s }

/-- R387: the bucket, opened if needed: none when a seventeenth would open, or an entry that R396 faults on. -/
def ensureOpen (d : Dev) (n stamp : Nat) : Option (Except Unit (Bucket × Dev)) :=
  match openBucket d n with
  | some b => some (.ok (b, d))
  | none =>
    let (b, e) := readBucket d n stamp
    if entryBad d b then some (.error ())
    else if 16 ≤ d.ring.buckets.length then none
    else some (.ok (b, { e with ring := { e.ring with buckets := e.ring.buckets ++ [b] } }))

/-! ### Hand-over (R385–R387, R390) -/

/-- The row of the tile that holds block `b` of a quarter, and the block's codes (R383). -/
def ownBlock (t : Contrib) (q b : Nat) : List Nat := (((t.rows.getD (16 * q + b / 2) []).drop (32 * (b % 2))).take 32)

/-- The 32 blocks of a quarter of a tile in the contribution store. -/
def ownBlocks (t : Contrib) (q : Nat) : List (List Nat) := (List.range 32).map (ownBlock t q)

/-- Their side words. -/
def ownSides (t : Contrib) (q : Nat) : List Nat := (List.range 32).map fun b => (t.sides.getD (16 * q + b / 2) []).getD (b % 2) 0

/-- R390: the tile-quarter's state once the own tile lies in the store. -/
def withOwn (d : Dev) (b : Bucket) (t : Contrib) (j q : Nat) : Bucket :=
  if ringP d = 1 then setQ b j q (.deliver { src := ringPos d, fn := none, sides := ownSides t q, blocks := ownBlocks t q })
  else match qState b j q with
    | .part p => setQ b j q (.add (some p))
    | _ => if isFirst d b q then setQ b j q (.add none) else setQ b j q .own

/-- The DWACC leaves the cell's memory side; `count` says that it counts at its hold counter. DEDUCED (log entry 32). -/
def dwLeave (d : Dev) (c : Nat) (r : DwRun) (count : Bool) : Dev :=
  let d := modCell d c fun x => { x with dwMem := x.dwMem.erase r }
  if count then countAt d c { h := r.h, n := 1, know := r.know, nclk := none } else d

/-- A ring fault that no message raised: FROM is this device's position (R396). -/
def ringOwnFault (d : Dev) (kind q bucket tile blk : Nat) : Dev :=
  ringFault d kind (if kind = 4 then 0 else quarterRing d q) (ringPos d) bucket tile q blk

/-- R385, R386: the hand-over of DWACC `r` of cell `c`; none while it waits for room, or for slots.
DEDUCED (log entry 32). DESIGN CHOICE (log entry 47). -/
def handOver (d : Dev) (c : Nat) (r : DwRun) (x : Desc) : Option Dev :=
  if stState d = 2 then some (dwLeave d c r true)
  else
    let (row, col) := dwPos x r.addr
    let formOk := decide (x.base ≤ r.addr) && x.pitch != 0 && x.base + row * x.pitch + 2 * col == r.addr && row % 64 == 0 && col % 64 == 0
    let stamp := workStamp d
    match dwBad d r x with
    | some a => some (dwFault d c a r)
    | none =>
    if !formOk then some (ringOwnFault (dwLeave d c r false) 4 0 r.bucket 0 0)
    else if !dwMay d (galleryOfCell c) r x then none
    else match ensureOpen d r.bucket stamp with
    | none => none
    | some (.error _) => some (ringOwnFault (dwLeave d c r false) 4 0 r.bucket 0 0)
    | some (.ok (b, e)) =>
      let t := row / 64 * tilesAcross x.cols + col / 64
      let j := t - bkT0 b
      if t < bkT0 b ∨ bkTiles b ≤ j ∨ d.ring.handed.contains (r.bucket, j) then
        some (ringOwnFault (dwLeave e c r false) 4 0 r.bucket (if t < bkT0 b then 0 else j) 0)
      else if 1024 ≤ d.ring.store.length then none
      else
        let u := dwRead e c r x
        let bs := dwBlocks r u.1
        let e := dwCounts u.2 c r x bs
        let ps := chunksOf 2 bs.length bs
        let tile : Contrib := { bucket := r.bucket, tile := j, e16 := r.e16, rows := ps.map fun p => p.flatMap (·.codes), sides := ps.map fun p => p.map (·.side) }
        let e := { e with ring := { e.ring with store := e.ring.store ++ [tile], handed := e.ring.handed ++ [(r.bucket, j)] }
                          upset := e.upset.filter fun u => !decide (contribAt r.bucket j 0 ≤ 8 * u.1 ∧ 8 * u.1 < contribAt r.bucket j 4) }
        let e := putBucket e ((List.range 4).foldl (fun b q => withOwn e b tile j q) b)
        some (dwLeave e c r true)

/-- RING_HANDOVER (R385, R386): the oldest DWACC of cell `c` with LAST = 1 for which there is room hands its tile over; each of the others
waits on its own memory side. DEDUCED (log entry 32). -/
def ringHandover (d : Dev) (c : Nat) : Res Dev := do
  let d ← settleNow d c
  pure (((cellOf d c).dwMem.findSome? fun r => if r.last then r.d.bind (handOver d c r) else none).getD d)

/-- DWACC_COMPLETE: the memory side of the oldest DWACC with LAST = 0 that no slot is wanting for ends: the result is stored, and its hold counter counts
(R196, R197). -/
def dwaccComplete (d : Dev) (c : Nat) : Res Dev := do
  let d ← settleNow d c
  let ready (r : DwRun) : Bool := !r.last && r.d.any fun x => (dwBad d r x).isSome || dwMay d (galleryOfCell c) r x
  match (cellOf d c).dwMem.find? ready with
  | none => pure d
  | some r =>
    match r.d with
    | none => pure d
    | some x =>
      match dwBad d r x with
      | some a => pure (dwFault d c a r)
      | none =>
        let u := dwRead d c r x
        let bs := dwBlocks r u.1
        pure (dwLeave (← dwStore (dwCounts u.2 c r x bs) c r x bs) c r true)

/-! ### Ring messages (R388, R389, R395) -/

/-- A field of a ring message's header word. -/
def rmWord (m : List Byte) (k : Nat) : Nat := leNat ((m.drop (8 * k)).take 8)
/-- TYPE. -/
def rmType (m : List Byte) : Nat := fld (rmWord m 0) 63 60
/-- STAMP. -/
def rmStamp (m : List Byte) : Nat := fld (rmWord m 1) 47 0

/-- The partial that a message carries (R388). -/
def rmPart (m : List Byte) : RingPart :=
  let w2 := rmWord m 2
  let body := m.drop 32
  { src := fld (rmWord m 0) 57 52, fn := if bitAt w2 17 then some (fld w2 9 0, fld w2 15 10) else none
    sides := (List.range 32).map fun b => leNat ((body.drop (2 * b)).take 2)
    blocks := (List.range 32).map fun b => unpackCodes 16 ((body.drop (64 + 64 * b)).take 64) }

/-- R395 item 1: the first block whose side word does not match its elements. -/
def arrivalBad (p : RingPart) : Option Nat :=
  (List.range 32).find? fun b => p.sides.getD b 0 / 256 != b16Residue (p.blocks.getD b [])

/-- A partial at the head of the receive buffer of ring `r`: none when it stays (R387, R389). DESIGN CHOICE (log entry 47). -/
def acceptPartial (d : Dev) (r : Nat) (m : List Byte) : Option Dev :=
  let w0 := rmWord m 0
  let src := fld w0 57 52
  let n := fld w0 31 16
  let j := fld w0 15 4
  let q := fld w0 3 2
  let flt (d : Dev) (k b : Nat) : Option Dev := some (ringFault d k r src n j q b)
  if rmStamp m = (stLast d + 2) % 2 ^ 48 then none
  else if rmStamp m ≠ (stLast d + 1) % 2 ^ 48 then flt d 4 0
  else
    let p := rmPart m
    match arrivalBad p with
    | some b => flt d 1 b
    | none =>
      match ensureOpen d n (rmStamp m) with
      | none => none
      | some (.error _) => flt d 4 0
      | some (.ok (b, e)) =>
        if fld w0 51 46 ≠ bkOwn b ∨ bkTiles b ≤ j then flt d 4 0
        else match qState b j q with
        | .wait => some (putBucket e (setQ b j q (.part p)))
        | .own => some (putBucket e (setQ b j q (.add (some p))))
        | _ => flt d 4 0

/-- The list that a maxima message carries. -/
def rmPairs (m : List Byte) : List (Nat × W32) :=
  (List.range (fld (rmWord m 3) 31 0)).map fun i =>
    let w := rmWord (m.drop 32) i
    (fld w 17 0, BitVec.ofNat 32 (w >>> 32))

/-- Sends a maxima message on ring 0. -/
def sendMaxima (d : Dev) (type : Nat) (l : List (Nat × W32)) : Dev :=
  sendRing d 0 (ringHeader d type 0 0 0 0 0 (stStamp d) none l.length ++ l.flatMap fun p => leBytes 8 (p.2.toNat * 2 ^ 32 + p.1))

/-- R401: a maxima message at the head of ring 0's receive buffer: none when it stays. A first-pass list waits in the state until the own DH is complete, also
one that comes before the launch; a second-pass list is adopted, and forwarded by every position but the last. Messages of other steps are dropped.
DEDUCED (log entry 24). DESIGN CHOICE (log entry 47). -/
def acceptMaxima (d : Dev) (m : List Byte) : Option Dev :=
  if rmStamp m = (stLast d + 2) % 2 ^ 48 then none
  else if rmStamp m ≠ (stLast d + 1) % 2 ^ 48 ∨ ringP d = 1 then some d
  else if rmType m = 3 then
    some (if ringPos d = 0 then { d with ring := { d.ring with final := some (rmPairs m) } } else { d with ring := { d.ring with first := some (rmPairs m) } })
  else if ringPos d = 0 ∨ stState d ≠ 1 then some d
  else
    let d := { d with ring := { d.ring with final := some (rmPairs m), secondSent := true } }
    some (if ringPos d + 1 < ringP d then sendMaxima d 4 (rmPairs m) else d)

/-- The message at the head of a receive buffer. DESIGN CHOICE (log entry 47). -/
def acceptHead (d : Dev) (r : Nat) (m : List Byte) : Option Dev :=
  if rmType m = 1 then acceptPartial d r m else if r = 0 then acceptMaxima d m else some d

/-- Takes in the messages of a receive buffer until one stays. -/
def acceptAll (d : Dev) (r : Nat) : List (List Byte) → Dev × List (List Byte)
  | [] => (d, [])
  | m :: t =>
    match acceptHead d r m with
    | none => (d, m :: t)
    | some e => acceptAll e r t

/-- The partials that ring `r` has accepted and not added: they lie in its receive buffer. -/
def heldPartials (d : Dev) (r : Nat) : Nat :=
  (d.ring.buckets.map fun b => (b.qs.filter fun e =>
    quarterRing d (e.1 % 4) == r && (match e.2 with | .part _ => true | .add (some _) => true | _ => false)).length).sum

/-- Bytes in the receive buffer of ring `r`. DESIGN CHOICE (log entry 47). -/
def rxBytes (d : Dev) (r : Nat) : Nat := ((tabGet (fun _ => []) d.ring.rx r).map (·.length)).sum + 2144 * heldPartials d r

/-- R387, R389, R397: a message of one of the types named arrives at ring `r`'s receive port, if any, and the buffer's messages are taken in as far as their
stamps and the open buckets allow. A full buffer holds the message back; a port that discards drops it. -/
def ringTake (d : Dev) (r : Nat) (types : List Nat) (m : Option (List Byte)) : Dev :=
  if !(ringsRunning d).contains r then d
  else
    let q := tabGet (fun _ => []) d.ring.rx r
    let q := match m with
      | some b => if d.ring.discard.contains r || !types.contains (rmType b) || decide (65536 < rxBytes d r + b.length) then q else q ++ [b]
      | none => q
    let res := acceptAll d r q
    { res.1 with ring := { res.1.ring with rx := tabPut (fun _ => []) res.1.ring.rx r res.2 } }

/-- RING_PARTIAL_RECEIVE (R389). -/
def ringReceive (d : Dev) (r : Nat) (m : Option (List Byte)) : Dev := ringTake d r [1] m

/-! ### Adds (R391, R393) -/

/-- Is element `i` of quarter `q` of tile `j` within ROWS and COLS? -/
def quarterIn (b : Bucket) (j q i : Nat) : Bool :=
  let o := tileOrigin b j
  decide (o.1 + 16 * q + i / 64 < bkRows b) && decide (o.2 + i % 64 < bkCols b)

/-- Code of element `i` of a quarter's blocks (R383, R388). -/
def quarterElem (blocks : List (List Nat)) (i : Nat) : Nat := (blocks.getD (2 * (i / 64) + i % 64 / 32) []).getD (i % 32) 0

/-- R393: FNIDX and FNPOS after this device's part; `old` are the blocks before it (none at the first position). -/
def fnAfter (d : Dev) (b : Bucket) (j q : Nat) (old : Option RingPart) (new : List (List Nat)) : Option (Nat × Nat) :=
  let fresh := (List.range 1024).find? fun i =>
    quarterIn b j q i && quarterElem new i == 0x8000 && (match old with | some p => quarterElem p.blocks i != 0x8000 | none => true)
  let cur := match old with | some p => p.fn | none => none
  match fresh, cur with
  | some i, some (k, p) => if i < k then some (i, ringPos d) else some (k, p)
  | some i, none => some (i, ringPos d)
  | none, c => c

/-- Adds to the device's own partial gauges (R118); nothing outside a step. -/
def devGaugeAdd (d : Dev) (baro g n : Nat) : Dev :=
  if n = 0 ∨ !inStep d then d
  else { d with devGauge := tabPut (fun _ => 0) d.devGauge (8 * baro + g) (satAdd 32 (tabGet (fun _ => 0) d.devGauge (8 * baro + g)) n) }

/-- The tile leaves the contribution store once no quarter needs it. -/
def storeFree (d : Dev) (b : Bucket) (j : Nat) : Dev :=
  if (List.range 4).all fun q => match qState b j q with | .sent => true | .deliver _ => true | .done => true | _ => false then
    { d with ring := { d.ring with store := d.ring.store.filter fun t => !(t.bucket == b.num && t.tile == j) } }
  else d

/-- R395, R396: what the adder finds wrong with block `k` of a quarter: KIND 2 or 3. The contribution is checked as it is read; each add carries the residue
(R198); the exponents must agree. -/
def addBad (p : Option RingPart) (own : List Nat) (side k : Nat) : Option Nat :=
  if side / 256 != b16Residue own then some 2
  else match p with
    | none => none
    | some u =>
      let old := u.blocks.getD k []
      let ps := u.sides.getD k 0
      if ps % 256 != side % 256 then some 3
      else if ps / 256 != b16Residue old || !b16AddCheck old own (ps / 256) (side / 256) ((old.zip own).map fun y => (b16Add y.1 y.2).1) then some 2
      else none

/-- R515, R520: the adder reads the blocks of a contribution: single-bit errors are corrected; a word that is lost raises ECC with SUB 7, and its codes are
unspecified. DESIGN CHOICE (log entry 13). -/
def storeRead (d : Dev) (n j q : Nat) (own : List (List Nat)) : List (List Nat) × Dev :=
  if d.upset.isEmpty then (own, d)
  else
    let r := eccRead d (contribAt n j q) (own.flatMap (packCodes 16))
    ((List.range 32).map fun k => unpackCodes 16 ((r.1.drop (64 * k)).take 64), r.2)

/-- The first block of a quarter that the adder finds wrong, and the KIND. -/
def addFault (p : Option RingPart) (own : List (List Nat)) (sides : List Nat) : Option (Nat × Nat) :=
  (List.range 32).findSome? fun k => (addBad p (own.getD k []) (sides.getD k 0) k).map fun f => (k, f)

/-- RING_ADD (R391): the adder forms the sum of tile-quarter `(j, q)` of bucket `n` and sends it on, or keeps it for delivery at the owner.
DESIGN CHOICE (log entry 47). -/
def ringAdd (d : Dev) (n j q : Nat) : Dev :=
  match openBucket d n with
  | none => d
  | some b =>
    match qState b j q, d.ring.store.find? (fun t => t.bucket == n && t.tile == j) with
    | .add p, some t =>
      let s := storeRead d n j q (ownBlocks t q)
      let (own, d) := s
      match openBucket d n with
      | none => d
      | some b =>
      match addFault p own (ownSides t q) with
      | some (k, f) =>
        if f = 3 then ringFault d 3 (quarterRing d q) (match p with | some u => u.src | none => ringPos d) n j q k else ringOwnFault d f q n j k
      | none =>
        let sums : List (List (Nat × Bool)) := match p with
          | some u => (u.blocks.zip own).map fun x => (x.1.zip x.2).map fun y => b16Add y.1 y.2
          | none => own.map fun x => x.map fun v => (v, false)
        let blocks := sums.map fun x => x.map (·.1)
        let d := devGaugeAdd d (bkBaro b) gB16Sat ((sums.map fun x => (x.filter (·.2)).length).sum)
        let out : RingPart :=
          { src := ringPos d, fn := fnAfter d b j q p blocks, sides := blocks.map fun x => sideWord t.e16 (b16Residue x), blocks := blocks }
        if isOwner d b then
          let b := setQ b j q (.deliver out)
          storeFree (putBucket d b) b j
        else
          let r := quarterRing d q
          let d := sendRing d r (ringHeader d 1 r (bkOwn b) n j q b.stamp out.fn 0 ++ out.sides.flatMap (leBytes 2)
            ++ out.blocks.flatMap (packCodes 16))
          let b := setQ b j q .sent
          storeFree (putBucket d b) b j
    | _, _ => d

/-! ### Delivery (R398–R400) -/

/-- R400: the records in ascending bucket number, with one more NaN element of a bucket. -/
def addNan (l : List NanRec) (n first fpos count : Nat) : List NanRec :=
  match l with
  | [] => [{ bucket := n, first := first, fpos := fpos, count := count }]
  | r :: t =>
    if r.bucket = n then
      { r with count := satAdd 32 r.count count, first := min r.first first, fpos := if first < r.first then fpos else r.fpos } :: t
    else if n < r.bucket then { bucket := n, first := first, fpos := fpos, count := count } :: r :: t
    else r :: addNan t n first fpos count

/-- R102: the ring's running maximum of a barometer of KIND 0b01. -/
def devObserve (d : Dev) (baro : Nat) (m : Option W32) : Dev :=
  match m with
  | none => d
  | some v =>
    let d := if inStep d then eccTouch d (baroAddr d baro) 16 else d
    let cfg := baroCfg d baro
    if inStep d && cfg.en && cfg.kind == 1 then
      { d with devMax := tabPut (fun _ => none) d.devMax baro (maxOf (tabGet (fun _ => none) d.devMax baro) (some v)) }
    else d

/-- Where block `k` of quarter `q` of tile `j` is delivered: its row and column, and the addresses of its elements and of its scale (R399); none when it lies beyond
ROWS or COLS. DESIGN CHOICE (log entry 47). -/
def deliverPlace (b : Bucket) (j q k : Nat) : Option (Nat × Nat × Nat × Nat) :=
  let o := tileOrigin b j
  let row := o.1 + 16 * q + k / 2
  let col := o.2 + 32 * (k % 2)
  let dim := bkWord b 5
  if bkRows b ≤ row ∨ bkCols b ≤ col then none
  else some (row, col, (fld (bkWord b 4) 47 0 + row * fld dim 31 0 + col) % 2 ^ 48, (fld (bkWord b 6) 47 0 + row * fld dim 63 32 + col / 32) % 2 ^ 48)

/-- One final block `k` of a delivered quarter: encoded to G8 and written with its scale (R398, R399). DESIGN CHOICE (log entry 47). -/
def deliverBlock (b : Bucket) (j q : Nat) (p : RingPart) (d : Dev) (k : Nat) : Res Dev :=
  match deliverPlace b j q k with
  | none => .ok d
  | some (row, col, a, sa) => do
    let e := p.sides.getD k 0 % 256
    let codes := p.blocks.getD k []
    let vals := codes.map fun c => b16Val c e
    let idx (i : Nat) : Nat := row * bkCols b + col + i
    let rnd (i : Nat) : Rnd := .sr (dice (stSeed d) (BitVec.ofNat 48 b.stamp) (BitVec.ofNat 32 (bkTid b)) (BitVec.ofNat 48 (idx i)) 0xFF)
    let enc := encodeBlk .g8 0 rnd (vals.map fun v => (some v, false))
    let bs : List Byte := enc.codes.map fun c => BitVec.ofNat 8 c
    coefGuard d a bs
    coefGuard d sa [BitVec.ofNat 8 enc.scale]
    let d := engWrite (engWrite d a bs) sa [BitVec.ofNat 8 enc.scale]
    let d := devGaugeAdd (devGaugeAdd d (bkBaro b) gNanOut enc.nans) (bkBaro b) gG8Inf enc.overflow
    let d := devObserve d (bkBaro b) (maxFinite (codes.map fun c => b16ToP32 c e))
    let desc := { descOfWords (fun _ => 0) with rows := bkRows b, cols := bkCols b, tid := bkTid b }
    pure (surveyRun d false 4 desc (enc.codes.zipIdx.map fun (c, i) =>
      (row, col + i, p32Round (elemVal .g8 c enc.scale ((enc.scale : Int) - 127)), srvBits 5 c enc.scale)))

/-- R395: the first final block whose residue does not match its elements. -/
def deliverBad (p : RingPart) : Option Nat := (List.range 32).find? fun k => p.sides.getD k 0 / 256 != b16Residue (p.blocks.getD k [])

/-- R399, R332: has owner 48 classes for the writes of a delivery? DESIGN CHOICE (log entry 12). -/
def deliverMay (d : Dev) (b : Bucket) (j q : Nat) : Bool :=
  (List.range 32).all fun k => match deliverPlace b j q k with
    | some (_, _, a, sa) => ownerMay d 48 true a 32 && ownerMay d 48 true sa 1
    | none => true

/-- RING_DELIVER (R395, R398): the owner checks, converts and writes tile-quarter `(j, q)` of bucket `n`. -/
def ringDeliver (d : Dev) (n j q : Nat) : Res Dev :=
  match openBucket d n with
  | none => .ok d
  | some b =>
    match qState b j q with
    | .deliver p =>
      match deliverBad p with
      | some k => .ok (ringOwnFault d 5 q n j k)
      | none =>
      if !deliverMay d b j q then .ok d
      else do
        let d ← (List.range 32).foldlM (deliverBlock b j q p) d
        let nans := (List.range 1024).filter fun i => quarterIn b j q i && quarterElem p.blocks i == 0x8000
        let d := match nans.head? with
          | some i =>
            let o := tileOrigin b j
            let first := (o.1 + 16 * q + i / 64) * bkCols b + o.2 + i % 64
            let pos := match p.fn with | some x => x.2 | none => ringPos d
            { d with ring := { d.ring with nan := addNan d.ring.nan n (first % 2 ^ 48) pos nans.length } }
          | none => d
        let b := setQ b j q .done
        pure (storeFree (putBucket d b) b j)
    | _ => .ok d

/-- R392: has every tile-quarter of a bucket reached its last state on this device? -/
def bucketDone (d : Dev) (b : Bucket) : Bool :=
  (List.range (bkTiles b)).all fun j => (List.range 4).all fun q =>
    match qState b j q with | .sent => !isOwner d b | .done => isOwner d b | _ => false

/-- BUCKET_COMPLETE (R392): the bucket counts toward NBUCK and frees its slot. -/
def bucketComplete (d : Dev) (n : Nat) : Dev :=
  match openBucket d n with
  | none => d
  | some b =>
    if bucketDone d b then
      { d with ring := { d.ring with buckets := d.ring.buckets.filter (·.num != n), done := d.ring.done + 1 } }
    else d

/-- RNG_STAT (R400). -/
def rngStat (d : Dev) : W64 :=
  w64 (min (d.ring.nan.length - 16) 0xFFFF * 2 ^ 32 + min d.ring.nan.length 16 * 2 ^ 16 + d.ring.buckets.length)

/-- RNG_NAN[i], word `k` (R400). -/
def rngNan (d : Dev) (i k : Nat) : W64 :=
  match (d.ring.nan.take 16)[i]? with
  | none => 0
  | some r => if k = 0 then w64 (r.bucket * 2 ^ 48 + r.first) else w64 (r.fpos * 2 ^ 32 + r.count)

/-! ### Combined maxima (R401) -/

/-- The barometers whose entry has SCOPE = 1, in ascending order: their byte 3 is not zero (R101). -/
def scopedBaros (d : Dev) : List Nat :=
  (d.mem.filter fun e => decide (baroAddr d 0 ≤ e.1 ∧ e.1 < baroAddr d 0 + 0x400_0000) && (e.1 - baroAddr d 0) % 256 == 3 && bitAt e.2.toNat 5).map
    fun e => (e.1 - baroAddr d 0) / 256

/-- R103: the device's running maximum of a barometer: the greatest over its converters, none when none has observed a finite value. -/
def localMaxO (d : Dev) (b : Nat) : Option W32 :=
  d.cells.foldl (fun m x => maxOf m (tabGet (fun _ => none) x.2.maxima b)) (tabGet (fun _ => none) d.devMax b)

/-- The device maximum; +0 when nothing was observed (R102). -/
def localMax (d : Dev) (b : Nat) : W32 := (localMaxO d b).getD 0

/-- The device's list: the scoped barometers whose maximum is not +0. -/
def ownMaxima (d : Dev) : List (Nat × W32) := (scopedBaros d).filterMap fun b => let m := localMax d b; if m = 0 then none else some (b, m)

/-- Merges two lists in ascending order, the larger maximum for each barometer. -/
def insMax (b : Nat) (m : W32) : List (Nat × W32) → List (Nat × W32)
  | [] => [(b, m)]
  | (c, v) :: t =>
    if b = c then (c, if v.toNat < m.toNat then m else v) :: t else if b < c then (b, m) :: (c, v) :: t else (c, v) :: insMax b m t

/-- Is counter DH of the device port complete in the running step (R348, R358)? -/
def dhDone (d : Dev) : Bool := stState d == 1 && portDone d 0 (rgf d 0x30B_0018 4 0)

/-- MAXIMA_FIRST_PASS (R401): a first-pass message arrives, if any; once DH is complete the position sends or merges and forwards.
DEDUCED (log entry 24). -/
def maximaFirst (d : Dev) (m : Option (List Byte)) : Dev :=
  let d := ringTake d 0 [3] m
  if ringP d = 1 || !dhDone d || d.ring.firstSent then d
  else if ringPos d = 0 then (let e := sendMaxima d 3 (ownMaxima d); { e with ring := { e.ring with firstSent := true } })
  else match d.ring.first with
    | some l => { sendMaxima d 3 ((ownMaxima d).foldl (fun l p => insMax p.1 p.2 l) l) with ring := { d.ring with first := none, firstSent := true } }
    | none => d

/-- MAXIMA_SECOND_PASS (R401): position 0 sends the final list; each other position adopts what arrives and forwards it, but for the last.
DEDUCED (log entry 24). -/
def maximaSecond (d : Dev) (m : Option (List Byte)) : Dev :=
  if ringP d = 1 then d
  else if ringPos d = 0 then
    match d.ring.final with
    | some l => if d.ring.secondSent then d else { sendMaxima d 4 l with ring := { d.ring with secondSent := true } }
    | none => d
  else ringTake d 0 [4] m

/-- R358, R401: have the combined maxima arrived? The two passes run in every step of a ring of more than one position, and position 0
sends the final list before it commits. DEDUCED (log entry 24). -/
def maximaReady (d : Dev) : Bool := ringP d == 1 || (d.ring.final.isSome && d.ring.secondSent)

/-- R103, R401: the record of a barometer: the combined maximum for SCOPE = 1, else the device's. -/
def recordMax (d : Dev) (b : Nat) (scope : Bool) : W32 :=
  if scope && ringP d != 1 then (match d.ring.final with | some l => ((l.find? (·.1 == b)).map (·.2)).getD 0 | none => 0)
  else localMax d b

end Sys2Proof.Machine
end

