-- ==== Sys2Proof/Machine/Report.lean ====
section
/-! DEFINITION. The exception and docent registers of a cell (R179, R219, R234), the survey records (R554), and the step report (R483–R486). -/
namespace Sys2Proof.Machine

/-- One bit as a number. -/
def b2n (b : Bool) : Nat := if b then 1 else 0

/-! ### Records of a cell -/

/-- BPX_CNT, BPX_LOC, BPX_STAMP (R179). -/
def bpxWords (b : BpxRec) : List W64 :=
  [w64 b.count,
   if b.valid then w64 (2 ^ 63 + b.unit * 2 ^ 48 + b.tid % 2 ^ 16 * 2 ^ 32 + b.block % 2 * 2 ^ 16 + b.row % 256 * 256 + b.col % 256) else 0,
   w64 (b.stamp % 2 ^ 48)]

/-- VX_CNT, VX_LOC, VX_STAMP, VX_SING (R219). -/
def vxWords (v : VxRec) : List W64 :=
  [w64 (v.range % 2 ^ 16 * 2 ^ 32 + v.divz % 2 ^ 16 * 2 ^ 16 + v.invalid % 2 ^ 16),
   if v.valid then w64 (2 ^ 63 + v.kind * 2 ^ 56 + v.lane * 2 ^ 12 + v.bundle) else 0,
   w64 (v.stamp % 2 ^ 48), w64 (b2n v.flag * 2 ^ 63 + v.sing % 2 ^ 32)]

/-! ### Survey (R553, R554) -/

/-- R554: the survey record of one entry. DEDUCED (log entry 26). -/
def surveyRecord (d : Dev) (e : Nat × W64) : List Byte :=
  let p := tabGet (fun _ => srvZero) d.survey e.1
  let w := e.2.toNat
  let opt (m : Option W32) : Nat := match m with | some x => x.toNat | none => 0x7FC0_0000
  leBytes 4 (fld w 31 0) ++ leBytes 2 (b2n p.sat + 2 * b2n (p.count == 0)) ++ leBytes 1 (fld w 55 48) ++ [0] ++ leBytes 8 p.count
    ++ leBytes 4 (min p.nan (2 ^ 32 - 1)) ++ leBytes 4 (min p.inf (2 ^ 32 - 1)) ++ leBytes 4 (opt p.min) ++ leBytes 4 (opt p.max)
    ++ leBytes 16 p.sum ++ leBytes 8 (p.mix ^^^ (w64 p.count * 0xB7E1_5163_9D2C_48AB#64)).toNat ++ leBytes 2 e.1 ++ leBytes 6 0

/-! ### Step scales and gauges -/

/-- The scales that the step used or uses (R105), from the table as it stood when they were computed. -/
def stepScales (d : Dev) (b : Nat) : Scales :=
  baroScales (fun a n => leNat ((List.range n).map fun i => tabGet memDefault d.scl.mem (d.scl.base + 256 * b + a + i))) d.scl.stamp

/-- R118: the combined partial count of a gauge (key 8 × barometer + gauge). -/
def partialGauge (d : Dev) (k : Nat) : Nat :=
  d.cells.foldl (fun n x => satAdd 32 n (tabGet (fun _ => 0) x.2.gauge k)) (tabGet (fun _ => 0) d.devGauge k)

/-- The gauges and barometers that any partial count belongs to. -/
def gaugeKeys (d : Dev) : List Nat :=
  (d.cells.flatMap (fun x => x.2.gauge.map (·.1)) ++ d.devGauge.map (·.1)).eraseDups

/-! ### The report -/

/-- The active ALMID (R336). -/
def almId (d : Dev) : W64 := match d.alm with | some t => t.almid | none => 0

/-- UC_CNT.SKEW of the coefficient entries as bits (R486): bit n of byte n / 8. -/
def skewBytes (d : Dev) : List Byte :=
  let base := rgf d 0x30B_1000 47 23 * 0x80_0000
  let on := (d.mem.filter fun e => decide (base ≤ e.1 ∧ e.1 < base + 0x80_0000) && (e.1 - base) % 128 == 0x44 && bitAt e.2.toNat 0).map
    fun e => (e.1 - base) / 128
  (List.range 8192).map fun i => BitVec.ofNat 8 (((List.range 8).map fun k => if on.contains (8 * i + k) then 2 ^ k else 0).sum)

/-- Cell record (R486); zero for a cell out of the map. -/
def cellRecord (d : Dev) (c : Nat) : List Byte :=
  if !portUp d (cellPort c) then List.replicate 80 0
  else
    let x := cellOf d c
    leBytes 8 x.hwait ++ leBytes 4 x.hmax ++ leBytes 4 x.hcnt
      ++ (bpxWords x.bpx ++ vxWords x.vx ++ [faultSumWord d (cellPort c)]).flatMap (fun w => leBytes 8 w.toNat)

/-- Barometer record (R486). DEDUCED (log entry 26). -/
def baroRecord (d : Dev) (committed : Bool) (b : Nat) : List Byte :=
  let s := stepScales d b
  let cfg := baroCfg d b
  let seen := match localMaxO d b with | some _ => true | none => recordMax d b cfg.scope != 0
  let adopted := cfg.scope && d.ring.final.isSome
  let m := if adopted || ringP d == 1 then recordMax d b cfg.scope else localMax d b
  let g (k : Nat) : Nat := if committed then rdN d (baroAddr d b + 0xC0 + 4 * k) 4 else partialGauge d (8 * b + k)
  leBytes 4 b ++ leBytes 4 (b2n seen) ++ leBytes 4 m.toNat
    ++ leBytes 4 ((s.texp + 127).toNat + (s.taexp + 127).toNat * 256 + s.e16 * 65536)
    ++ (List.range 8).flatMap (fun k => leBytes 4 (g k)) ++ List.replicate 16 0

/-- R486: the report of the step that ends now. -/
def reportBytes (d : Dev) (committed : Bool) : List Byte :=
  let nb := d.stp.list.length
  let ns := d.srvEnt.length
  let len := 0xAA40 + 64 * nb + 64 * ns
  let cut := d.stp.slot * 4096
  let pad (n : Nat) (l : List Byte) : List Byte := l ++ List.replicate (n - l.length) 0
  let flags := b2n committed + 2 * b2n (!committed) + 4 * b2n d.stp.replay + 8 * b2n (decide (cut < len))
  let header := leBytes 4 0x4B58_5254 ++ leBytes 2 1 ++ leBytes 2 flags ++ leBytes 8 (stStamp d) ++ leBytes 1 (myDev d) ++ leBytes 1 (ringPos d)
    ++ leBytes 6 0 ++ leBytes 8 d.stp.launchWt ++ leBytes 8 d.stp.gateWt ++ leBytes 8 d.wt ++ leBytes 4 len ++ leBytes 4 d.stp.nfault
    ++ leBytes 4 nb ++ leBytes 4 ns ++ leBytes 8 (almId d).toNat
  let regs := [rg d 0x30B_0000, rg d 0x30B_0010, rg d 0x30A_0308, rngStat d, rg d 0x118_0060, rg d 0x30B_1008, rg d 0x100_0028, faultSumWord d 0]
  let dev := regs ++ (List.range 16).flatMap fun i => [rngNan d i 0, rngNan d i 1]
  let recs := d.stp.recs.flatMap fun r => r.flatMap fun w => leBytes 8 w.toNat
  let all := pad 256 header ++ pad 320 (dev.flatMap fun w => leBytes 8 w.toNat) ++ (List.range nCells).flatMap (cellRecord d) ++ skewBytes d
    ++ pad 4096 recs ++ d.stp.list.flatMap (baroRecord d committed) ++ d.srvEnt.flatMap (surveyRecord d)
  all.take cut

/-- R433: the port of the entry for `dst` with the letter of `letter` (even a, odd b), or the other when that is not up. -/
def letterPort (d : Dev) (dst letter : Nat) : Option Nat :=
  let w := (rg d (0x100_1000 + 8 * dst)).toNat
  let a := fld w 3 0
  let b := fld w 7 4
  let c := if letter % 2 = 0 then a else b
  let o := if letter % 2 = 0 then b else a
  if !bitAt w 63 then none else if fabUp d c then some c else if fabUp d o then some o else none

/-- The port on which a routed message leaves from a source or forwarding device (R433). DESIGN CHOICE (log entry 21). -/
def routePort (d : Dev) (letter : Nat) (m : FabMsg) : Option Nat := if m.cls = 3 then relayPort d m.dst else letterPort d m.dst letter

/-- R433, R438, R479: a routed message of this device leaves, or is held while no port of its route is up. DESIGN CHOICE (log entry 21). -/
def sendRouted (d : Dev) (letter : Nat) (m : FabMsg) : Dev :=
  match routePort d letter m with
  | some p => sendMsg d p m
  | none => { d with fab := { d.fab with wait := d.fab.wait ++ [(letter, m)] } }

/-- The held messages leave, in order, as far as a port of their route is up. DESIGN CHOICE (log entry 21). -/
def fabDrain (d : Dev) : Dev :=
  d.fab.wait.foldl (fun d x => sendRouted d x.1 x.2) { d with fab := { d.fab with wait := [] } }

/-- Report bytes leave as relay-class messages of KIND 3 of at most 4,096 bytes, word 1 naming the host address (R479); the first bytes, which hold the header,
leave last (R464). DESIGN CHOICE (log entry 19). -/
def sendReport (d : Dev) (root a : Nat) (bs : List Byte) : Dev :=
  let cs := (chunksOf 4096 bs.length bs).zipIdx
  (cs.drop 1 ++ cs.take 1).foldl (fun d x => sendRouted d 0 (ownMsg d 3 root 3 (w64 (2 ^ 63 + a + 4096 * x.2)) x.1)) d

/-- R485: the report is written into a free slot, and STEP_END is posted. DEDUCED (log entry 26). -/
def writeReport (d : Dev) (committed : Bool) : Dev :=
  let st := (rg d 0x20_0218).toNat
  let prod := fld st 63 32
  let base := (rg d 0x20_0200).toNat
  let used := (prod + 2 ^ 32 - rgf d 0x20_0210 31 0) % 2 ^ 32
  let arg (none idx : Nat) : W64 :=
    w64 (idx * 2 ^ 32 + none * 4 + b2n committed + 2 * b2n (!committed) + 8 * b2n d.stp.replay)
  if bitAt base 63 && decide (used < 2 ^ fld base 59 56) then
    let a := hostBase + fld base 43 12 * 4096 + prod % 2 ^ fld base 59 56 * (d.stp.slot * 4096)
    let bs := reportBytes d committed
    let d := match fwdRoot d with | some r => sendReport d r a bs | none => hostWrite d a bs
    let d := putRgf d 0x20_0218 63 32 ((prod + 1) % 2 ^ 32)
    postEvent d 1 (arg 0 prod) (w64 (stLast d))
  else
    let d := putRgf d 0x20_0218 31 0 (satAdd 32 (fld st 31 0) 1)
    postEvent d 1 (arg 1 prod) (w64 (stLast d))

end Sys2Proof.Machine
end

