-- ==== Sys2Proof/Machine/TrainStep.lean ====
section
/-! DEFINITION. The training step (10_training_step.md): launch with scales, gauges, sequence table and coefficients (R353, R354, R406), flip, gate with
snapshots, commit, and the end of an abandonment. -/
namespace Sys2Proof.Machine

/-- STP_CFG fields. -/
def cfgNbuck (d : Dev) : Nat := rgf d 0x30B_0018 63 48
/-- FLIPEN. -/
def cfgFlipEn (d : Dev) : Bool := bitAt (rg d 0x30B_0018).toNat 16
/-- FH. -/
def cfgFh (d : Dev) : Nat := rgf d 0x30B_0018 14 10
/-- GH. -/
def cfgGh (d : Dev) : Nat := rgf d 0x30B_0018 9 5
/-- DH. -/
def cfgDh (d : Dev) : Nat := rgf d 0x30B_0018 4 0

/-- The numbers of the barometers whose byte 3 of BARO_CFG has the bits that `p` looks for (R101). -/
def barosWith (d : Dev) (p : Nat → Bool) : List Nat :=
  let base := baroAddr d 0
  (d.mem.filter fun e => decide (base ≤ e.1 ∧ e.1 < base + 0x400_0000) && (e.1 - base) % 256 == 3 && p e.2.toNat).map fun e => (e.1 - base) / 256

/-- The in-map cells. -/
def mapCells (d : Dev) : List Nat := (List.range nCells).filter fun c => portUp d (cellPort c)

/-! ### Coefficients (R403–R409) -/

/-- The entries with VALID = 1, in ascending order. -/
def coefValid (d : Dev) : List Nat :=
  let base := coefAddr d 0
  (d.mem.filter fun e => decide (base ≤ e.1 ∧ e.1 < base + 0x80_0000) && (e.1 - base) % 128 == 7 && bitAt e.2.toNat 7).map fun e => (e.1 - base) / 128

/-- R406 corr. -/
def corrFactor (b : W32) (n : Nat) : W32 :=
  let x := p32Enc (.fin false n 0)
  let l := (p32Log b).1
  let y := p32Mul x l
  let q := p32Sub 0x3F80_0000#32 (p32Exp y)
  (p32Rcp q).1

/-- R406: the learning rate `lr` of a narrow-master layer of barometer `b` as the sweep applies it. -/
def narrowLr (d : Dev) (b : Nat) (lr : W32) : W32 := p32Enc (scaleVal (p32Val lr) (-(stepScales d b).texp))

/-- R406: the learning rate of an entry as the sweep applies it. -/
def coefLrs (d : Dev) (n : Nat) : W32 :=
  let a := coefAddr d n
  let ctl := rdN d a 8
  let lr := BitVec.ofNat 32 (rdN d (a + 0x2C) 4)
  if bitAt ctl 61 then narrowLr d (fld ctl 35 18) lr else lr

/-- The narrow-master entries whose learning rate waits for the scales, with LR as the launch finds it (R405, R406). -/
def coefWaiting (d : Dev) : List (Nat × Nat × W32) :=
  (coefValid d).filterMap fun n =>
    let a := coefAddr d n
    let ctl := rdN d a 8
    if bitAt ctl 61 then some (n, fld ctl 35 18, BitVec.ofNat 32 (rdN d (a + 0x2C) 4)) else none

/-- R409: entry `n` is withheld. DEDUCED (log entry 34). -/
def recordSkew (d : Dev) (n : Nat) : Dev :=
  let d := putRgf d 0x30B_1008 47 32 (satAdd 16 (rgf d 0x30B_1008 47 32) 1)
  if bitAt (rg d 0x30B_1008).toNat 16 then d else putRgf (putRgf d 0x30B_1008 16 16 1) 0x30B_1008 15 0 n

/-- R406 launch_entry for the launched stamp. DEDUCED (log entry 34). -/
def launchEntry (stamp : Nat) (d : Dev) (n : Nat) : Dev :=
  let a := coefAddr d n
  let ctl := rdN d a 8
  let cnt := rdN d (a + 0x40) 8
  let tn := (fld cnt 31 0 + 1) % 2 ^ 32
  let emb := bitAt ctl 62
  let skew := !emb && (stamp + 2 ^ 48 - rdN d (a + 0x38) 8 % 2 ^ 48) % 2 ^ 32 != tn
  let cnt := setFld (w64 cnt) 32 32 (b2n skew)
  let cnt := if skew then setFld cnt 33 33 1 else cnt
  let one : W32 := 0x3F80_0000#32
  let c1 := if !emb && bitAt ctl 55 then corrFactor (BitVec.ofNat 32 (rdN d (a + 0x10) 4)) tn else one
  let c2 := if !emb && bitAt ctl 54 then corrFactor (BitVec.ofNat 32 (rdN d (a + 0x18) 4)) tn else one
  let d := wrN d (a + 0x40) 8 cnt.toNat
  let d := wrN d (a + 0x48) 8 (c1.toNat * 2 ^ 32 + c2.toNat)
  let d := wrN d (a + 0x50) 4 (coefLrs d n).toNat
  if skew then recordSkew d n else d

/-- R407: T advances at the commit. DEDUCED (log entry 34). -/
def commitEntry (d : Dev) (n : Nat) : Dev :=
  let a := coefAddr d n
  let ctl := rdN d a 8
  let cnt := rdN d (a + 0x40) 8
  if !bitAt ctl 62 && !bitAt cnt 32 then wrN d (a + 0x40) 4 ((fld cnt 31 0 + 1) % 2 ^ 32) else d

/-! ### Sequence table (R370, R371) -/

/-- Address of sequence entry `n`. -/
def seqAddr (d : Dev) (n : Nat) : Nat := rgf d 0x30B_0028 47 12 * 4096 + 32 * n

/-- Is the sequence table in use? -/
def seqOn (d : Dev) : Bool := bitAt (rg d 0x30B_0028).toNat 0

/-- R354: ADV is set to 0 in a valid entry. -/
def seqLaunch (d : Dev) (n : Nat) : Dev :=
  let a := seqAddr d n
  let w := rdN d a 8
  if bitAt w 63 then wrN d a 8 (setFld (w64 w) 47 24 0).toNat else d

/-- R371: a valid entry with ADV ≠ 0 advances. -/
def seqCommit (stamp : Nat) (d : Dev) (n : Nat) : Dev :=
  let a := seqAddr d n
  let w := w64 (rdN d a 8)
  let adv := fld w.toNat 47 24
  if bitAt w.toNat 63 && adv != 0 then
    let s := fld w.toNat 23 0 + adv
    let pos := if 0xFF_FFFF < s then 0xFF_FFFF else s
    let w := if 0xFF_FFFF < s then setFld w 62 62 1 else w
    let w := setFld w 23 0 pos
    let w := if fld (rdN d (a + 8) 8) 23 0 < pos then setFld w 61 61 1 else w
    let d := wrN d a 8 w.toNat
    wrN d (a + 16) 8 (setFld (w64 (rdN d (a + 16) 8)) 47 0 stamp).toNat
  else d

/-! ### Scales (R105, R106) -/

/-- R106: does a committed record that a window of step `t` reads wait to be written? -/
def histAwaited (d : Dev) (t : Nat) : Bool :=
  d.histPend.any fun h =>
    let cfg := baroCfg d h.1
    let j := (t + 2 ^ 48 - h.2.1) % 2 ^ 48
    cfg.en && decide (cfg.dl ≤ j ∧ j ≤ min (cfg.dl + cfg.w - 1) 16)

/-- The barometer table as the step's scales see it from now on (R105, R122), at the base that the step has taken; the table's reads meet its ECC (R314). -/
def snapScalesNow (d : Dev) (base t : Nat) : Dev :=
  let d := eccTouch d base 0x400_0000
  { d with scl := { base := base, stamp := t, ready := true, mem := d.mem.filter fun e => decide (base ≤ e.1 ∧ e.1 < base + 0x400_0000), lrs := [] } }

/-- R108: the scales of barometer `b` go into the snapshot of version slot 1 − PUB. -/
def snapshotBaro (d : Dev) (b : Nat) : Dev :=
  let s := stepScales d b
  wrN d (baroAddr d b + 0xE0 + 2 * (1 - stPub d)) 2 ((s.texp + 127).toNat + (s.taexp + 127).toNat * 256)

/-- R108: the snapshots of every barometer with SNAP = 1. -/
def snapshotAll (d : Dev) : Dev := let d := eccTouch d (baroAddr d 0) 0x400_0000; (barosWith d fun v => bitAt v 4).foldl snapshotBaro d

/-- BARO_SCALES_READY (R106): the scales of the launched step are computed once no record they need is awaited, by the reads of owner 51 (R331), and with them
the learning rates of narrow-master layers (R406) and, behind an open gate, the snapshots (R108). DESIGN CHOICE (log entry 47). -/
def baroScalesReady (d : Dev) : Dev :=
  if inStep d && !d.scl.ready && !histAwaited d (stStamp d) && ownerMay d 51 false d.scl.base 64 then
    let lrs := d.scl.lrs
    let d := snapScalesNow d d.scl.base (stStamp d)
    let d := lrs.foldl (fun d e => wrN d (coefAddr d e.1 + 0x50) 4 (narrowLr d e.2.1 e.2.2).toNat) d
    if stGate d then snapshotAll d else d
  else d

/-- BARO_HIST_WRITE (R106): the `n`-th committed record lands in HIST (R104), in the slots of owner 51. -/
def baroHistWrite (d : Dev) (n : Nat) : Dev :=
  match d.histPend[n]? with
  | none => d
  | some (b, st, m) =>
    if !ownerMay d 51 true (baroAddr d b + 0x40) 128 then d else
    let d := { d with histPend := d.histPend.eraseIdx n }
    if blockedPlace d (.hbm 0) then d
    else wrN d (baroAddr d b + 0x40 + 8 * (st % 16)) 8 (2 ^ 48 + st % 2 ^ 16 * 2 ^ 32 + m.toNat)

/-! ### Launch (R353, R354) -/

/-- R353: the reason to refuse the launch of a stamp; `pending` says that an accession is pending. -/
def launchReason (d : Dev) (stamp : Nat) (pending : Bool) : Option Nat :=
  if stState d ≠ 0 then some 1
  else if stamp ≠ (stLast d + 1) % 2 ^ 48 then some 2
  else if pending then some 3
  else none

/-- A cell at launch: gauges, maxima, exception records, wait statistics and the step's counters (R354, R119, R180, R220). -/
def launchCell (gh fh dh : Nat) (x : Cell) : Cell :=
  let x := { x with gauge := [], maxima := [], bpx := bpxReset, vx := vxReset, hwait := 0, hmax := 0, hcnt := 0 }
  let set (x : Cell) (h : Nat) : Cell := holdStart x h 0 1 fun _ => false
  set (set (set x gh) fh) dh

/-- R484: the report list as read at launch. -/
def reportList (d : Dev) : List Nat :=
  let w := (rg d 0x20_0220).toNat
  (List.range (fld w 63 52)).map fun i => fld (rdN d (fld w 47 2 * 4 + 4 * i) 4) 17 0

/-- R354: an accepted launch. -/
def launchStep (d : Dev) (stamp addr : Nat) (replay : Bool) : Dev :=
  let d := eccTouch d (rgf d 0x20_0220 47 2 * 4) (4 * rgf d 0x20_0220 63 52)
  let d := { d with scl := { d.scl with base := rgf d 0x308_0000 47 12 * 4096 } }
  let d := putRg d 0x30B_0000 (w64 (stamp % 2 ^ 48 * 2 ^ 8 + 1))
  let d := putRgf d 0x30B_0010 1 1 (stPub d)
  let d := putRg (putRg d 0x30A_0308 0) 0x30B_1008 0
  let d := { d with
    stp := { replay := replay, list := reportList d, slot := rgf d 0x20_0208 23 0, launchWt := d.wt, gateWt := 0, recs := [], nfault := 0 }
    ring := { d.ring with nan := [] }
    devGauge := [], devMax := [], survey := []
    srvEnt := (List.range 64).filterMap fun i =>
      let w := rg d (0x304_0000 + 8 * i)
      if bitAt w.toNat 63 then some (i, w) else none }
  let d := d.stp.list.foldl (fun d b => wrN d (baroAddr d b + 0xC0) 32 0) d
  let d := eccTouch (if seqOn d then eccTouch d (seqAddr d 0) 4096 else d) (coefAddr d 0) 0x80_0000
  let d := if histAwaited d stamp then { d with scl := { d.scl with ready := false, stamp := stamp, lrs := coefWaiting d } } else snapScalesNow d d.scl.base stamp
  let d := if seqOn d then (List.range 128).foldl seqLaunch d else d
  let d := (coefValid d).foldl (launchEntry stamp) d
  let d := (mapCells d).foldl (fun d c => modCell d c (launchCell (cfgGh d) (cfgFh d) (cfgDh d))) d
  (pushCmd d 0 (w64 (2 ^ 60 + addr % 4096)) false).2

/-! ### Flip and gate (R356, R357) -/

/-- FLIP (R356). -/
def flip (d : Dev) : Dev :=
  if stState d == 1 && cfgFlipEn d && !stFlipped d && portDone d 0 (cfgFh d) then
    putRgf (putRgf d 0x30B_0010 0 0 (1 - stPub d)) 0x30B_0000 3 3 1
  else d

/-- R457: a loan transfer stops: it is counted and announced. DESIGN CHOICE (log entry 19). -/
def stopLoan (d : Dev) (x : FabXfer) : Dev :=
  let d := { d with fab := { d.fab with xs := d.fab.xs.filter fun y => y.id != x.id } }
  let d := putRgf d 0x100_0030 47 32 (satAdd 16 (rgf d 0x100_0030 47 32) 1)
  postEvent d 5 (w64 x.idx) 0

/-- R457: the loan transfers that have source bytes still to read stop. -/
def stopLoans (d : Dev) : Dev := (d.fab.xs.filter fun x => x.loan && !x.read && decide (x.pos < x.len)).foldl stopLoan d

/-- R364: version slot 1 − PUB stops being retained, for every cell of the device. DEDUCED (log entry 40). -/
def giveUpSlot (d : Dev) : Dev :=
  let v := 1 - stPub d
  (mapCells d).foldl (fun d c => modCell d c fun x => { x with stale := v :: x.stale.filter (· != v) }) { d with sweep := d.sweep.filter (·.slot != v) }

/-- GATE_OPEN (R357). DESIGN CHOICE (log entry 47). -/
def gateOpen (d : Dev) : Dev :=
  if stState d == 1 && !stGate d && decide (cfgNbuck d ≤ d.ring.done) && (!cfgFlipEn d || stFlipped d) then
    let d := putRgf d 0x30B_0000 2 2 1
    let d := { d with stp := { d.stp with gateWt := d.wt } }
    let d := (mapCells d).foldl (fun d c => countAt d c (plainCredit (cfgGh d))) d
    let d := if d.scl.ready then snapshotAll d else d
    let d := giveUpSlot d
    stopLoans d
  else d

/-! ### Commit (R358) -/

/-- R104, R106: the record of a barometer commits; its write waits. -/
def commitRecord (d : Dev) (b : Nat) : Dev :=
  let cfg := baroCfg d b
  if cfg.en then { d with histPend := d.histPend ++ [(b, stStamp d, recordMax d b cfg.scope)] } else d

/-- R118: one gauge of a barometer takes its partial counts. -/
def commitGauge (d : Dev) (k : Nat) : Dev :=
  let a := baroAddr d (k / 8) + 0xC0 + 4 * (k % 8)
  wrN d a 4 (satAdd 32 (rdN d a 4) (partialGauge d k))

/-- Is a ring message a partial of a bucket and stamp? -/
def partialOf (n stamp : Nat) (m : List Byte) : Bool := rmType m == 1 && fld (rmWord m 0) 31 16 == n && rmStamp m == stamp

/-- R392: a bucket of the committed stamp that is still open is closed, its tile-quarters discarded from store and receive buffers, with a ring fault of
KIND 4. -/
def closeBucket (d : Dev) (b : Bucket) : Dev :=
  let d := { d with ring := { d.ring with
    buckets := d.ring.buckets.filter (·.num != b.num), store := d.ring.store.filter (·.bucket != b.num)
    rx := d.ring.rx.map fun e => (e.1, e.2.filter fun m => !partialOf b.num b.stamp m) } }
  ringOwnFault d 4 0 b.num 0 0

/-- The step's partial counts and its combined maxima are gone. -/
def clearPartials (d : Dev) : Dev :=
  let d := d.cells.foldl (fun d x => modCell d x.1 fun y => { y with gauge := [], maxima := [] }) d
  { d with devGauge := [], devMax := [], stash := [], ring := { d.ring with firstSent := false, secondSent := false, final := none } }

/-- COMMIT (R358). DEDUCED (log entry 24). -/
def commit (d : Dev) : Dev :=
  if stState d == 1 && stGate d && dhDone d && maximaReady d then
    let stamp := stStamp d
    let d := eccTouch (eccTouch (if seqOn d then eccTouch d (seqAddr d 0) 4096 else d) (coefAddr d 0) 0x80_0000) (baroAddr d 0) 0x400_0000
    let d := (barosWith d fun v => bitAt v 3).foldl commitRecord d
    let d := (gaugeKeys d).foldl commitGauge d
    let d := if seqOn d then (List.range 128).foldl (seqCommit stamp) d else d
    let d := (coefValid d).foldl commitEntry d
    let d := putRgf d 0x30B_0008 47 0 stamp
    let d := putRgf d 0x30B_0000 1 0 0
    let open_ := d.ring.buckets.filter (·.stamp == stamp)
    let d := writeReport d true
    let d := clearPartials { d with ring := { d.ring with handed := [], done := 0 } }
    open_.foldl closeBucket d
  else d

/-! ### The end of an abandonment (R361, R397, R443) -/

/-- Have the issued operations of every cell completed, and their memory sides? -/
def opsDone (d : Dev) : Bool := d.cells.all fun x => x.2.due.isEmpty && x.2.dwMem.isEmpty

/-- Is no flush of ring or fabric under way? -/
def flushed (d : Dev) : Bool := d.ring.discard.isEmpty && !d.fab.flushing

/-- ABANDON_COMPLETE (R361): STATE returns to 0 once operations, transfers and flushes have ended; the report follows. -/
def abandonComplete (d : Dev) : Res Dev := do
  if stState d ≠ 2 ∨ d.dump.isSome then pure d
  else
    let d ← (List.range nCells).foldlM (fun d c => if (cellOf d c).due.isEmpty then pure d else settleNow d c) d
    if opsDone d && (d.gals.all fun g => g.2.xs.isEmpty) && flushed d && d.fab.xs.all (·.loan) then
      pure (clearPartials (writeReport (putRgf d 0x30B_0000 1 0 0) false))
    else pure d

end Sys2Proof.Machine
end

