-- ==== Sys2Proof/Machine/Ports.lean ====
section
/-! DEFINITION. Unit-port commands and unit reset (01_unit_tree.md, R30–R34, R38, R45, R47–R52): the effect of each operation at the head of a queue, the
driver's push, and the writes of UP_FAULT_SUM, UP_HOLD, UP_TRACE and UP_RESET. -/
namespace Sys2Proof.Machine

/-- Does a compute or warm reset run (R525)? -/
def inReset (d : Dev) : Bool := rgf d 0x40_0010 5 4 != 0

/-- Do the compute dies stand still: a dump's freeze (R559), or an orderly freeze that has stopped their edges (R574)? -/
def halted (d : Dev) : Bool := d.dump.isSome || d.pwr.stopped

/-! ### Unit reset (R50–R52) -/

/-- A cell after a unit reset: as after cold reset, with what R17, R50 and the step keep: partial gauges, maxima, wait statistics, the trace funnel and the gating;
its edges count from 0 again (R538). What it held before is wiped, and the transfers `known` that have completed bind it no more.
DEDUCED (log entry 10). -/
def unitResetCell (edges : Nat) (known : List Nat) (x : Cell) : Cell :=
  { cellReset with
    known := known, base := edges, frozen := if x.gatedNow then some 0 else none, gatedNow := x.gatedNow, gateWt := x.gateWt, gauge := x.gauge, maxima := x.maxima
    traceOn := x.traceOn, tsync := x.tsync, hwait := x.hwait, hmax := x.hmax, hcnt := x.hcnt }

/-- R33, R50: every queue of the ports listed is emptied; a copy of a command of another port counts as complete there. -/
def emptyQueues (d : Dev) (ps : List Nat) : Dev :=
  let d := ps.foldl (fun d p =>
    ((portOf d p).q.filter fun e => match e.parent with | some x => !ps.contains x.1 | none => false).foldl (fun d e => complete d p e.id) d) d
  ps.foldl (fun d p => if (portOf d p).q.isEmpty then d else modPort d p fun x => { x with q := [] }) d

/-- Is an address in a folio store or a program store of the cells listed, or in a gallery store of the galleries listed? -/
def inStores (cells gals : List Nat) (a : Nat) : Bool :=
  cells.any (fun c => decide (folioBase + c * 0x80_0000 ≤ a ∧ a < folioBase + c * 0x80_0000 + folioSize)
      || decide (progWordBase + 0x2_0000 * c ≤ a ∧ a < progWordBase + 0x2_0000 * (c + 1)))
    || gals.any fun g => decide (galleryBase + g * 0x400_0000 ≤ a ∧ a < galleryBase + g * 0x400_0000 + 0x200_0000)

/-- R50: what a unit reset of port `p` does, apart from the abandonment of a running step. -/
def resetUnits (d : Dev) (p : Nat) : Dev :=
  let ps := subtree d p
  let cells := cellsUnder d p
  let gals := (ps.filter fun q => portKind q == some .gallery).map (· - 8)
  let d := emptyQueues d ps
  let d := cells.foldl (fun d c => modCell (flushRun d c) c (unitResetCell (wingOf d (wingOfCell c)).edges (d.ended.map (·.id)))) d
  let d := { d with gals := d.gals.map fun g => (g.1, { g.2 with xs := g.2.xs.map fun x => if cells.contains x.cell then { x with h := none } else x }) }
  modPort (wipeMem d (inStores cells gals)) p fun x => { x with wiping := true }

/-- A unit reset (R49, R50, R360): it abandons a running step, with a squall of CAUSE 0x10. It has no effect on a port out of the map, while a compute or warm
reset runs (R527), or while a dump holds the device. -/
def unitReset (d : Dev) (p : Nat) : Dev :=
  if !portUp d p || inReset d || d.dump.isSome then d
  else
    let d := if stState d == 1 then abandonStep (emitSquall d 0x10) else d
    resetUnits d p

/-- UNIT_RESET_WIPE_DONE (R51): the wipe of the unit reset of port `p` has completed. -/
def unitWipeDone (d : Dev) (p : Nat) : Dev := if (portOf d p).wiping then modPort d p fun x => { x with wiping := false } else d

/-! ### Commands at the head of a queue (R30–R33) -/

/-- NOP. -/
def portNop (d : Dev) (p : Nat) : Dev :=
  if !isCell p || halted d then d else match headOp d p 0 with | some e => complete d p e.id | none => d

/-- START: begins once the docent has stopped; it completes when the first bundle has issued. One whose docent stops before that (an illegal first bundle, a
squall, an overrun, a freeze) stays at the head until a unit reset empties the queue. DEDUCED (log entry 10). DESIGN CHOICE (log entry 37). -/
def portStart (d : Dev) (p : Nat) : Dev :=
  if !isCell p || halted d || d.pwr.freeze.isSome then d
  else match headOp d p 1 with
    | some e =>
      if e.begun || docentRuns d (p - 64) then d
      else
        let d := modPort d p fun x => { x with q := x.q.map fun u => if u.id == e.id then { u with begun := true } else u }
        startDocent d (p - 64) (cmdArg e.cmd)
    | none => d

/-- STOP: the docent stops at its next bundle boundary, and the command completes. -/
def portStop (d : Dev) (p : Nat) : Dev :=
  if !isCell p || halted d then d
  else match headOp d p 2 with
    | some e =>
      let d := if docentRuns d (p - 64) then flushRun (stopDocent d (p - 64)) (p - 64) else d
      complete d p e.id
    | none => d

/-- HSET. -/
def portHset (d : Dev) (p : Nat) : Dev :=
  if !isCell p || halted d then d
  else match headOp d p 3 with
    | some e => complete (modCell d (p - 64) fun x => holdStart x (cmdH e.cmd) 0 (cmdArg e.cmd % 2 ^ 32) fun _ => false) p e.id
    | none => d

/-- HINC. -/
def portHinc (d : Dev) (p : Nat) : Dev :=
  if !isCell p || halted d then d
  else match headOp d p 4 with
    | some e => complete (modCell d (p - 64) fun x => holdCredit x { h := cmdH e.cmd, n := cmdArg e.cmd % 2 ^ 32, know := e.know, nclk := none }) p e.id
    | none => d

/-- HWAIT: completes once the counter is complete. -/
def portHwait (d : Dev) (p : Nat) : Dev :=
  if !isCell p || halted d then d
  else match headOp d p 5 with
    | some e => if holdDone (cellOf d (p - 64)) (cmdH e.cmd) then complete d p e.id else d
    | none => d

/-- RESET: leaves the queue as the unit reset starts. -/
def portReset_ (d : Dev) (p : Nat) : Dev :=
  if halted d then d
  else match headOp d p 6 with
    | some e => unitReset (complete d p e.id) p
    | none => d

/-- R45, R396: a write of 1 bits to UP_FAULT_SUM, and FCLR; clearing RING at the device port empties RNG_FLT. -/
def clearSummary (d : Dev) (p bits : Nat) : Dev :=
  let d := clearFaults d p (bits % 2 ^ 11)
  if p = 0 ∧ bitAt bits 6 then putRg d 0x118_0060 0 else d

/-- FCLR. -/
def portFclr (d : Dev) (p : Nat) : Dev :=
  if halted d then d
  else match headOp d p 7 with
    | some e => complete (clearSummary d p (cmdArg e.cmd % 2 ^ 16)) p e.id
    | none => d

/-! ### Driver writes of a port's frame -/

/-- UNIT_PORT_PUSH (R31, R34): during a compute or warm reset (R527) and a dump the command is refused. -/
def driverPush (d : Dev) (p : Nat) (w : W64) : Dev := (pushCmd d p w (inReset d || d.dump.isSome)).2

/-- UP_RESET (R49). -/
def writeReset (d : Dev) (p : Nat) (v : W64) : Dev := if bitAt v.toNat 0 then unitReset d p else d

/-- UP_FAULT_SUM (R45): writes to a frame that reads as zero are ignored (R25). -/
def writeFaultSum (d : Dev) (p : Nat) (v : W64) : Dev := if portUp d p then clearSummary d p v.toNat else d

/-- UP_HOLD (R38): read-write at a cell, read-only elsewhere. The DMA completions of the same NCLK are added after it (R39). -/
def writeHold (d : Dev) (p i : Nat) (v : W64) : Dev :=
  if isCell p && portUp d p && decide (i < 32) then 
    modCell d (p - 64) fun x => holdStart x i (fld v.toNat 31 0) (fld v.toNat 63 32) fun q => q.nclk == some (nclkAt d (p - 64))
  else d

/-- UP_TRACE (R47, R48): the open runs are written under the old MODE. -/
def writeTrace (d : Dev) (p : Nat) (v : W64) : Dev :=
  if !portUp d p then d
  else
    let d := if isCell p then flushRun d (p - 64) else d
    updateFunnels (putRg d (upReg p 0x28) (v &&& 7)) p

/-! ### Reads of a port's frame -/

/-- KIND of UP_ID (R26). -/
def kindCode (p : Nat) : Nat :=
  match portKind p with
  | some .cell => 0
  | some .gallery => 1
  | some .wing => 2
  | some .device => 3
  | some .composite => 4
  | none => 0

/-- R54: the depth of composite `k`; `fuel` bounds the levels. -/
def depthN : Nat → Dev → Nat → Nat
  | 0, _, _ => 0
  | fuel + 1, d, k =>
    1 + ((d.groups.filter fun e => gValid e.2.toNat && gUp e.2.toNat == k).map fun e => depthN fuel d e.1).foldl max 0

/-- MEMBERS of UP_ID (R26): the silicon children that are members and in the map. -/
def memberMask (d : Dev) (p : Nat) : Nat :=
  let ms := members d p
  let kids : List Nat := match portKind p with
    | some .composite => let w := groupWord d (p - 512); (List.range 12).map (memberPort (gLevel w) (gHome w))
    | _ => siliconChildren p
  (kids.zipIdx.map fun (q, j) => if ms.contains q && portKind q != some .composite then 2 ^ j else 0).sum

/-- UP_ID (R26). A reserved index or an undefined composite has no unit: only INDEX and KIND are shown. IN_MAP of a defined composite reads 1.
DESIGN CHOICE (log entry 37). -/
def upId (d : Dev) (p : Nat) : W64 :=
  let parent := match parentOf d p with | some q => q | none => 0x3FF
  let comp := portKind p == some .composite
  let real := (portKind p).isSome && (!comp || portUp d p)
  w64 ((if real then parent * 2 ^ 35 else 0) + p * 2 ^ 25 + kindCode p * 2 ^ 22 + (if comp && real then depthN 8 d (p - 512) * 2 ^ 18 else 0)
    + (if real then memberMask d p * 16 else 0) + b2n (portUp d p))

/-- RUNNING (R27): a docent of the subtree issues bundles. -/
def portRunning (d : Dev) (p : Nat) : Bool := (cellsUnder d p).any fun c => docentRuns d c && !docentWaits d c

/-- UP_STATUS (R27). -/
def upStatus (d : Dev) (p : Nat) : W64 :=
  let hold := (cellsUnder d p).any (docentWaits d)
  w64 ((16 - (portOf d p).q.length) * 2 ^ 32 + b2n (portOf d p).refused * 16 + b2n (resetting d p) * 8 + b2n hold * 4 + b2n (portRunning d p) * 2
    + b2n (portIdle d p))

/-- UP_HOLD (R38). -/
def upHold (d : Dev) (p i : Nat) : W64 :=
  if isCell p then tabGet (fun _ => 0) (cellOf d (p - 64)).hold i
  else
    let cs := cellsUnder d p
    w64 (cs.length * 2 ^ 32 + (cs.filter fun c => holdDone (cellOf d c) i).length)

/-- UP_HOLD_DONE (R40). -/
def upHoldDone (d : Dev) (p : Nat) : Nat := ((List.range 32).map fun h => if portDone d p h then 2 ^ h else 0).sum

/-- A register of the frame of port `p` at frame offset `off`; frames of ports that are not in service read as zero but for UP_ID (R25). -/
def readFrame (d : Dev) (p off : Nat) : W64 :=
  if off = 0 then upId d p
  else if !portUp d p then 0
  else if off = 8 then upStatus d p
  else if off = 0x10 then (portOf d p).last &&& 0xFF80_FFFF_FFFF_FFFF#64
  else if off = 0x20 then faultSumWord d p
  else if off = 0x28 then rg d (upReg p 0x28)
  else if off = 0x30 then w64 (b2n (portOf d p).wiping)
  else if off = 0x38 then rg d (upReg p 0x38)
  else if 0x100 ≤ off ∧ off < 0x200 then upHold d p ((off - 0x100) / 8)
  else if off = 0x200 then w64 (upHoldDone d p)
  else 0

end Sys2Proof.Machine
end

