-- ==== Sys2Proof/Machine/Sha512.lean ====
section
/-! DEFINITION. SHA-512 of FIPS 180-4, which the ledger, firmware images, the almanac image and attestation name (00_scope.md, Standards used; R335, R503,
R594, R600). Its constants are computed as the standard defines them, and its eight working variables stand as the two recurrences that they spell. -/
namespace Sys2Proof.Machine

/-- The largest number whose `e`-th power is at most `n`, by bits from bit `bit` − 1 down. -/
def rootFloor (e n : Nat) : Nat → Nat → Nat
  | 0, r => r
  | bit + 1, r => rootFloor e n bit (if (r + 2 ^ bit) ^ e ≤ n then r + 2 ^ bit else r)

/-- The first 64 bits of the fraction of the `e`-th root of `p`, for a root below 2^8. -/
def rootFraction (e p : Nat) : W64 := BitVec.ofNat 64 (rootFloor e (p * 2 ^ (64 * e)) 72 0)

/-- The first `n` primes: each number from 2 on that none of those found divides. -/
def firstPrimes (n : Nat) : List Nat :=
  ((List.range 410).foldl (fun ps i => if ps.length < n ∧ ps.all (fun p => (i + 2) % p ≠ 0) then ps ++ [i + 2] else ps) [])

/-- Round constants: cube roots of the first 80 primes. -/
def shaAdd : List W64 := (firstPrimes 80).map (rootFraction 3)

/-- Initial hash value: square roots of the first eight primes. -/
def shaStart : List W64 := (firstPrimes 8).map (rootFraction 2)

/-- A word from eight bytes, the first most significant. -/
def shaWord (bs : List Byte) : W64 := bs.foldl (fun w b => w <<< 8 ||| b.setWidth 64) 0

/-- The eight bytes of a word, the most significant first. -/
def shaBytes (w : W64) : List Byte := (List.range 8).map fun i => (w >>> (8 * (7 - i))).setWidth 8

/-- The message with its padding: a one bit, zeros, and the length in bits in 16 bytes. -/
def shaPad (m : List Byte) : List Byte :=
  let z := (240 - (m.length + 1) % 128) % 128
  m ++ 0x80#8 :: List.replicate z 0 ++ (List.range 16).map fun i => BitVec.ofNat 8 ((8 * m.length) >>> (8 * (15 - i)))

/-- The sum of a word's rotations, bit by bit. -/
def rotations (rs : List Nat) (x : W64) : W64 := (rs.map x.rotateRight).foldl (· ^^^ ·) 0

/-- The schedule word after the sixteen words `w`, the latest first. -/
def shaSchedule (w : List W64) : W64 :=
  let ago (n : Nat) : W64 := w.getD (n - 1) 0
  (rotations [1, 8] (ago 15) ^^^ ago 15 >>> 7) + (rotations [19, 61] (ago 2) ^^^ ago 2 >>> 6) + ago 7 + ago 16

/-- The last four values of the recurrences of the first and the fifth working variable, the latest first. -/
abbrev ShaTrail := List (W64 × W64)

/-- One round: `kw` is the sum of its constant and its schedule word. -/
def shaTurn (t : ShaTrail) (kw : W64) : ShaTrail :=
  let p (n : Nat) : W64 × W64 := t.getD (n - 1) (0, 0)
  let pick := (p 3).2 ^^^ ((p 1).2 &&& ((p 2).2 ^^^ (p 3).2))
  let most := ((p 1).1 &&& (p 2).1) ||| ((p 3).1 &&& ((p 1).1 ||| (p 2).1))
  let s := (p 4).2 + rotations [14, 18, 41] (p 1).2 + pick + kw
  (s + rotations [28, 34, 39] (p 1).1 + most, (p 4).1 + s) :: t.take 3

/-- The rounds of a block: `w` holds the next sixteen schedule words, the latest first. -/
def shaTurns (ks : List W64) (w : List W64) (t : ShaTrail) : ShaTrail :=
  (ks.foldl (fun (s : List W64 × ShaTrail) k => (shaSchedule s.1 :: s.1.take 15, shaTurn s.2 (k + s.1.getD 15 0))) (w, t)).2

/-- The hash value as a trail, and back. -/
def toTrail (h : List W64) : ShaTrail := (h.take 4).zip (h.drop 4)
/-- A trail as a hash value. -/
def ofTrail (t : ShaTrail) : List W64 := t.map (·.1) ++ t.map (·.2)

/-- One block of 128 bytes. -/
def shaBlock (h : List W64) (b : List Byte) : List W64 :=
  let w := (List.range 16).map fun i => shaWord ((b.drop (8 * (15 - i))).take 8)
  (h.zip (ofTrail (shaTurns shaAdd w (toTrail h)))).map fun x => x.1 + x.2

/-- SHA-512: the 64-byte digest in the byte order of FIPS 180-4. -/
def sha512 (m : List Byte) : List Byte :=
  let p := shaPad m
  ((List.range (p.length / 128)).foldl (fun (s : List W64 × List Byte) _ => (shaBlock s.1 (s.2.take 128), s.2.drop 128)) (shaStart, p)).1.flatMap shaBytes

end Sys2Proof.Machine
end

