-- ==== Sys2Proof/Machine/Accession.lean ====
section
/-! DEFINITION. The crate, the condition check and the apply instant (15_accession_and_ledger.md, R488–R500), with the rules that other chapters give the
check. -/
namespace Sys2Proof.Machine

/-! ### The crate -/

/-- ACC_STAT.STATE. -/
def accState (d : Dev) : Nat := rgf d 0x10_0000 1 0

/-- Is an accession pending (R491)? -/
def accPending (d : Dev) : Bool := accState d != 0

/-- The ST bits of the register at an offset. -/
def stMask (off : Nat) : W64 := match regAt off with | some r => BitVec.ofNat 64 r.st | none => 0

/-- Is the offset one of a group table entry? Its index. -/
def groupIdx (off : Nat) : Option Nat := if 0x240_0000 ≤ off ∧ off < 0x240_1000 ∧ off % 8 = 0 then some ((off - 0x240_0000) / 8) else none

/-- The active value of an ST register. -/
def activeReg (d : Dev) (off : Nat) : W64 := match groupIdx off with | some k => tabGet groupDefault d.groups k | none => rg d off

/-- The crate entry of a register. -/
def crateAt (d : Dev) (off : Nat) : Option W64 := tabGet (fun _ => none) d.acc.crate off

/-- R494: the value that a register would have after the apply. -/
def stagedReg (d : Dev) (off : Nat) : W64 :=
  match crateAt d off with
  | some v => (activeReg d off &&& ~~~stMask off) ||| (v &&& stMask off)
  | none => activeReg d off

/-- Bits of the staged view. -/
def sgf (d : Dev) (off hi lo : Nat) : Nat := fld (stagedReg d off).toNat hi lo

/-- R494: is the register's entry a change? LOAD = 1 always is. -/
def isChange (d : Dev) (off : Nat) : Bool :=
  (crateAt d off).isSome && (stagedReg d off != activeReg d off || (off == 0x30A_0200 && bitAt (stagedReg d off).toNat 0))

/-- CRATE_WRITE (R488–R490): a write to a register that holds ST fields. DEDUCED (log entry 6). -/
def crateWrite (d : Dev) (off : Nat) (v : W64) : Res Dev :=
  let m := stMask off
  if m = 0 then .ok d
  else if accPending d then .error .crateWrite
  else if (crateAt d off).isNone ∧ 8192 ≤ d.acc.crate.length then .ok (putRgf d 0x10_0000 2 2 1)
  else .ok { d with acc := { d.acc with crate := tabPut (fun _ => none) d.acc.crate off (some (v &&& m)) } }

/-- The crate empties and OVF clears. -/
def crateEmpty (d : Dev) : Dev := putRgf { d with acc := { d.acc with crate := [], img := none } } 0x10_0000 2 2 0

/-- CRATE_DISCARD: a write of ACC_CTL (R491). -/
def crateDiscard (d : Dev) (v : W64) : Dev := if bitAt v.toNat 0 && !accPending d then crateEmpty d else d

/-- ACC_PEEKV (R491). DESIGN CHOICE (log entry 31). -/
def peekValue (d : Dev) : W64 := let off := rgf d 0x10_0020 25 3 * 8; if off = 0x10_0028 then 0 else stagedReg d off

/-! ### What the check looks at -/

/-- Offsets of the staged registers that `p` selects, ascending. -/
def staged (d : Dev) (p : Nat → Bool) : List Nat := (d.acc.crate.map (·.1)).filter p
/-- Those that are changes. -/
def changes (d : Dev) (p : Nat → Bool) : List Nat := (staged d p).filter (isChange d)

/-- Offsets from `lo`, `n` of them by 8. -/
def inRegs (lo n off : Nat) : Bool := decide (lo ≤ off ∧ off < lo + 8 * n)
/-- UP_MAP. -/
def isMap (off : Nat) : Bool := inRegs 0x241_0000 16 off
/-- UP_GROUP. -/
def isGroup (off : Nat) : Bool := inRegs 0x240_0000 512 off
/-- DCT_CTL. -/
def isDctCtl (off : Nat) : Bool := decide (0x48_0000 ≤ off ∧ off < 0x48_3000)
/-- MEM_HOME. -/
def isHome (off : Nat) : Bool := inRegs 0x30A_0100 16 off
/-- The archive's registers. -/
def isArc (off : Nat) : Bool := inRegs 0x30A_1000 256 off || off == 0x30A_0300
/-- FAB_CFG, FAB_SET, FAB_ROUTE. -/
def isFab (off : Nat) : Bool := off == 0x100_0000 || off == 0x100_0008 || inRegs 0x100_1000 64 off
/-- RNG_CFG, RNG_ORDER, RNG_PORTS. -/
def isRing (off : Nat) : Bool := inRegs 0x118_0000 10 off
/-- FAB_XRING. -/
def isXring (off : Nat) : Bool := inRegs 0x100_0200 49 off
/-- UP_HOLD_LIMIT. -/
def isLimit (off : Nat) : Bool := decide (0x200_0000 ≤ off ∧ off < 0x240_0000) && off % 0x1000 == 0x38
/-- STP_CFG, STP_SEED, STP_SEQBASE. -/
def isStp (off : Nat) : Bool := inRegs 0x30B_0018 3 off

/-- A rule that fails: its reason and the offsets that fail under it. -/
abbrev Failing := List (Nat × List Nat)

/-- A rule fails with a reason at the offsets listed. -/
def failIf (b : Bool) (reason : Nat) (offs : List Nat) : Failing := if b then [(reason, offs)] else []

/-! ### Unit map and group table (R54, R57, R58) -/

/-- Does the staged map have unit `p`? -/
def mapBit (d : Dev) (p : Nat) : Bool := bitAt (stagedReg d (0x241_0000 + 8 * (p / 64))).toNat (p % 64)

/-- R58: is the silicon unit active under the staged map with the exclusion list removed? -/
def wouldBeUp (d : Dev) (p : Nat) : Bool :=
  let own (q : Nat) : Bool := mapBit d q && !d.acc.excl.contains q
  match portKind p with
  | some .device => own p
  | some .wing => own p && own 0
  | some .gallery => own p && own (1 + (p - 8) / 12) && own 0
  | some .cell => let g := 8 + (p - 64) / 8; own p && own g && own (1 + (g - 8) / 12) && own 0
  | _ => false

/-- The silicon ports. -/
def siliconPorts : List Nat := (List.range 448).filter fun p => (portKind p).isSome

/-- R58: the active map that the accession would make. -/
def newMap (d : Dev) : BitVec 1024 := BitVec.ofNat 1024 ((siliconPorts.map fun p => if wouldBeUp d p then 2 ^ p else 0).sum)

/-- R58: the units at which the staged map breaks a rule: no device port, or a unit whose gallery or wing is omitted. -/
def mapFails (d : Dev) : List Nat :=
  siliconPorts.filter fun p =>
    match portKind p with
    | some .device => !mapBit d 0
    | some .gallery => mapBit d p && !mapBit d (1 + (p - 8) / 12)
    | some .cell => mapBit d p && !mapBit d (8 + (p - 64) / 8)
    | _ => false

/-- The staged group table entry. -/
def stagedGroup (d : Dev) (k : Nat) : Nat := (stagedReg d (0x240_0000 + 8 * k)).toNat

/-- Entries that are valid in the staged table. -/
def validGroups (d : Dev) : List Nat := (List.range 512).filter fun k => gValid (stagedGroup d k)

/-- Members of a staged entry as ports. -/
def groupPorts (w : Nat) : List Nat := ((List.range 12).filter (bitAt (gMembers w))).map (memberPort (gLevel w) (gHome w))

/-- Does following UP from entry `k` return to entry `top`? `fuel` bounds the entries. -/
def upReturns : Nat → Dev → Nat → Nat → Bool
  | 0, _, _, _ => false
  | fuel + 1, d, top, k =>
    let u := gUp (stagedGroup d k)
    u != 0x3FF && decide (u < 512) && gValid (stagedGroup d u) && (u == top || upReturns fuel d top u)

/-- The depth of a composite of the staged table. -/
def stagedDepth : Nat → Dev → List Nat → Nat → Nat
  | 0, _, _, _ => 9
  | fuel + 1, d, vs, k => 1 + ((vs.filter fun j => gUp (stagedGroup d j) == k).map (stagedDepth fuel d vs)).foldl max 0

/-- R54: does entry `k` break a rule? -/
def groupBad (d : Dev) (vs : List Nat) (k : Nat) : Bool :=
  let w := stagedGroup d k
  let lv := gLevel w
  let home := gHome w
  let u := gUp w
  fld w 8 0 != k || lv == 3 || (lv == 0 && decide (48 ≤ home)) || (lv == 1 && decide (4 ≤ home)) || (lv == 2 && home != 0)
    || decide (gMembers w / 2 ^ (if lv = 0 then 8 else if lv = 1 then 12 else 4) ≠ 0)
    || (groupPorts w).any (fun p => !wouldBeUp d p)
    || vs.any (fun j => j != k && (groupPorts (stagedGroup d j)).any (groupPorts w).contains)
    || !(u == 0x3FF || (decide (u < 512) && gValid (stagedGroup d u) && gLevel (stagedGroup d u) == lv && gHome (stagedGroup d u) == home))
    || upReturns 512 d k k
    || ((groupPorts w).isEmpty && !vs.any fun j => gUp (stagedGroup d j) == k)
    || decide (8 < stagedDepth 9 d vs k)

/-- R54: the entries that break a rule. DEDUCED (log entry 11). -/
def groupFails (d : Dev) : List Nat := let vs := validGroups d; vs.filter (groupBad d vs)

/-! ### Memory tables, home regions, archive (R100, R317, R339, R351, R380, R403, R439) -/

/-- Does the table that a staged register places at `lo`-aligned BASE of bits `hi` to `lo` end outside HBM? -/
def outsideHbm (d : Dev) (off hi lo size : Nat) : Bool := (crateAt d off).isSome && decide (hbmSize < sgf d off hi lo * 2 ^ lo + size)

/-- Valid home-stack regions of the staged view: offset, base, end, slice. -/
def stagedHomes (d : Dev) : List (Nat × Nat × Nat × Nat) :=
  (List.range 16).filterMap fun n =>
    let o := 0x30A_0100 + 8 * n
    let b := sgf d o 24 0 * 0x8000
    let s := sgf d o 56 32 * 0x1000
    if bitAt (stagedReg d o).toNat 63 then some (o, b, b + 8 * s, s) else none

/-- R317: the registers of home regions that break a rule. DEDUCED (log entry 11). -/
def homeFails (d : Dev) : List Nat :=
  let hs := stagedHomes d
  (hs.filter fun h => h.2.2.2 == 0 || decide (hbmSize < h.2.2.1) || hs.any fun g => g.1 != h.1 && decide (g.2.1 < h.2.2.1 ∧ h.2.1 < g.2.2.1)).map (·.1)

/-- R339: the archive's registers that break a rule. DEDUCED (log entry 11). -/
def arcFails (d : Dev) : List Nat :=
  let rs := (List.range 128).filter fun n => bitAt (stagedReg d (0x30A_1000 + 16 * n)).toNat 63
  let hb (n : Nat) : Nat × Nat := let o := 0x30A_1000 + 16 * n; (sgf d o 39 12 * 4096, sgf d o 39 12 * 4096 + sgf d o 62 40 * 4096)
  let ex (n : Nat) : Nat × Nat := let o := 0x30A_1008 + 16 * n; (sgf d o 24 0, sgf d o 24 0 + sgf d o 55 32)
  let size := sgf d 0x30A_0300 56 32
  let meet (a b : Nat × Nat) : Bool := decide (max a.1 b.1 < min a.2 b.2)
  ((rs.filter fun n => decide (hbmSize < (hb n).2) || rs.any fun k => k != n && meet (hb n) (hb k)).map fun n => 0x30A_1000 + 16 * n)
    ++ ((rs.filter fun n => decide (size < (ex n).2) || rs.any fun k => k != n && meet (ex n) (ex k)).map fun n => 0x30A_1008 + 16 * n)
    ++ (if depotSize d < (sgf d 0x30A_0300 24 0 + size) * 0x1_0000 then [0x30A_0300] else [])

/-- R439: staged transfer rings whose SZ is out of range or whose area leaves HBM. -/
def xringFails (d : Dev) : List Nat :=
  (staged d isXring).filter fun o =>
    let sz := sgf d o 51 48
    decide (sz < 4) || decide (12 < sz) || decide (hbmSize < sgf d o 47 6 * 64 + 64 + 32 * 2 ^ sz)

/-! ### The almanac image (R335, R337) -/

/-- The image in its holding store. -/
def imageTab (bs : List Byte) : AlmTab :=
  let at_ (o n : Nat) : List Nat := ((bs.drop o).take n).map (·.toNat)
  { almid := w64 (leNat ((bs.drop 0x10).take 8)), classes := (List.range 256).map fun e => leNat ((bs.drop (0x40 + 4 * e)).take 4)
    hbm := (List.range 512).map fun p => at_ (0x440 + 1365 * p) 1365, depot := (List.range 16).map fun q => at_ (0xA_AE40 + 512 * q) 512 }

/-- MAGIC, LAYOUT, LENGTH and digest. -/
def imageHeaderOk (bs : List Byte) : Bool :=
  leNat (bs.take 4) == 0x414C_4D4B && leNat ((bs.drop 4).take 2) == 1 && leNat ((bs.drop 8).take 4) == 708224
    && bs.drop 0xA_CE40 == sha512 (bs.take 0xA_CE40)

/-- Code 0x01 stands at every refresh position and nowhere else. -/
def refreshOk (t : AlmTab) : Bool :=
  t.hbm.all (fun l => l.zipIdx.all fun (c, s) => (c == 1) == hbmRefresh s) && t.depot.all fun l => l.zipIdx.all fun (c, s) => (c == 1) == depotRefresh s

/-- Codes and class table. -/
def codesOk (t : AlmTab) : Bool :=
  let cls (c : Nat) : SlotClass := classOf (t.classes.getD c 0)
  let good (depot : Bool) (c : Nat) : Bool := if c < 16 then decide (c < 2) || (depot && c == 2) else (cls c).valid
  t.hbm.all (fun l => l.all (good false)) && t.depot.all (fun l => l.all (good true)) && (t.classes.take 16).all (· == 0)
    && (t.classes.drop 16).all fun w => (classOf w).dir != 3 && decide ((classOf w).owner ≤ 52)

/-- Crossing rules: CROSS of every gallery class fits its slots, and at most 32 crossing slots per wing and slot number. -/
def crossOk (t : AlmTab) : Bool :=
  let cls (c : Nat) : SlotClass := classOf (t.classes.getD c 0)
  let fits (c port : Nat) : Bool :=
    let k := cls c
    decide (c < 16) || decide (48 ≤ k.owner) || (k.cross == (decide (512 ≤ port) || port / 128 != k.owner / 12))
  (t.hbm.zipIdx.all fun (l, p) => l.all fun c => fits c p) && (t.depot.zipIdx.all fun (l, q) => l.all fun c => fits c (512 + q))
    && (List.range 4).all fun w => (List.range 1365).all fun s =>
      decide ((((t.hbm.drop (128 * w)).take 128).filter fun l => decide (16 ≤ l.getD s 0) && (cls (l.getD s 0)).cross).length ≤ 32)

/-- Owner 51 has a read slot and a write slot on every HBM pseudo-channel. -/
def owner51Ok (t : AlmTab) : Bool :=
  let has (l : List Nat) (write : Bool) : Bool := l.any fun c => decide (16 ≤ c) && (classOf (t.classes.getD c 0)).owner == 51 && dirOk (classOf (t.classes.getD c 0)) write
  t.hbm.all fun l => has l false && has l true

/-- R337 in the order of R495. -/
def imageFails (bs : List Byte) : Failing :=
  let t := imageTab bs
  let o := [0x30A_0200]
  if !imageHeaderOk bs then [(0x09, o)]
  else failIf (!refreshOk t) 0x0A o ++ failIf (!codesOk t) 0x0B o ++ failIf (!crossOk t) 0x0C o ++ failIf (!owner51Ok t) 0x0D o

/-- May an image lie at an address: HBM, depot or host memory? -/
def imagePlace (d : Dev) (a : Nat) : Bool := match place d a with | .hbm _ => true | .depot _ => true | .host _ => true | _ => false

/-! ### Fabric and ring map (R377, R427, R430) -/

/-- Diameter of a shape with `n` devices. -/
def diameter (shape n : Nat) : Nat :=
  match shape with
  | 0 => 0
  | 1 => n / 2
  | 2 => 4
  | 3 => 5
  | 4 => 5
  | _ => 6

/-- R427: the device and port at the far end of port `p` of device `my`; none where the port stays uncabled. -/
def cabled (shape n my p : Nat) : Option (Nat × Nat) :=
  let fwd := p % 4 < 2
  let far := if fwd then p + 2 else p - 2
  let step (x k : Nat) : Nat := if fwd then (x + 1) % k else (x + k - 1) % k
  if shape = 0 then none
  else if shape = 1 then (if p < 4 then some (step my n, far) else none)
  else
    let x := my % 4
    let y := my / 4 % 4
    let z := my / 16
    let k := shape - 1
    if p < 4 then some (16 * z + 4 * y + step x 4, far)
    else if p < 8 then some (16 * z + 4 * step y 4 + x, far)
    else if k = 1 then none
    else some (16 * step z k + 4 * y + x, far)

/-- The number of devices in SET. -/
def setCount (w : Nat) : Nat := ((List.range 64).filter (bitAt w)).length

/-- R495: the entries that fail under a rule whose values stand in the registers `own`, or, when none of these is staged, in `rest`.
DEDUCED (log entry 11). -/
def blame (d : Dev) (own rest : List Nat) : List Nat := if own.any (fun o => (crateAt d o).isSome) then own else rest

/-- Does the device set fit the shape (R430)? -/
def setFits (shape set : Nat) : Bool :=
  let n := setCount set
  match shape with
  | 0 => set == 1
  | 1 => decide (2 ≤ n ∧ n ≤ 15) && set == 2 ^ n - 1
  | s => decide (s ≤ 5) && set == 2 ^ (16 * (s - 1)) - 1

/-- R430: is the route entry for device `t` bad? -/
def routeBad (d : Dev) (t : Nat) : Bool :=
  let w := (stagedReg d (0x100_1000 + 8 * t)).toNat
  let a := fld w 3 0
  let b := fld w 7 4
  !bitAt w 63 || a % 2 != 0 || decide (10 < a) || b != a + 1 || !(fabUp d a || fabUp d b)

/-- R430: the content rules of a fabric configuration: the entries that fail, rule by rule. DEDUCED (log entry 11). -/
def fabFails (d : Dev) : List Nat :=
  let cfg := 0x100_0000
  let my := sgf d cfg 55 50
  let shape := sgf d cfg 47 44
  let sqm := sgf d cfg 39 39
  let set := (stagedReg d 0x100_0008).toNat
  let n := setCount set
  let rule (b : Bool) (own rest : List Nat) : List Nat := if b then blame d own rest else []
  rule (decide (5 < shape)) [cfg] [] ++ rule (!setFits shape set) [0x100_0008] [cfg]
    ++ rule (!bitAt set my || !bitAt set (sgf d cfg 38 33)) [cfg] [0x100_0008]
    ++ rule (sqm == 0 && decide (16 < n)) [cfg] [0x100_0008] ++ rule (sqm == 1 && decide (sgf d cfg 43 40 < diameter shape n + 2)) [cfg] [0x100_0008]
    ++ rule ((upPorts d).any fun p =>
        cabled shape n my p != some (rgf d (0x100_0100 + 8 * p) 47 42, rgf d (0x100_0100 + 8 * p) 41 38)) [cfg] [0x100_0008]
    ++ (List.range 64).flatMap fun t => rule (bitAt set t && t != my && routeBad d t) [0x100_1000 + 8 * t] [cfg, 0x100_0008]

/-- Device number at position `i` of the staged order. -/
def orderAt (d : Dev) (i : Nat) : Nat := fld (stagedReg d (0x118_0008 + 8 * (i / 8))).toNat (8 * (i % 8) + 5) (8 * (i % 8))

/-- R377: the content rules of a ring map, against the device set and MYDEV that the apply would leave: the entries that fail, rule by rule.
DEDUCED (log entry 11). -/
def ringFails (d : Dev) : List Nat :=
  let cfg := 0x118_0000
  let ports := 0x118_0048
  let my := sgf d cfg 21 16
  let p := sgf d cfg 13 8 + 1
  let pos := (List.range p).map (orderAt d)
  let order := (List.range ((p + 7) / 8)).map fun k => 0x118_0008 + 8 * k
  let set := (stagedReg d 0x100_0008).toNat
  let run := if sgf d cfg 1 1 = 1 then [0, 1, 2, 3] else [0, 2]
  let tx (r : Nat) : Nat := sgf d ports (8 * r + 7) (8 * r + 4)
  let rx (r : Nat) : Nat := sgf d ports (8 * r + 3) (8 * r)
  let succ := pos.getD ((my + 1) % p) 0
  let pred := pos.getD ((my + p - 1) % p) 0
  let peer (q : Nat) : Nat := rgf d (0x100_0100 + 8 * q) 47 42
  let distinct (l : List Nat) : Bool := l.eraseDups.length == l.length
  let rule (b : Bool) (own rest : List Nat) : List Nat := if b then blame d own rest else []
  rule (!distinct pos || pos.any fun x => !bitAt set x) order [cfg, 0x100_0008] ++ rule (setCount set != p) [cfg] (0x100_0008 :: order)
    ++ rule (decide (p ≤ my)) [cfg] [] ++ rule (decide (my < p) && pos.getD my 64 != sgf d 0x100_0000 55 50) [cfg, 0x118_0008 + 8 * (my / 8)] [0x100_0000]
    ++ rule ((List.range 4).any fun r => decide (11 < tx r) || decide (11 < rx r)) [ports] [cfg]
    ++ rule (decide (2 ≤ p) &&
        (!distinct (run.map tx) || !distinct (run.map rx)
          || run.any fun r => !fabUp d (tx r) || !fabUp d (rx r) || peer (tx r) != (if r < 2 then succ else pred) || peer (rx r) != (if r < 2 then pred else succ)))
        [ports] (cfg :: order)

/-! ### The check (R494–R496) -/

/-- Relayed commands that wait for members, other than command `task`. -/
def relayBusy (d : Dev) (task : Option Nat) : Bool := d.host.tasks.any fun t => some t.id != task && !t.waiting.isEmpty

/-- R494: the content rules, tested once, on the configuration that the apply would produce. A rule is tested when an entry stages one of its values; the group
table's, also when the exclusion list has changed (R512); the ring map's, also when a staged FAB_SET or MYDEV is a change. DEDUCED (log entry 11). -/
def contentFails (d : Dev) (task : Option Nat) (image : List Byte) : Failing :=
  let some_ (p : Nat → Bool) : Bool := !(staged d p).isEmpty
  let mf := mapFails d
  let gf := groupFails d
  let moved := newMap d != d.actMap
  let refit := sgf d 0x100_0000 55 50 != rgf d 0x100_0000 55 50 || stagedReg d 0x100_0008 != rg d 0x100_0008
  let lims := (staged d isLimit).filter fun o => let v := sgf d o 31 0; (v == 0 && o == 0x200_0038) || decide (0 < v ∧ v < 2000)
  let c := sgf d 0x30B_0018
  failIf (bitAt (rg d 0x10_0000).toNat 2) 0x01 []
    ++ failIf (some_ isMap && !mf.isEmpty) 0x04 (mf.map fun p => 0x241_0000 + 8 * (p / 64))
    ++ failIf ((some_ isMap || some_ isGroup || moved) && !gf.isEmpty) 0x05 (gf.map fun k => 0x240_0000 + 8 * k)
    ++ failIf (!lims.isEmpty) 0x06 lims
    ++ failIf (outsideHbm d 0x308_0000 47 12 0x400_0000) 0x07 [0x308_0000]
    ++ (let hf := homeFails d; failIf (some_ isHome && !hf.isEmpty) 0x08 hf)
    ++ (if (crateAt d 0x30A_0200).isSome && bitAt (stagedReg d 0x30A_0200).toNat 0 then
          (if imagePlace d (sgf d 0x30A_0200 47 6 * 64) then imageFails image else [(0x09, [0x30A_0200])])
        else [])
    ++ (let af := arcFails d; failIf (some_ isArc && !af.isEmpty) 0x0E af)
    ++ failIf ((crateAt d 0x30B_0018).isSome && (c 14 10 == c 9 5 || c 14 10 == c 4 0 || c 9 5 == c 4 0)) 0x0F [0x30B_0018]
    ++ failIf ((crateAt d 0x30B_0028).isSome && sgf d 0x30B_0028 0 0 == 1 && outsideHbm d 0x30B_0028 47 12 4096) 0x0F [0x30B_0028]
    ++ (let rf := ringFails d; failIf ((some_ isRing || refit) && !rf.isEmpty) 0x10 rf)
    ++ failIf (outsideHbm d 0x118_0050 47 22 0x40_0000) 0x11 [0x118_0050]
    ++ failIf (outsideHbm d 0x30B_1000 47 23 0x80_0000) 0x12 [0x30B_1000]
    ++ (let ff := fabFails d ++ (if relayBusy d task || !d.fab.xs.isEmpty then changes d isFab else []); failIf (some_ isFab && !ff.isEmpty) 0x13 ff)
    ++ (let xf := xringFails d; failIf (!xf.isEmpty) 0x14 xf)
    ++ failIf ((crateAt d 0x80_0000).isSome && !([8, 10, 12, 16].contains (sgf d 0x80_0000 4 0))) 0x15 [0x80_0000]
    ++ failIf ((crateAt d 0x80_0100).isSome &&
        (let cap := sgf d 0x80_0100 63 48
         let st := sgf d 0x80_0100 47 40
         let q := sgf d 0x80_0100 31 0
         decide (cap < rgf d 0x80_0108 31 16) || decide (rgf d 0x80_0108 47 32 < cap) || st == 0 || decide (47 < st) || decide (q < 1000)
          || decide (200000 < q))) 0x16 [0x80_0100]

/-- R494: the state rules, tested at ACCEDE and at the apply instant. DEDUCED (log entry 11). -/
def stateFails (d : Dev) : Failing :=
  let q := changes d fun o => isMap o || isGroup o || isDctCtl o || isHome o || o == 0x30A_0200 && bitAt (stagedReg d o).toNat 0 || isFab o || o == 0x80_0000
  let s := if stState d = 0 then [] else changes d fun o => isStp o || isRing o || o == 0x118_0050 || o == 0x30B_1000 || isFab o
  let b := if d.ring.buckets.isEmpty then [] else changes d fun o => isRing o || o == 0x118_0050
  failIf (!q.isEmpty && !quiet d) 0x02 q ++ failIf (!(s ++ b).isEmpty) 0x03 (s ++ b)

/-- The least of a list of numbers. -/
def leastOf : List Nat → Option Nat
  | [] => none
  | a :: t => match leastOf t with | some b => some (min a b) | none => some a

/-- R495: the lowest reason among the rules that fail, with the lowest-offset crate entry that fails under it. DEDUCED (log entry 11). -/
def pickFail (d : Dev) (f : Failing) : Option (Nat × Option Nat) :=
  match leastOf (f.map (·.1)) with
  | none => none
  | some r => some (r, leastOf (((f.filter (·.1 == r)).flatMap (·.2)).filter fun o => (crateAt d o).isSome))

/-- FAB_WT.LOCKED: TMASTER is always locked (R450). -/
def wtLocked (d : Dev) : Bool := bitAt (rg d 0x100_0010).toNat 63 || rgf d 0x100_0000 38 33 == myDev d

/-- ACC_STAT.REASON and ACC_FAIL take a result. -/
def accReport (d : Dev) (reason : Nat) (off : Option Nat) : Dev :=
  let d := putRgf d 0x10_0000 63 56 reason
  putRg d 0x10_0008 (match off with | some o => w64 (2 ^ 63 + o) | none => 0)

/-- ACCEDE is taken (R492–R498): the check's rules are tested now and their result kept; an immediate rejection is the reason given. -/
def accedeTake (d : Dev) (mode : Nat) (w : W64) (task : Option Nat) : Option Nat × Dev :=
  if accPending d || bitAt (rg d 0x10_1000).toNat 4 then
    (some 0x19, postEvent d 9 (w64 (0x19 + if mode = 2 then 2 ^ 9 else 0)) (w64 d.wt))
  else if mode = 3 then (some 0x1C, postEvent (accReport d 0x1C none) 9 0x1C (w64 d.wt))
  else
    let a := sgf d 0x30A_0200 47 6 * 64
    let load := (crateAt d 0x30A_0200).isSome && bitAt (stagedReg d 0x30A_0200).toNat 0 && imagePlace d a
    let r := if load then engRead d a 708224 else ([], d)
    let d := r.2
    let f := contentFails d task r.1 ++ stateFails d
    let f := if mode = 1 then f ++ failIf (decide (w.toNat ≤ d.wt)) 0x18 [] ++ failIf (!wtLocked d) 0x1A [] else f
    let d := if mode = 1 then putRg d 0x10_0010 w else d
    (none, { putRgf d 0x10_0000 1 0 1 with
      acc := { d.acc with mode := mode, task := task, fail := pickFail d f, img := if load then some (imageTab r.1) else none } })

/-- The accession ends with a result: registers, event, and STATE 0; the caller completes the command. -/
def accEnd (d : Dev) (reason : Nat) (off : Option Nat) : Dev :=
  let d := putRgf (accReport d reason off) 0x10_0000 1 0 0
  let m2 := if d.acc.mode = 2 then 2 ^ 9 else 0
  postEvent { d with acc := { d.acc with task := none, fail := none, img := none } } 9 (w64 (reason + m2)) (w64 d.wt)

/-- CONDITION_CHECK (R494–R498): the check ends. The answer is the result when the accession ends here. -/
def checkEnd (d : Dev) : Option Nat × Dev :=
  if accState d ≠ 1 then (none, d)
  else
    let late := d.acc.mode == 1 && decide ((rg d 0x10_0010).toNat ≤ d.wt)
    match d.acc.fail, late with
    | some (r, o), l => if l && decide (0x18 < r) then (some 0x18, accEnd d 0x18 none) else (some r, accEnd d r o)
    | none, true => (some 0x18, accEnd d 0x18 none)
    | none, false => if d.acc.mode = 2 then (some 0, accEnd d 0 none) else (none, putRgf d 0x10_0000 1 0 2)

/-! ### The apply instant (R497–R499) -/

/-- A cell that leaves the map: held in unit reset, without edges (R59). -/
def cellOut (d : Dev) (c : Nat) : Dev :=
  let d := modCell (flushRun d c) c fun x => { unitResetCell (wingOf d (wingOfCell c)).edges (d.ended.map (·.id)) x with frozen := some 0, traceOn := false }
  wipeMem d (inStores [c] [])

/-- R58, R59: the active map follows the staged map. -/
def applyMap (d : Dev) (m : BitVec 1024) : Dev :=
  let old := d.actMap
  let d := (List.range nCells).foldl (fun d c =>
    let p := cellPort c
    if old.getLsbD p && !m.getLsbD p then cellOut d c
    else if !old.getLsbD p && m.getLsbD p then thawCell d c else d) d
  let gs := (List.range 48).filter fun g => old.getLsbD (galleryPort g) && !m.getLsbD (galleryPort g)
  let d := if gs.isEmpty then d else wipeMem d (inStores [] gs)
  let d := (siliconPorts.filter fun p => old.getLsbD p && !m.getLsbD p).foldl (fun d p => modPort d p fun x => { x with q := [], wiping := false }) d
  { d with actMap := m }

/-- One crate entry takes effect. -/
def applyEntry (d : Dev) (e : Nat × Option W64) : Dev :=
  match e.2 with
  | none => d
  | some v =>
    let m := stMask e.1
    let v := (activeReg d e.1 &&& ~~~m) ||| (v &&& m)
    match groupIdx e.1 with
    | some k => { d with groups := tabPut groupDefault d.groups k v }
    | none => putRg d e.1 (if e.1 = 0x30A_0200 then v &&& ~~~1#64 else v)

/-- R499: every entry takes effect; the active map follows the staged map and the exclusion list (R58), and a transfer ring whose entry is staged starts anew (R440).
DEDUCED (log entry 11). -/
def applyCrate (d : Dev) : Dev :=
  let crate := d.acc.crate
  let m := newMap d
  let rings := staged d isXring
  let d := crate.foldl applyEntry d
  let d := if m = d.actMap then d else applyMap d m
  let d := match d.acc.img with
    | some t => { d with alm := some t, almBase := d.root / 6 + 1, slotUsed := [] }
    | none => d
  let d := rings.foldl (fun d o => let r := (o - 0x100_0200) / 8; { xringSkip d r with fab := { d.fab with overrun := d.fab.overrun.filter (· != r) } }) d
  (mapCells d).foldl updateFunnel d

/-- ACCESSION_APPLY (R497–R499): the apply instant. The answer is the result when the accession ends. -/
def accApply (d : Dev) : Option Nat × Dev :=
  if accState d ≠ 2 ∨ (d.acc.mode = 1 ∧ d.wt < (rg d 0x10_0010).toNat) then (none, d)
  else match pickFail d (stateFails d) with
    | some (r, o) => (some r, accEnd d r o)
    | none =>
      let d := crateEmpty (applyCrate d)
      let d := putRgf d 0x10_0038 31 0 (satAdd 32 (rgf d 0x10_0038 31 0) 1)
      (some 0, accEnd (putRg d 0x10_0018 (w64 d.wt)) 0 none)

/-- R500: a compute or warm reset rejects a pending accession and empties the crate; the answer tells whether one was pending. -/
def accAbandon (d : Dev) : Bool × Dev :=
  if accPending d then (true, crateEmpty (accEnd d 0x1B none)) else (false, crateEmpty d)

end Sys2Proof.Machine
end

