-- ==== Sys2Proof/Machine/P521.lean ====
section
/-! DEFINITION. ECDSA P-521 of FIPS 186 over SHA-512 digests: verification, and the signature that a private scalar and a nonce give (R505, R595, R597, R600,
R607). Curve constants and point encodings come from the standards that R593 and 00_scope.md name. -/
namespace Sys2Proof.Machine

/-- The field prime 2^521 − 1. -/
def ecP : Nat := 2 ^ 521 - 1
/-- Curve coefficient b; a is −3. -/
def ecB : Nat := 0x51953eb9618e1c9a1f929a21a0b68540eea2da725b99b315f3b8b489918ef109e156193951ec7e937b1652c0bd3bb1bf073573df883d2c34f1ef451fd46b503f00
/-- Base point. -/
def ecGx : Nat := 0xc6858e06b70404e9cd9e3ecb662395b4429c648139053fb521f828af606b4d3dbaa14b5e77efe75928fe1dc127a2ffa8de3348b3c1856a429bf97e7e31c2e5bd66
/-- Base point. -/
def ecGy : Nat := 0x11839296a789a3bc0045c8a5fb42c7d1bd998f54449579b446817afbd17273e662c97ee72995ef42640c550b9013fad0761353c7086a272c24088be94769fd16650
/-- Order of the base point. -/
def ecN : Nat := 0x1fffffffffffffffffffffffffffffffffffffffffffffffffffffffffffffffffa51868783bf2f966b7fcc0148f709a5d03bb5c9b8899c47aebb6fb71e91386409

/-- Power modulo `m`; `fuel` bounds the bits of the exponent. -/
def powMod (m : Nat) : Nat → Nat → Nat → Nat
  | 0, _, _ => 1 % m
  | fuel + 1, b, e =>
    let r := powMod m fuel (b * b % m) (e / 2)
    if e % 2 = 1 then b * r % m else r

/-- Inverse modulo a prime. -/
def invMod (m a : Nat) : Nat := powMod m 521 (a % m) (m - 2)

/-- A point in projective coordinates (X : Y : Z); Z = 0 is the point at infinity. -/
structure EcPt where
  x : Nat
  y : Nat
  z : Nat
  deriving DecidableEq, Repr

/-- Difference in the field. -/
def ecSub (a b : Nat) : Nat := (a + (ecP - b % ecP)) % ecP

/-- The point at infinity. -/
def ecZero : EcPt := { x := 0, y := 1, z := 0 }

/-- Doubling. -/
def ecDouble (p : EcPt) : EcPt :=
  if p.z = 0 ∨ p.y = 0 then ecZero
  else
    let w := 3 * (ecSub p.x p.z * ((p.x + p.z) % ecP)) % ecP
    let s := p.y * p.z % ecP
    let b := p.x * p.y % ecP * s % ecP
    let h := ecSub (w * w) (8 * b)
    { x := 2 * h * s % ecP, y := ecSub (w * ecSub (4 * b) h) (8 * (p.y * p.y % ecP * (s * s % ecP)))
      z := 8 * (s * s % ecP * s) % ecP }

/-- Addition. -/
def ecAdd (p q : EcPt) : EcPt :=
  if p.z = 0 then q
  else if q.z = 0 then p
  else
    let u := ecSub (q.y * p.z) (p.y * q.z)
    let v := ecSub (q.x * p.z) (p.x * q.z)
    if v = 0 then (if u = 0 then ecDouble p else ecZero)
    else
      let zz := p.z * q.z % ecP
      let v2 := v * v % ecP
      let v3 := v2 * v % ecP
      let r := v2 * (p.x * q.z % ecP) % ecP
      let a := ecSub (ecSub (u * u % ecP * zz) v3) (2 * r)
      { x := v * a % ecP, y := ecSub (u * ecSub r a) (v3 * (p.y * q.z % ecP)), z := v3 * zz % ecP }

/-- Scalar multiple; `fuel` bounds the bits of the scalar. -/
def ecMul : Nat → Nat → EcPt → EcPt
  | 0, _, _ => ecZero
  | fuel + 1, k, p =>
    let r := ecMul fuel (k / 2) (ecDouble p)
    if k % 2 = 1 then ecAdd p r else r

/-- Affine x coordinate. -/
def ecAffX (p : EcPt) : Nat := p.x * invMod ecP p.z % ecP
/-- Affine y coordinate. -/
def ecAffY (p : EcPt) : Nat := p.y * invMod ecP p.z % ecP

/-- A number from bytes, the first most significant. -/
def beNat (bs : List Byte) : Nat := bs.foldl (fun n b => 256 * n + b.toNat) 0

/-- The `n` bytes of a number, the most significant first. -/
def beBytes (n v : Nat) : List Byte := (List.range n).map fun i => BitVec.ofNat 8 (v >>> (8 * (n - 1 - i)))

/-- Right side of the curve's equation. -/
def ecRhs (x : Nat) : Nat := (ecSub (x * x % ecP * x) (3 * x) + ecB) % ecP

/-- R593: a public key of 133 bytes (uncompressed) or 67 bytes (compressed) as a point of the curve. -/
def ecPoint (k : List Byte) : Option EcPt :=
  let f := (k.getD 0 0).toNat
  let x := beNat ((k.drop 1).take 66)
  if k.length = 133 ∧ f = 4 then
    let y := beNat (k.drop 67)
    if x < ecP ∧ y < ecP ∧ y * y % ecP = ecRhs x then some { x := x, y := y, z := 1 } else none
  else if k.length = 67 ∧ (f = 2 ∨ f = 3) ∧ x < ecP then
    let y := powMod ecP 521 (ecRhs x) ((ecP + 1) / 4)
    if y * y % ecP ≠ ecRhs x then none
    else some { x := x, y := if y % 2 = f - 2 then y else ecSub 0 y, z := 1 }
  else none

/-- ECDSA verification of a 132-byte signature (r, then s) of a digest. -/
def ecdsaVerify (key digest sig : List Byte) : Bool :=
  let r := beNat (sig.take 66)
  let s := beNat ((sig.drop 66).take 66)
  match ecPoint key with
  | none => false
  | some q =>
    if sig.length = 132 ∧ 0 < r ∧ r < ecN ∧ 0 < s ∧ s < ecN then
      let w := invMod ecN s
      let p := ecAdd (ecMul 521 (beNat digest * w % ecN) { x := ecGx, y := ecGy, z := 1 }) (ecMul 521 (r * w % ecN) q)
      p.z != 0 && ecAffX p % ecN == r
    else false

/-- The public key of a private scalar, uncompressed. -/
def ecPublic (d : Nat) : List Byte :=
  let p := ecMul 521 d { x := ecGx, y := ecGy, z := 1 }
  4#8 :: beBytes 66 (ecAffX p) ++ beBytes 66 (ecAffY p)

/-- The signature that private scalar `d` and nonce `k` give for a digest. -/
def ecdsaSign (d k : Nat) (digest : List Byte) : List Byte :=
  let r := ecAffX (ecMul 521 k { x := ecGx, y := ecGy, z := 1 }) % ecN
  let s := invMod ecN k * ((beNat digest + r * d) % ecN) % ecN
  beBytes 66 r ++ beBytes 66 s

end Sys2Proof.Machine
end

