-- ==== Sys2Proof/Machine/Ledger.lean ====
section
/-! DEFINITION. The ledger (15_accession_and_ledger.md, R502–R514): flash contents, the layout and validity of a copy, its sections, updates, and the
writing of copies without owner sections. -/
namespace Sys2Proof.Machine

/-! ### Flash and fuses -/

/-- A byte of the configuration flash: as written, or ones in an erased sector, or as shipped. DESIGN CHOICE (log entry 9). -/
def flashByte (d : Dev) (a : Nat) : Byte :=
  (tabGet (fun _ => none) d.sec.flash a).getD (if d.sec.blank.contains (a / 4096) then 0xFF else Config.flashShipped a)

/-- `n` bytes of flash. -/
def flashRead (d : Dev) (a n : Nat) : List Byte := (List.range n).map fun i => flashByte d (a + i)

/-- Bytes written to flash as they will read. -/
def flashWrite (d : Dev) (a : Nat) (bs : List Byte) : Dev :=
  { d with sec := { d.sec with flash := (bs.zipIdx).foldl (fun f b => tabPut (fun _ => none) f (a + b.2) (some b.1)) d.sec.flash } }

/-- `n` sectors of 4 KiB from the one that holds `a` on erase to ones. -/
def flashClear (d : Dev) (a n : Nat) : Dev :=
  let k := a / 4096
  { d with sec := { d.sec with flash := tabClear (fun b => decide (k ≤ b / 4096 ∧ b / 4096 < k + n)) d.sec.flash
                               blank := d.sec.blank.filter (fun s => !decide (k ≤ s ∧ s < k + n)) ++ (List.range n).map (k + ·) } }

/-- A 4 KiB sector erases to ones. -/
def flashErase (d : Dev) (a : Nat) : Dev := flashClear d a 1

/-- Life-cycle state: 0 BLANK, 1 PROVISIONED, 2 FIELD, 3 SERVICE, 4 SCRAPPED (R592). -/
def lcs (d : Dev) : Nat := d.sec.fuses.lcs

/-- A little-endian field of a byte string. -/
def leAt (bs : List Byte) (o n : Nat) : Nat := leNat ((bs.drop o).take n)

/-! ### Layout of a copy (R503, R504) -/

/-- A directory entry (R503). -/
structure LdgSec where
  id : Nat
  flags : Nat
  off : Nat
  len : Nat
  deriving DecidableEq, Repr

/-- LENGTH of a copy. -/
def ldgLength (bs : List Byte) : Nat := leAt bs 8 4

/-- The directory. -/
def ldgDir (bs : List Byte) : List LdgSec :=
  (List.range (leAt bs 6 2)).map fun i =>
    let o := 0x40 + 16 * i
    { id := leAt bs o 2, flags := leAt bs (o + 2) 2, off := leAt bs (o + 4) 4, len := leAt bs (o + 8) 4 }

/-- FLAGS that R504 gives a section: SIGNED in bit 0, OWNER in bit 1; none for a reserved ID. -/
def secFlags (id : Nat) : Option Nat :=
  match id with
  | 1 => some 2
  | 2 => some 0
  | 3 => some 2
  | 4 => some 3
  | 5 => some 1
  | 6 => some 3
  | _ => none

/-- The section with an ID. -/
def ldgFind (bs : List Byte) (id : Nat) : Option LdgSec := (ldgDir bs).find? (·.id == id)

/-- The body of a section; empty when it is missing. -/
def ldgBody (bs : List Byte) (id : Nat) : List Byte := match ldgFind bs id with | some e => (bs.drop e.off).take e.len | none => []

/-- MAGIC, LAYOUT, NSEC and LENGTH (R503). -/
def ldgHeaderOk (bs : List Byte) : Bool :=
  let n := leAt bs 6 2
  let len := ldgLength bs
  leAt bs 0 4 == 0x5247_444C && leAt bs 4 2 == 1 && decide (1 ≤ n ∧ n ≤ 32) && decide (len ≤ 2 ^ 22) && decide (0x40 + 16 * n + 196 ≤ len)
    && leAt bs 12 4 == 0 && ((bs.drop 0x18).take 0x28).all (· == 0)

/-- R506: the directory, the flags and the required sections. -/
def ldgDirOk (lc : Nat) (bs : List Byte) : Bool :=
  let dir := ldgDir bs
  let last := ldgLength bs - 196
  let first := 0x40 + 16 * dir.length
  dir.all (fun e => secFlags e.id == some e.flags && e.off % 64 == 0 && decide (first ≤ e.off) && decide (e.off + e.len ≤ last))
    && (dir.map (·.id)).eraseDups.length == dir.length
    && dir.all (fun e => dir.all fun g => g.id == e.id || decide (e.off + e.len ≤ g.off) || decide (g.off + g.len ≤ e.off))
    && (ldgFind bs 5).isSome && ((ldgFind bs 1).isSome || decide (3 ≤ lc))

/-- R505: what the signature covers: ID, LENGTH and body of every section with SIGNED = 1, in ascending ID. -/
def signedData (bs : List Byte) : List Byte :=
  [4, 5, 6].flatMap fun id => match ldgFind bs id with
    | some e => leBytes 2 id ++ leBytes 4 e.len ++ ldgBody bs id
    | none => []

/-- The signature at the end of a copy. -/
def ldgSig (bs : List Byte) : List Byte := (bs.drop (ldgLength bs - 132)).take 132

/-- R506: the digest matches. -/
def ldgDigestOk (bs : List Byte) : Bool := let n := ldgLength bs - 196; (bs.drop n).take 64 == sha512 (bs.take n)

/-- R505, R597: the signature verifies against a key. -/
def sigBy (key : Option (List Byte)) (bs : List Byte) : Bool :=
  match key with | some k => ecdsaVerify k (sha512 (signedData bs)) (ldgSig bs) | none => false

/-- The vendor key: that of the booted image (R596). -/
def vendorKey (d : Dev) : Option (List Byte) := d.sec.boot.map (·.vkey)

/-- R514: in SERVICE and SCRAPPED a copy whose only signed section is CAL verifies against DPUB too. -/
def onlyCal (bs : List Byte) : Bool := (ldgFind bs 4).isNone && (ldgFind bs 6).isNone

/-- R505, R597, R514: the signature of a copy verifies. -/
def ldgSigOk (d : Dev) (bs : List Byte) : Bool :=
  sigBy (vendorKey d) bs || sigBy d.sec.fuses.okey bs || (decide (3 ≤ lcs d) && onlyCal bs && sigBy d.sec.fuses.dpub bs)

/-- R506: a valid copy. -/
def ldgValid (d : Dev) (bs : List Byte) : Bool := ldgHeaderOk bs && ldgDirOk (lcs d) bs && ldgDigestOk bs && ldgSigOk d bs

/-- Flash offset of copy 1 (A) or 2 (B). -/
def copyBase (k : Nat) : Nat := if k = 2 then 0x40_0000 else 0

/-- A copy in flash, as many bytes as its LENGTH. -/
def copyBytes (d : Dev) (k : Nat) : List Byte :=
  let n := leNat (flashRead d (copyBase k + 8) 4)
  flashRead d (copyBase k) (if n ≤ 2 ^ 22 then max n 64 else 64)

/-- SEQ of a copy. -/
def ldgSeq (bs : List Byte) : Nat := leAt bs 0x10 8

/-- R507: the selected copy: the valid one with the higher SEQ, A at equal SEQ, 0 for the ROM default. -/
def ldgSelect (d : Dev) : Nat :=
  let a := copyBytes d 1
  let b := copyBytes d 2
  match ldgValid d a, ldgValid d b with
  | true, true => if ldgSeq a < ldgSeq b then 2 else 1
  | true, false => 1
  | false, true => 2
  | false, false => 0

/-- The bytes of the selected copy; none for the ROM default. -/
def selectedCopy (d : Dev) : List Byte := let s := rgf d 0x10_1000 1 0; if s = 0 then [] else copyBytes d s

/-- The exclusion list of a copy (R504). -/
def exclOf (bs : List Byte) : List Nat :=
  let b := ldgBody bs 3
  (List.range (leAt b 0 2)).map fun i => leAt b (2 + 2 * i) 2

/-- SEC FLAGS of a copy (R598). -/
def secOf (bs : List Byte) : Nat := leAt (ldgBody bs 6) 0 4

/-- LDG_STAT's VALA and VALB follow the flash. -/
def ldgMarks (d : Dev) : Dev :=
  putRgf d 0x10_1000 3 2 (b2n (ldgValid d (copyBytes d 1)) + 2 * b2n (ldgValid d (copyBytes d 2)))

/-- A copy becomes the selected one (R508, R512). -/
def ldgUse (d : Dev) (k : Nat) : Dev :=
  let d := putRgf (ldgMarks d) 0x10_1000 1 0 k
  let bs := if k = 0 then [] else copyBytes d k
  { putRg d 0x10_1008 (if k = 0 then 0 else w64 (ldgSeq bs)) with acc := { d.acc with excl := exclOf bs } }

/-! ### Writing copies -/

/-- The bytes with a value in place. -/
def patch (bs : List Byte) (o : Nat) (v : List Byte) : List Byte := bs.take o ++ v ++ bs.drop (o + v.length)

/-- A body padded to the next multiple of 64. -/
def pad64 (b : List Byte) : List Byte := b ++ List.replicate ((64 - b.length % 64) % 64) 0

/-- A copy laid out by R503 from its sections (ID and body), SEQ and signature. -/
def buildCopy (secs : List (Nat × List Byte)) (seq : Nat) (sig : List Byte) : List Byte :=
  let dirLen := 0x40 + 16 * secs.length
  let start := (dirLen + 63) / 64 * 64
  let placed := secs.foldl (fun (a : List (Nat × Nat × Nat) × List Byte) s => (a.1 ++ [(s.1, start + a.2.length, s.2.length)], a.2 ++ pad64 s.2)) ([], [])
  let dir := placed.1.flatMap fun e => leBytes 2 e.1 ++ leBytes 2 ((secFlags e.1).getD 0) ++ leBytes 4 e.2.1 ++ leBytes 4 e.2.2 ++ leBytes 4 0
  let len := start + placed.2.length + 196
  let head := leBytes 4 0x5247_444C ++ leBytes 2 1 ++ leBytes 2 secs.length ++ leBytes 4 len ++ leBytes 4 0 ++ leBytes 8 seq ++ List.replicate 0x28 0
  let body := pad64 (head ++ dir) ++ placed.2
  body ++ sha512 body ++ sig

/-- The presets of the current link training, as the steward keeps them for LINK (R504, R509); their bytes are not the specification's.
DESIGN CHOICE (log entry 8). -/
def linkPresets (d : Dev) : List Byte × Dev := drawBytes 64 d

/-! ### Updates (R509–R512) -/

/-- R509: the target copy: the one not selected, or an invalid one, A before B. -/
def updTarget (d : Dev) : Nat :=
  match rgf d 0x10_1000 1 0 with
  | 1 => 2
  | 2 => 1
  | _ => if bitAt (rg d 0x10_1000).toNat 2 then 2 else 1

/-- R597: does the life-cycle state refuse the image? -/
def updRefused (d : Dev) (bs : List Byte) : Bool :=
  let sel := selectedCopy d
  lcs d == 0 || lcs d == 4 || (lcs d == 3 && (ldgDir bs).any fun e => bitAt e.flags 1)
    || (lcs d == 2 && sigBy d.sec.fuses.okey bs && ldgBody bs 5 != ldgBody sel 5)
    || (lcs d == 2 && bitAt (secOf sel) 1 && sigBy (vendorKey d) bs)

/-- The image with its LINK section of LENGTH 0 replaced (R509). -/
def withLink (bs : List Byte) (presets : List Byte) : List Byte :=
  match ldgFind bs 2 with
  | some e =>
    if e.len = 0 then buildCopy ((ldgDir bs).map fun s => (s.id, if s.id = 2 then presets else ldgBody bs s.id)) (ldgSeq bs) (ldgSig bs) else bs
  | none => bs

/-- R509: the image with SEQ set and its digest computed. -/
def finishCopy (bs : List Byte) (seq : Nat) : List Byte :=
  let n := ldgLength bs - 196
  let b := patch (bs.take n) 0x10 (leBytes 8 seq)
  b ++ sha512 b ++ ldgSig bs

/-- R509: does an image stand well enough for its LINK section to be replaced? -/
def updReads (d : Dev) (bs : List Byte) : Bool := ldgHeaderOk bs && decide (ldgLength bs ≤ bs.length) && ldgDirOk (lcs d) bs

/-- R509, R510: what the steward makes of an image, whose empty LINK section is replaced before it is checked: a RESULT that refuses it, or the bytes to program and
their SEQ. DESIGN CHOICE (log entry 16). -/
def updCheck (d : Dev) (image presets : List Byte) : Except Nat (List Byte × Nat) :=
  let bs := if updReads d image then withLink image presets else image
  if !ldgHeaderOk bs || decide (bs.length < ldgLength bs) then .error 0x41
  else if !ldgDirOk (lcs d) bs then .error 0x42
  else if !ldgSigOk d bs then .error 0x43
  else if updRefused d bs then .error 0x47
  else
    let sel := rgf d 0x10_1000 1 0
    let old := (rg d 0x10_1008).toNat
    if sel ≠ 0 ∧ old = 2 ^ 64 - 1 then .error 0x45
    else
      let seq := if sel = 0 then 1 else old + 1
      .ok (finishCopy bs seq, seq)

/-- LEDGER_UPDATE (R508–R510): a write of LDG_UPD; GO starts an update. DESIGN CHOICE (log entry 16). -/
def ledgerUpdate (d : Dev) (v : W64) : Dev :=
  let d := putRg d 0x10_1010 (v &&& 0xFFFF_FFFF_FFC0#64)
  if !bitAt v.toNat 0 then d
  else if bitAt (rg d 0x10_1000).toNat 4 || accPending d then putRgf d 0x10_1000 15 8 0x40
  else
    let a := fld v.toNat 47 6 * 64
    let len := rgf d 0x10_1018 22 0
    let ok := match place d a with | .hbm _ => decide (len ≤ 2 ^ 22) | .host _ => decide (len ≤ 2 ^ 22) | _ => false
    let r := if ok then engRead d a len else ([], d)
    let p := linkPresets r.2
    let d := putRgf p.2 0x10_1000 4 4 1
    let u : LdgUpd := match updCheck d r.1 p.1 with
      | .error k => { target := updTarget d, bytes := [], seq := 0, fail := some k }
      | .ok (bs, seq) => { target := updTarget d, bytes := bs, seq := seq, fail := none }
    { d with sec := { d.sec with upd := some u } }

/-- R509: the 4 MiB of a target copy are erased, and the copy is programmed. -/
def programCopy (d : Dev) (k : Nat) (bs : List Byte) : Dev := flashWrite (flashClear d (copyBase k) 1024) (copyBase k) bs

/-- LEDGER_UPDATE_DONE (R509, R510, R512): the update ends; `readback` says that the copy read back as programmed. DESIGN CHOICE (log entry 16). -/
def ledgerDone (d : Dev) (readback : Bool) : Dev :=
  match d.sec.upd with
  | none => d
  | some u =>
    let d := { d with sec := { d.sec with upd := none } }
    let d := putRgf d 0x10_1000 4 4 0
    let r := match u.fail with | some k => k | none => if readback then 0 else 0x44
    let d := if u.fail.isNone then programCopy d u.target u.bytes else d
    let d := if u.fail.isNone ∧ !readback then flashErase d (copyBase u.target) else d
    let d := if r = 0 then ldgUse d u.target else ldgMarks d
    postEvent (putRgf d 0x10_1000 15 8 r) 9 (w64 (r % 256 + 2 ^ 8)) (w64 d.wt)

/-- R511: a compute or warm reset abandons an update; the first sector of the target copy is erased. DESIGN CHOICE (log entry 16). -/
def ledgerAbandon (d : Dev) : Dev :=
  match d.sec.upd with
  | none => d
  | some u =>
    let d := { d with sec := { d.sec with upd := none } }
    let d := ldgMarks (flashErase (putRgf d 0x10_1000 4 4 0) (copyBase u.target))
    postEvent (putRgf d 0x10_1000 15 8 0x46) 9 (w64 (0x46 + 2 ^ 8)) (w64 d.wt)

end Sys2Proof.Machine
end

