-- ==== Sys2Proof/Machine/Observe.lean ====
section
/-! DEFINITION. Observation (17_observation.md, R544–R562): the periodic SYNC, streaming of the trace buffers, the performance counters, and the inventory
dump's image. -/
namespace Sys2Proof.Machine

/-! ### Trace -/

/-- TRACE_SYNC_PERIODIC (R544): due 1,048,576 wt after the funnel turned on, or after the last one. DESIGN CHOICE (log entry 33). -/
def syncPeriodic (d : Dev) (c : Nat) : Dev :=
  if (cellOf d c).traceOn && decide ((cellOf d c).tsync + 1048576 ≤ ticks d) then
    addTimed (modCell d c fun x => { x with tsync := ticks d }) c 7 4 (cellEdge d c)
  else d

/-- TRC_BASE (R547): a change of EN from 0 to 1 sets WP to 0. DESIGN CHOICE (log entry 48). -/
def writeTrcBase (d : Dev) (g : Nat) (v : W64) : Dev :=
  let on := bitAt v.toNat 63 && !bitAt (rg d (trcReg g 0)).toNat 63
  let d := putRg d (trcReg g 0) (v &&& 0xFF00_FFFF_FFFF_0000#64)
  let d := modGal d g fun x => { x with tstop := false }
  if on then putRg d (trcReg g 8) 0 else d

/-- Size of a trace region in bytes (R547). -/
def trcSize (d : Dev) (g : Nat) : Nat := 2 ^ min (rgf d (trcReg g 0) 61 56) 20 * 0x1_0000

/-- Bytes of a stream that its region still takes: no limit with WRAP = 1 (R548). -/
def trcSpace (d : Dev) (g : Nat) : Nat :=
  if bitAt (rg d (trcReg g 0)).toNat 62 then trcSize d g
  else trcSize d g - ((rg d (trcReg g 8)) - (rg d (trcReg g 16))).toNat

/-- The slot of a streaming piece (R548): of TRC_CLASS, owner 52, CROSS = 1. DESIGN CHOICE (log entry 12). -/
def trcSlot (d : Dev) (port : Nat) : Bool :=
  let e := rgf d 0x300_0800 7 0
  classGranted d e 52 true port && (almClass d e).cross && slotFree d e port

/-- TRACE_STREAM (R547–R549): one piece of the buffer of gallery `g` moves into its region. DESIGN CHOICE (log entry 48). -/
def traceStream (d : Dev) (g : Nat) : Dev :=
  let x := galOf d g
  let w := rg d (trcReg g 0)
  if !decide (g < 48) || !portUp d (galleryPort g) || !bitAt w.toNat 63 || x.tstop then d
  else
    let wp := (rg d (trcReg g 8)).toNat
    let a := fld w.toNat 47 16 * 0x1_0000 + wp % trcSize d g
    let go (k port : Nat) : Dev :=
      let n := min (min (8 * x.trace.length) (k - a % k)) (trcSpace d g) / 8
      if n = 0 || !trcSlot d port then d
      else
        let d := engWrite (takeSlot d port) a (wordBytes (x.trace.take n))
        let d := putRg d (trcReg g 8) (w64 ((wp + 8 * n) % 2 ^ 64))
        putLost (modGal d g fun y => { y with trace := y.trace.drop n }) g
    match place d a with
    | .hbm o => go 64 (hbmPort d o)
    | .depot o => go 128 (512 + depotPort d o)
    | _ =>
      raise (modGal d g fun y => { y with tstop := true })
        { kind := 4, sub := 12, port := galleryPort g, bundle := none, addr := a % 2 ^ 48, detail := w64 g, cell := none, abandons := false }

/-! ### Performance counters (R555, R556) -/

/-- A cell with its counters at 0. -/
def clearCounts (x : Cell) : Cell := { x with nIssue := 0, nHeld := 0, nLocal := 0, nGate := 0, nFwd := 0, nBwd := 0, nStr := 0 }

/-- Every counter of R555 and R556 but CYC is 0. -/
def clearAllCounts (d : Dev) : Dev :=
  let d := d.cells.foldl (fun d x => modCell d x.1 clearCounts) d
  let d := (List.range 48).foldl (fun d g => putRg d (0x307_0100 + 8 * g) 0) d
  putRg d 0x307_0000 0

/-- CNT_CTL (R556): CLEAR and FREEZE. -/
def writeCntCtl (d : Dev) (v : W64) : Dev :=
  let d := if bitAt v.toNat 1 then clearAllCounts d else d
  putRg d 0x307_0008 (v &&& 1)

/-- A counter of a cell by its word in the frame. -/
def cellCount (x : Cell) (k : Nat) : Nat :=
  match k with
  | 1 => x.nIssue
  | 2 => x.nHeld
  | 3 => x.nLocal
  | 4 => x.nGate
  | 5 => x.nFwd
  | 6 => x.nBwd
  | 7 => x.nStr
  | _ => 0

/-- Word `k` of the counter frame of port `p` (R555); they count modulo 2^64 (R556). -/
def readCount (d : Dev) (p k : Nat) : W64 :=
  if !portUp d p then 0
  else if isCell p then (if k = 0 then w64 (cellEdge d (p - 64) % 2 ^ 48) else w64 (cellCount (cellOf d (p - 64)) k))
  else if k = 0 then 0
  else w64 (((cellsUnder d p).map fun c => cellCount (cellOf d c) k).sum)

/-! ### Inventory dump (R557–R562) -/

/-- Length of the image: 37.375 MiB. -/
def dumpLen : Nat := 0x256_0000

/-- Address that DMP_CTL gives the image. -/
def dumpBase (d : Dev) : Nat := rgf d 0x305_0000 47 16 * 0x1_0000

/-- R558: does the image lie wholly in the depot below N × C or in host memory? -/
def dumpFits (d : Dev) : Bool :=
  let a := dumpBase d
  match place d a, place d (a + dumpLen - 1) with
  | .depot _, .depot _ => true
  | .host _, .host _ => true
  | _, _ => false

/-- A piece of the image: its offset and its bytes. Bytes in no piece are 0. -/
abbrev Piece := Nat × List Byte

/-- The header (R562). -/
def dumpHeader (d : Dev) (s : DumpSt) : Piece :=
  (0, leBytes 4 0x504D_444B ++ leBytes 2 1 ++ leBytes 2 (rgf d 0x305_0008 15 8) ++ leBytes 8 (stStamp d) ++ leBytes 8 s.wt ++ leBytes 4 dumpLen
      ++ leBytes 1 (myDev d) ++ [0] ++ leBytes 2 s.port ++ leBytes 2 s.bundle)

/-- Number of tile-quarters of an open bucket in each state, in the order of R390. DESIGN CHOICE (log entry 25). -/
def qCounts (b : Bucket) : List Nat :=
  let states := (List.range (4 * bkTiles b)).map fun i => qState b (i / 4) (i % 4)
  let n (p : QState → Bool) : Nat := (states.filter p).length
  [n fun s => match s with | .wait => true | _ => false, n fun s => match s with | .own => true | _ => false,
   n fun s => match s with | .part _ => true | _ => false, n fun s => match s with | .add _ => true | _ => false,
   n fun s => match s with | .sent => true | _ => false, n fun s => match s with | .deliver _ => true | _ => false,
   n fun s => match s with | .done => true | _ => false]

/-- The device block. -/
def dumpDevice (d : Dev) : List Piece :=
  let regs := [rg d 0x30B_0000, rg d 0x30B_0008, rg d 0x30B_0010, rg d 0x30A_0308, rngStat d, rg d 0x118_0060, rg d 0x30B_1008, rg d 0x100_0028,
    faultSumWord d 0, rg d 0x40_0000] ++ (List.range 12).map fun p => rg d (0x100_0100 + 8 * p)
  [(0x1000, wordBytes regs), (0x1100, wordBytes ((List.range 4).map fun r => rg d (0x20_0018 + 0x40 * r))),
   (0x1400, wordBytes (d.flog.flatMap id))]
    ++ d.ring.buckets.zipIdx.map fun (b, i) => (0x2400 + 64 * i, leBytes 2 b.num ++ (qCounts b).flatMap (leBytes 2))

/-- Vectors or rows that a streaming operation has entered: those before the next one that is due. DESIGN CHOICE (log entry 25). -/
def enteredOf (x : Cell) (t all : Nat) : Nat :=
  ((x.due.filterMap fun u => match u.op with
    | .fwdVec t' i => if t' = t then some i else none
    | .fwdVec2 t' i _ _ _ => if t' = t then some i else none
    | .bwdRow t' i => if t' = t then some i else none
    | _ => none).head?).getD all

/-- The unit state of a cell record: eight words in the order of R562. A FWD or BWD shows bit 63 and the vectors entered.
DESIGN CHOICE (log entry 25). -/
def unitWords (d : Dev) (c : Nat) : List W64 :=
  let x := cellOf d c
  let fwd (r : Option FwdRun) : W64 := match r with
    | some r => w64 (2 ^ 63 + (if r.start.isSome then enteredOf x r.t r.cnt else 0))
    | none => 0
  let bwd (r : Option BwdRun) : W64 := match r with
    | some r => w64 (2 ^ 63 + (if r.start.isSome then enteredOf x r.t 64 else 0))
    | none => 0
  let left := (x.due.filterMap fun u => match u.op with | .solveDone _ _ => some (u.edge - cellEdge d c) | _ => none).head?
  [w64 (b2n x.plAct), w64 (b2n x.lwAct + 2 * b2n x.xyAct), fwd x.fwdCur, fwd x.fwdPend, bwd x.bwdCur, bwd x.bwdPend, w64 (b2n x.transBusy),
   w64 (left.getD 0)]

/-- DCT_ILL of a cell (R234). -/
def illReg (x : Cell) : W64 := match x.ill with | some (slot, b) => illWord slot b | none => 0

/-- An entry of the DMA queue (R562): its slot bits, then source and destination, from bit 0 on; what passes bit 127 is not held.
DESIGN CHOICE (log entry 25). -/
def dumpQueued (q : DmaEntry) : Nat :=
  let a := match q.x with | some x => (x.src, x.dst) | none => (q.a, q.b)
  (q.slot + a.1 % 2 ^ 48 * 2 ^ 40 + a.2 * 2 ^ 88) % 2 ^ 128

/-- The cell record. DESIGN CHOICE (log entry 25). -/
def dumpCell (d : Dev) (c : Nat) : List Piece :=
  let x := cellOf d c
  let p := cellPort c
  let base := 0x1_0000 + 0x800 * c
  let cond := match x.wait with | some w => w.sub + w.h * 256 | none => 0
  let loops := x.loops.map fun l => w64 (2 ^ 63 + l.stop * 2 ^ 44 + l.start * 2 ^ 32 + (lcGet x l.ctr).toNat)
  let reds := x.redirects.map fun r => w64 (2 ^ 63 + (r.left + 1) * 2 ^ 16 + r.value)
  let ws := [upStatus d p, faultSumWord d p] ++ bpxWords x.bpx ++ vxWords x.vx ++ [illReg x]
  [(base, wordBytes [w64 x.pc, w64 (cellEdge d c % 2 ^ 48), w64 cond]), (base + 0x40, wordBytes ((List.range 32).map (sGet x))),
    (base + 0x140, wordBytes ((List.range 4).map fun l => (lcGet x l).setWidth 64)), (base + 0x160, wordBytes loops), (base + 0x180, wordBytes reds),
    (base + 0x190, leBytes 2 x.winbase), (base + 0x200, wordBytes ((List.range 32).map (upHold d p))),
    (base + 0x300, wordBytes ((portOf d p).q.map (·.cmd))), (base + 0x380, x.dmaq.flatMap fun q => leBytes 16 (dumpQueued q)), (base + 0x400, wordBytes (unitWords d c)),
    (base + 0x440, wordBytes ws)]

/-- The gallery record: each transfer as four words, TRC_WP and the fill, and the trace buffer. DESIGN CHOICE (log entry 25). -/
def dumpGallery (d : Dev) (g : Nat) : List Piece :=
  let x := galOf d g
  let base := 0xD_0000 + 0x4_1000 * g
  (x.xs.zipIdx.map fun (t, i) => (base + 64 * i, wordBytes [w64 t.dd, w64 t.src, w64 t.dst, w64 t.wpos]))
    ++ [(base + 0x400, wordBytes [rg d (trcReg g 8), w64 (8 * x.trace.length)]), (base + 0x1000, wordBytes x.trace)]

/-- The vector state of a cell: its registers that are not zero, and its masks. -/
def dumpVector (d : Dev) (c : Nat) : List Piece :=
  let x := cellOf d c
  let base := 0xD0_0000 + 0x1_0400 * c
  (x.v.map fun e => (base + 1024 * e.1, e.2.flatMap fun l => leBytes 4 l.toNat))
    ++ [(base + 0x1_0000, (List.range 8).flatMap fun k => leBytes 32 (mGetMask x k).toNat)]

/-- The image but for its header. -/
def dumpBody (d : Dev) : List Piece :=
  dumpDevice d ++ (mapCells d).flatMap (dumpCell d) ++ ((List.range 48).filter fun g => portUp d (galleryPort g)).flatMap (dumpGallery d) ++ (mapCells d).flatMap (dumpVector d)

/-- The image lands: every byte of its range is 0 but for the pieces. DESIGN CHOICE (log entry 25). -/
def dumpLand (d : Dev) (base : Nat) (ps : List Piece) : Dev :=
  let d := lineDrop d base dumpLen
  let d := wipeMem d fun a => decide (base ≤ a ∧ a < base + dumpLen)
  ps.foldl (fun d p => wrBytes d (base + p.1) p.2) d

/-- R560: the dump ends: STATE and DUMP_DONE. -/
def dumpEnd (d : Dev) (ok : Bool) : Dev :=
  let d := putRgf d 0x305_0008 1 0 (if ok then 2 else 3)
  postEvent d 8 (w64 (rgf d 0x305_0008 15 8 * 256 + b2n ok)) (w64 dumpLen)

/-- R560: a capture that ends without success leaves the bytes of the image but for its header unspecified. DESIGN CHOICE (log entry 25). -/
def dumpUnspec (d : Dev) : Dev :=
  if dumpFits d then wrUnspec ((List.range (dumpLen - 4096)).map (dumpBase d + 4096 + ·)) d else d

/-- DUMP_DONE (R560): the engine has written the image, or met a write fault (`ok` = false, or an image that does not fit): its bytes but for the header
are then unspecified. The answer is the DUMP command that waited. DESIGN CHOICE (log entry 25). -/
def dumpDone (d : Dev) (ok : Bool) : Option Nat × Dev :=
  match d.dump with
  | none => (none, d)
  | some s =>
    if rgf d 0x305_0008 1 0 ≠ 1 then (none, d)
    else
      let base := dumpBase d
      let fits := dumpFits d
      if ok && fits then
        match place d base with
        | .host _ =>
          if hostUp d then (s.task, dumpEnd (dumpLand d base (dumpBody d ++ [dumpHeader d s])) true) else (none, d)
        | _ => (s.task, dumpEnd (dumpLand d base (dumpBody d ++ [dumpHeader d s])) true)
      else (s.task, dumpEnd (dumpUnspec d) false)

end Sys2Proof.Machine
end

