-- ==== Sys2Proof/Machine/Registers.lean ====
section
/-! DEFINITION. The control window: reads of every register (R14, R17, R467), and writes by access code or by the register's own rule, with the source of
the write (R445, R477, R602). -/
namespace Sys2Proof.Machine

/-- Where a register access comes from: the device's own host link, a WRREG or RDREG of its own rings, a relay request from another device's ring, or the
management bus. -/
inductive Src where
  | link | ring | relay | mgmt
  deriving DecidableEq, Repr

/-! ### Reads -/

/-- FLT_REC (R520): a word of a record of the log. -/
def logWord (d : Dev) (k : Nat) : W64 := (d.flog.getD (k / 8) []).getD (k % 8) 0

/-- The sync parent (R449): the peer on PA of the route to TMASTER, or on PB when PA is not up; none for TMASTER, or without a route. -/
def syncParent (d : Dev) : Option Nat :=
  let t := rgf d 0x100_0000 38 33
  if t = myDev d then none
  else relayPort d t

/-- FAB_WT (R450). -/
def wtWord (d : Dev) : W64 :=
  let w := setFld (rg d 0x100_0010) 63 63 (b2n (wtLocked d))
  match syncParent d with
  | some p => setFld w 55 50 (rgf d (0x100_0100 + 8 * p) 47 42)
  | none => w

/-- BPX_, VX_ and DCT_ registers of a cell by offset (R179, R219, R234). -/
def cellReg (d : Dev) (off : Nat) : W64 :=
  let c := off % 0x1_0000 / 32
  let k := off % 32 / 8
  let x := cellOf d c
  if off < 0x47_0000 then (bpxWords x.bpx).getD k 0
  else if off < 0x48_0000 then (vxWords x.vx).getD k 0
  else if k = 0 then rg d off
  else if k = 1 then w64 (x.pc % 4096 + b2n x.running * 4096 + b2n (x.running && x.wait.isSome) * 8192)
  else illReg x

/-- What a register shows, but for the read-back of ACC_PEEKV. -/
def regShown (d : Dev) (off : Nat) : W64 :=
  if off = 0 then rg d 0 ||| ((Config.revision.setWidth 64) <<< 40)
  else if off = 0x10_0000 then setFld (rg d off) 53 40 d.acc.crate.length
  else if off = 0x10_0020 then setFld (rg d off) 63 63 (b2n (crateAt d (rgf d off 25 3 * 8)).isSome)
  else if off = 0x10_1010 then setFld (rg d off) 0 0 (rgf d 0x10_1000 4 4)
  else if off = 0x40_0010 then
    (if rgf d off 5 4 = 2 then setFld (rg d off) 39 32 ((Config.freeWord d.fresh).toNat % 101) else rg d off)
  else if 0x40_1000 ≤ off ∧ off < 0x40_2000 then logWord d ((off - 0x40_1000) / 8)
  else if 0x46_0000 ≤ off ∧ off < 0x49_0000 then cellReg d off
  else if off = 0x100_0010 then wtWord d
  else if off = 0x100_0018 then w64 d.wt
  else if off = 0x100_0030 then setFld (rg d off) 15 0 (d.fab.xs.filter (·.loan)).length
  else if off = 0x118_0058 then rngStat d
  else if 0x118_0100 ≤ off ∧ off < 0x118_0200 then rngNan d ((off - 0x118_0100) / 16) (off / 8 % 2)
  else if 0x200_0000 ≤ off ∧ off < 0x240_0000 then readFrame d ((off - 0x200_0000) / 0x1000) (off % 0x1000)
  else if 0x306_0000 ≤ off ∧ off < 0x307_0000 then readCount d ((off - 0x306_0000) / 64) (off % 64 / 8)
  else if off = 0x30A_0208 then almId d
  else activeReg d off

/-- The value a read of a register returns; none for a reserved offset (R467). DESIGN CHOICE (log entry 31). -/
def regValue (d : Dev) (off : Nat) : Option W64 :=
  match regAt off with
  | none => none
  | some _ =>
    if off = 0x10_0028 then
      (let p := rgf d 0x10_0020 25 3 * 8
       some (if (crateAt d p).isSome then peekValue d else if p = off then 0 else regShown d p))
    else some (regShown d off)

/-- A read: the value, and the next device: PCT of RST_STAT during a wipe is a free value. DESIGN CHOICE (log entry 31). -/
def readReg (d : Dev) (off : Nat) : Option W64 × Dev :=
  (regValue d off, if off = 0x40_0010 then { d with fresh := d.fresh + 1 } else d)

/-! ### Command rings' registers (R469, R470) -/

/-- Offset of a register of ring `r`. -/
def cqReg (r off : Nat) : Nat := 0x20_0000 + 0x40 * r + off

/-- R470: a ring error. -/
def ringError (d : Dev) (r : Nat) : Dev :=
  let d := putRgf d (cqReg r 0x18) 1 1 1
  postEvent d 0xB (w64 r) (rg d (cqReg r 0x18))

/-- COMMAND_RING_ENABLE: a write of CQ_BASE. A write of EN = 0 clears ERR before SZ is looked at (R470). DEDUCED (log entry 26). -/
def writeCqBase (d : Dev) (r : Nat) (v : W64) : Dev :=
  let old := bitAt (rg d (cqReg r 0)).toNat 63
  let en := bitAt v.toNat 63
  let d := putRg d (cqReg r 0) (v &&& 0xCF00_0FFF_FFFF_FFC0#64)
  let d := if !en then putRgf d (cqReg r 0x18) 1 1 0 else if old then d else putRgf d (cqReg r 0x18) 63 32 (rgf d (cqReg r 0x10) 31 0)
  let sz := fld v.toNat 59 56
  if rgf d (cqReg r 0x18) 1 1 == 0 && (decide (sz < 4) || decide (12 < sz)) then ringError d r else d

/-- DOORBELL: a write of CQ_DB. DEDUCED (log entry 26). -/
def writeCqDb (d : Dev) (r : Nat) (v : W64) : Dev :=
  let d := putRg d (cqReg r 0x10) (v &&& 0xFFFF_FFFF#64)
  let base := (rg d (cqReg r 0)).toNat
  let gap := (fld v.toNat 31 0 + 2 ^ 32 - rgf d (cqReg r 0x18) 63 32) % 2 ^ 32
  if rgf d (cqReg r 0x18) 1 1 == 0 && decide (2 ^ fld base 59 56 < gap) then ringError d r else d

/-! ### Writes -/

/-- BRK_CTL.LOCKW. -/
def lockw (d : Dev) : Bool := rgf d 0x20_1008 0 0 == 1

/-- R477: the registers that a write on the device's own link may still change while LOCKW = 1. -/
def linkMay (d : Dev) (off : Nat) : Bool :=
  off == 0x20_0108 || off == 0x20_0210 || (List.range 4).any fun r => off == cqReg r 0x10 && bitAt (rg d (cqReg r 0)).toNat 62

/-- SEC_CMD (R604): a command starts; reserved operations start nothing. DESIGN CHOICE (log entry 15). -/
def writeSecCmd (d : Dev) (v : W64) : Dev :=
  if rgf d 0xC0_0000 1 1 = 1 then d
  else
    let op := fld v.toNat 3 0
    let d := putRg d 0xC0_0018 (v &&& 0xF0)
    if op = 0 ∨ 4 < op then d else { putRgf d 0xC0_0000 1 1 1 with sec := { d.sec with cmd := some op } }

/-- MB_FCTL (R627, R634): an operation starts, or waits behind a ledger update. -/
def writeMbox (d : Dev) (v : W64) : Dev :=
  if rgf d 0xC0_2000 7 7 = 1 then d
  else
    let op := fld v.toNat 1 0
    let d := putRgf d 0xC0_2000 1 0 op
    if op = 0 then d else { putRgf d 0xC0_2000 7 7 1 with sec := { d.sec with mbox := some (op, d.sec.upd.isSome) } }

/-- A write in the frame of port `p` (R25). A REFUSED that this NCLK has set stays (R15). -/
def writeFrame (d : Dev) (p o : Nat) (v : W64) : Dev :=
  if o = 0x10 then driverPush d p v
  else if !portUp d p then d
  else if o = 8 then (if bitAt v.toNat 4 && !bitAt (newBits d p) 11 then modPort d p fun x => { x with refused := false } else d)
  else if o = 0x20 then writeFaultSum d p v
  else if o = 0x28 then writeTrace d p v
  else if o = 0x30 then writeReset d p v
  else if 0x100 ≤ o ∧ o < 0x200 then writeHold d p ((o - 0x100) / 8) v
  else d

/-- R14: a write by the access codes of the register's bits; LK fields are locked once boot is complete (R507, R582). -/
def writeByCode (d : Dev) (off : Nat) (r : RegRow) (v : W64) : Dev :=
  let rw := BitVec.ofNat 64 r.rw
  let old := rg d off &&& ~~~(v &&& BitVec.ofNat 64 r.w1c)
  putRg d off ((old &&& ~~~rw) ||| (v &&& rw))

/-- The registers with a rule of their own for writes. A squall record of this NCLK stays (R15). -/
def writeOwn (d : Dev) (src : Src) (off : Nat) (v : W64) : Option Dev :=
  if off = 0x10_0030 then some (crateDiscard d v)
  else if off = 0x10_1010 then some (ledgerUpdate d v)
  else if off = 0x20_1008 then some (if lockw d && src != .relay then d else putRg d off (v &&& 1))
  else if off = 0x40_0008 then some (if bitAt v.toNat 0 then clearLog d else d)
  else if off = 0x100_0028 then some (if bitAt v.toNat 63 && d.fab.recAt != portNclk d 0 + 1 then putRg d off 0 else d)
  else if off = 0x307_0008 then some (writeCntCtl d v)
  else if off = 0x30B_0008 ∨ off = 0x30B_0010 then (if stState d = 0 then none else some d)
  else if off = 0xC0_0018 then some (writeSecCmd d v)
  else if off = 0xC0_2000 then some (writeMbox d v)
  else if 0x20_0000 ≤ off ∧ off < 0x20_0100 ∧ off % 0x40 = 0 then some (writeCqBase d ((off - 0x20_0000) / 0x40) v)
  else if 0x20_0000 ≤ off ∧ off < 0x20_0100 ∧ off % 0x40 = 0x10 then some (writeCqDb d ((off - 0x20_0000) / 0x40) v)
  else if 0x300_0000 ≤ off ∧ off < 0x300_0600 ∧ off % 32 = 0 then some (writeTrcBase d ((off - 0x300_0000) / 32) v)
  else none

/-- A write of a register (R14, R477, R488): reserved offsets have no effect here. -/
def writeReg (d : Dev) (src : Src) (off : Nat) (v : W64) : Res Dev :=
  if src == .link && lockw d && !linkMay d off then .ok d
  else match regAt off with
  | none => .ok d
  | some r =>
    if 0x200_0000 ≤ off ∧ off < 0x240_0000 then
      let p := (off - 0x200_0000) / 0x1000
      if off % 0x1000 = 0x38 then (if portUp d p then crateWrite d off v else .ok d) else .ok (writeFrame d p (off % 0x1000) v)
    else if r.st ≠ 0 then crateWrite d off v
    else match writeOwn d src off v with
      | some e => .ok e
      | none => .ok (writeByCode d off r v)

/-! ### The host link and the management bus in one NCLK (R626) -/

/-- What the management bus has written at an offset in the present NCLK, oldest first. DESIGN CHOICE (log entry 39). -/
def busNow (d : Dev) (off : Nat) : List W64 :=
  if d.sec.bus.1 = d.root / 4 + 1 then (d.sec.bus.2.filter fun e => e.1 == off).map fun e => e.2 else []

/-- The management bus has written a register. -/
def noteBus (d : Dev) (off : Nat) (v : W64) : Dev :=
  let k := d.root / 4 + 1
  { d with sec := { d.sec with bus := (k, (if d.sec.bus.1 = k then d.sec.bus.2 else []) ++ [(off, v)]) } }

/-- Does a write at `off` start nothing because an operation of its block runs? (R604, R627) -/
def opBusy (d : Dev) (off : Nat) : Bool :=
  (off == 0xC0_0018 && rgf d 0xC0_0000 1 1 == 1) || (off == 0xC0_2000 && rgf d 0xC0_2000 7 7 == 1)

/-- The operation that the bus started at `off` has not started yet: the host link's write acts first. -/
def busUndo (d : Dev) (off : Nat) : Dev :=
  if off = 0xC0_0018 then { putRgf d 0xC0_0000 1 1 0 with sec := { d.sec with cmd := none } }
  else if off = 0xC0_2000 then { putRgf d 0xC0_2000 7 7 0 with sec := { d.sec with mbox := none } }
  else d

/-- A register write of the management bus. -/
def busReg (d : Dev) (off : Nat) (v : W64) : Res Dev := do
  let e ← writeReg d .mgmt off v
  .ok (if opBusy d off then e else noteBus e off v)

/-- R626: a register write of the host link, which acts before what the bus has written there in the same NCLK. -/
def hostReg (d : Dev) (off : Nat) (v : W64) : Res Dev :=
  match busNow d off with
  | [] => writeReg d .link off v
  | ws => do
    let d ← writeReg (busUndo d off) .link off v
    ws.foldlM (fun d w => writeReg d .mgmt off w) d

end Sys2Proof.Machine
end

