-- ==== Sys2Proof/Machine/HostTasks.lean ====
section
/-! DEFINITION. Commands that the device has taken (14_host_link.md, R471–R475; 13_fabric.md, R444–R447): the record of each, the combination of its members' answers, its
completion record, and the reply to a relay root. -/
namespace Sys2Proof.Machine

/-! ### A command's words (R472) -/

/-- PORT. -/
def portIn (ws : List W64) : Nat := fld (ws.getD 0 0).toNat 47 38
/-- TAG. -/
def tagOf (ws : List W64) : Nat := fld (ws.getD 0 0).toNat 15 0
/-- ARG `k`. -/
def argOf (ws : List W64) (k : Nat) : Nat := (ws.getD (k + 2) 0).toNat
/-- The words of a 64-byte command. -/
def cmdWords (bs : List Byte) : List W64 := (List.range 8).map fun k => w64 (leNat ((bs.drop (8 * k)).take 8))

/-- The members that a command names: SET, where 0 means this device (R472). -/
def setOf (d : Dev) (ws : List W64) : Nat := let s := (ws.getD 1 0).toNat; if s = 0 then 2 ^ myDev d else s

/-- Device numbers in a mask. -/
def devsOf (m : Nat) : List Nat := (List.range 64).filter (bitAt m)

/-- A mask of device numbers. -/
def maskDevs (l : List Nat) : Nat := ((List.range 64).map fun i => if l.contains i then 2 ^ i else 0).sum

/-! ### What a member answers -/

/-- A member's answer: STATUS of R475 with REASON, the register read, and whether the command has completed there. -/
structure Share where
  status : Nat
  reason : Nat
  value : Option W64
  done : Bool
  deriving DecidableEq, Repr

/-- Accepted and complete. -/
def shareOk : Share := { status := 0, reason := 0, value := none, done := true }
/-- Accepted, and completes later. -/
def sharePend : Share := { status := 0, reason := 0, value := none, done := false }
/-- Refused. -/
def shareNo (status reason : Nat) : Share := { status := status, reason := reason, value := none, done := true }

/-- DONE and FSUM of a port (R446). -/
def gather (d : Dev) (port : Nat) : Nat × Nat := ((readFrame d port 0x200).toNat % 2 ^ 32, (readFrame d port 0x20).toNat % 2 ^ 11)

/-- R475: the answer of member `dev` enters the task: FSUM is the OR and DONE the AND over the members that have answered.
DESIGN CHOICE (log entry 37). -/
def merge (t : HostTask) (dev status reason : Nat) (value : Option W64) (done fsum : Nat) : HostTask :=
  let t := { t with done := t.done &&& done, fsum := t.fsum ||| fsum
                    values := match value with | some v => t.values ++ [(dev, v)] | none => t.values }
  if status = 0 then t
  else
    let t := { t with refused := if status = 6 then t.refused else t.refused ||| w64 (2 ^ dev) }
    match t.who with
    | some w => if dev < w then { t with who := some dev, status := status, reason := reason } else t
    | none => { t with who := some dev, status := status, reason := reason }

/-! ### Tasks -/

/-- A task that has just been taken; `now` is the tick. DESIGN CHOICE (log entry 37). -/
def newTask (id ring index : Nat) (root : Option (Nat × Nat)) (ws : List W64) (waiting : List Nat) (own : Bool) (now : Nat) : HostTask :=
  { id := id, ring := ring, index := index, root := root, words := ws, accepted := true, waiting := waiting, status := 0, reason := 0
    who := none, values := [], done := 2 ^ 32 - 1, fsum := 0, refused := 0, sent := now, closed := false
    ownDone := !own }

/-- The task with a number. -/
def taskOf (d : Dev) (i : Nat) : Option HostTask := d.host.tasks.find? (·.id == i)

/-- BUSY of CQ_STAT follows the tasks of a ring (R469). -/
def markBusy (d : Dev) (r : Nat) : Dev := putRgf d (cqReg r 0x18) 0 0 (b2n (d.host.tasks.any fun t => t.ring == r && t.root.isNone && !t.closed))

/-- A task enters, or replaces the one with its number. -/
def putTask (d : Dev) (t : HostTask) : Dev :=
  let ts := if (taskOf d t.id).isSome then d.host.tasks.map fun u => if u.id = t.id then t else u else d.host.tasks ++ [t]
  { d with host := { d.host with tasks := ts } }

/-- A task leaves. -/
def dropTask (d : Dev) (i : Nat) : Dev := { d with host := { d.host with tasks := d.host.tasks.filter (·.id != i) } }

/-- R475: the completion record. `t.waiting` holds the members that did not reply. -/
def recordWords (t : HostTask) (sz : Nat) : List W64 :=
  let lowest := t.values.foldl (fun (m : Option (Nat × W64)) v => match m with | some u => if v.1 < u.1 then some v else some u | none => some v) none
  let value := match lowest with | some v => v.2 | none => 0
  let diff := maskDevs ((t.values.filter fun v => v.2 != value).map (·.1))
  let st := if t.who.isSome then t.status else if t.waiting.isEmpty then 0 else 5
  [w64 (phaseBit t.index sz * 2 ^ 63 + st * 2 ^ 48 + (if t.who.isSome then t.reason else 0) % 256 * 2 ^ 40 + opOf t.words * 2 ^ 32 + tagOf t.words), value,
   w64 (t.fsum * 2 ^ 32 + t.done), t.refused, w64 (maskDevs t.waiting), w64 diff, 0, 0]

/-- COMPLETION_RECORD: it goes to the command's completion slot, and the task ends. -/
def writeRecord (d : Dev) (t : HostTask) : Dev :=
  let sz := rgf d (cqReg t.ring 0) 59 56
  let a := hostBase + rgf d (cqReg t.ring 8) 43 6 * 64 + 64 * (t.index % 2 ^ sz)
  markBusy (hostWrite (dropTask d t.id) a (wordBytes (recordWords t sz))) t.ring

/-- R446: a target's reply, by relay. STATUS 4 travels as STATUS 0 with the reason in VALUE (R474). -/
def sendReply (d : Dev) (root tag port : Nat) (s : Share) : Dev :=
  let g := gather d port
  let st := if s.status = 1 ∨ s.status = 2 then s.status else 0
  let v := match s.value with | some v => v.toNat | none => if s.status = 4 then s.reason else 0
  sendRouted d 0 (ownMsg d 3 root 2 (w64 (tag * 2 ^ 48)) (leBytes 1 st ++ List.replicate 7 0 ++ leBytes 4 g.1 ++ leBytes 2 g.2 ++ List.replicate 2 0
      ++ leBytes 8 v ++ List.replicate 8 0))

/-- R446, R473: does a relayed operation answer only once it has ended, since its completion at the root depends on that? ABANDON and ACCEDE.
DESIGN CHOICE (log entry 19). -/
def repliesLate (op : Nat) : Bool := op == 6 || op == 9

/-- A task whose every member has answered and whose own share is complete ends: with its record, unless a timeout has written it (R447), or with the late reply of
a target. -/
def finishTask (d : Dev) (i : Nat) : Dev :=
  match taskOf d i with
  | none => d
  | some t =>
    if !t.waiting.isEmpty || !t.ownDone || !t.accepted then d
    else match t.root with
    | none => if t.closed then dropTask d i else writeRecord d t
    | some (root, tag) =>
      let d := dropTask d i
      if repliesLate (opOf t.words) then sendReply d root tag (portIn t.words) { shareOk with status := t.status, reason := t.reason } else d

/-- The own share of task `i` ends with a status. -/
def endShare (d : Dev) (i status reason : Nat) : Dev :=
  match taskOf d i with
  | none => d
  | some t => finishTask (putTask d { merge t (myDev d) status reason none (2 ^ 32 - 1) 0 with ownDone := true }) i

/-- The own share of a task that may be absent ends. -/
def endShareOf (d : Dev) (i : Option Nat) (status reason : Nat) : Dev := match i with | some i => endShare d i status reason | none => d

/-- R473: every ABANDON whose STATE has become 0 and whose flush has ended completes. -/
def abandonPoll (d : Dev) : Dev :=
  if stState d = 0 ∧ !d.fab.flushing then
    (d.host.tasks.filter fun t => opOf t.words == 6 && !t.ownDone).foldl (fun d t => endShare d t.id 0 0) d
  else d

/-- The ACCEDE command that an accession answers (R492): STATUS 4 with the reason, or 0. -/
def accedeEnd (d : Dev) (task : Option Nat) (r : Option Nat) : Dev :=
  match r with
  | none => d
  | some 0 => endShareOf d task 0 0
  | some k => endShareOf d task 4 k

end Sys2Proof.Machine
end

