-- ==== Sys2Proof/Machine/Resets.lean ====
section
/-! DEFINITION. Compute and warm reset (16_faults_and_recovery.md, R522–R528): the start, the wipe, the fabric links of a warm reset, and the end. -/
namespace Sys2Proof.Machine

/-! ### The start (R523, R527) -/

/-- R560: a reset during capture ends the dump with STATE 3; any reset releases a frozen device (R561), whose DMP_STAT is idle again.
DESIGN CHOICE (log entry 25). -/
def resetDump (d : Dev) : Dev :=
  match d.dump with
  | none => if rgf d 0x305_0008 1 0 = 0 then d else putRgf d 0x305_0008 1 0 0
  | some s =>
    if rgf d 0x305_0008 1 0 = 1 then endShareOf (dumpEnd (dumpUnspec { d with dump := none }) false) s.task 0 0
    else putRgf { d with dump := none } 0x305_0008 1 0 0

/-- R523: a running step is abandoned and its report written (R352, R485); STATE, FLIPPED and GATE are 0. DESIGN CHOICE (log entry 48). -/
def resetStep (d : Dev) : Dev :=
  let was := inStep d
  let d := abandonStep d
  let d := putRgf d 0x30B_0000 3 0 0
  if was then clearPartials (writeReport d false) else d

/-- R523, R397: the flushes of ring and fabric, whatever STATE was; a discard under way goes on (R443). -/
def resetFlush (d : Dev) : Dev := fabFlush (if d.ring.discard.isEmpty then ringFlush d else d)

/-- R523: every COPY and PROGLOAD that is not complete ends with STATUS 6. -/
def resetTasks (d : Dev) : Dev :=
  (d.host.tasks.filter fun t => (opOf t.words == 7 || opOf t.words == 8) && !t.ownDone).foldl (fun d t => endShare d t.id 6 0) d

/-- R523, R500: a pending accession is rejected. -/
def resetAccession (d : Dev) : Dev :=
  let task := d.acc.task
  let r := accAbandon d
  if r.1 then accedeEnd r.2 task (some 0x1B) else r.2

/-- R522, R526: is the byte, or the word of a program store, in the scope of a compute or warm reset's wipe? -/
def inWipe (a : Nat) : Bool := decide (a < hostBase) || decide (progWordBase ≤ a)

/-- R457: the loans that arrive here are stopped: what still comes of them is discarded. DESIGN CHOICE (log entry 19). -/
def cutLoans (d : Dev) : Dev := { d with fab := { d.fab with loans := [], cut := d.fab.cut ++ d.fab.loans } }

/-- R50, R523: every unit is reset, and what the compute dies and the I/O die hold is gone (R522). Transfers that a gallery engine has taken run to their end, and count
at no cell. -/
def resetDies (d : Dev) : Dev :=
  let d := resetUnits d 0
  let d := { d with ports := d.ports.map fun p => (p.1, { p.2 with wiping := false })
                    gals := d.gals.map fun g => (g.1, { g.2 with next := 0, trace := [], dropped := 0, resync := [] }) }
  let d := wipeMem d inWipe
  let d := { d with ring := { d.ring with buckets := [], store := [], rx := [] }, fab := { d.fab with prod := [] }, hostLines := [], histPend := [], stash := [], ended := []
                    scl := { base := 0, stamp := 0, ready := true, mem := [], lrs := [] }, sweep := []
                    alm := none, almBase := d.root / 6 + 1, slotUsed := [] }
  clearAllCounts d

/-- R522, R523, R527: a compute (1) or warm (2) reset starts, or restarts the wipe of the one that runs. DESIGN CHOICE (log entry 48). -/
def startReset (d : Dev) (kind : Nat) : Dev :=
  if inReset d then
    let d := putRgf d 0x40_0010 63 48 (satAdd 16 (rgf d 0x40_0010 63 48) 1)
    let d := putRgf (putRgf d 0x40_0010 7 6 (max kind (rgf d 0x40_0010 7 6))) 0x40_0010 5 4 2
    { wipeMem d inWipe with rst := d.rst.map fun r => { r with wiped := false } }
  else
    let d := emitSquall d (0x10 + kind)
    let d := resetDump d
    let d := if stState d == 1 then resetStep d else resetFlush (resetStep d)
    let d := (d.fab.xs.filter (·.loan)).foldl stopLoan d
    let d := resetTasks (ledgerAbandon (resetAccession (cutLoans d)))
    let d := resetDies d
    let d := putRgf (putRgf d 0x40_0010 7 6 kind) 0x40_0010 5 4 2
    abandonPoll { d with rst := some { start := ticks d, wiped := false, down := false } }

/-! ### The end -/

/-- A compute or warm reset ends. DESIGN CHOICE (log entry 48). -/
def endReset (d : Dev) : Dev :=
  let d := putRgf (putRgf d 0x40_0010 7 6 0) 0x40_0010 5 4 0
  { putRg d 0x40_0018 (w64 d.wt) with rst := none }

/-- WIPE_COMPLETE (R526, R527): the wipe completes; a compute reset ends, a warm reset, whose fabric links have gone down while the wipe ran (R428), goes on with
retraining. DEDUCED (log entry 20). DESIGN CHOICE (log entry 48). -/
def wipeComplete (d : Dev) : Dev :=
  match d.rst with
  | none => d
  | some r =>
    if rgf d 0x40_0010 5 4 ≠ 2 ∨ (rgf d 0x40_0010 7 6 = 2 ∧ !r.down) then d
    else
      let d := putRgf d 0x40_0010 39 32 100
      if rgf d 0x40_0010 7 6 = 2 then
        let d := if hostUp d then linkEvent d 15 1 else d
        { putRgf (putRgf d 0x40_0010 5 4 3) 0x20_1000 9 8 1 with rst := some { r with wiped := true } }
      else endReset d

/-- A link attempt begins (R428): RETRAIN counts it. -/
def retrainPort (d : Dev) (p : Nat) : Dev :=
  let o := 0x100_0100 + 8 * p
  putRgf (putRgf d o 33 32 1) o 31 16 (satAdd 16 (rgf d o 31 16) 1)

/-- R397, R443: a port whose link is down discards nothing more. -/
def dropDiscards (d : Dev) (ps : List Nat) : Dev :=
  let d := { d with fab := { d.fab with discard := d.fab.discard.filter fun p => !ps.contains p }
                    ring := { d.ring with discard := d.ring.discard.filter fun r => !ps.contains (ringRx d r) } }
  fabFlushEnd d

/-- R428, R621: a warm reset takes port `p` down; a cabled one retrains. DEDUCED (log entry 20). -/
def takeDown (d : Dev) (p : Nat) : Dev :=
  let s := if d.fab.cables.contains p then 1 else 0
  let d := if fabState d p = s then d else linkEvent d p s
  if s = 1 then retrainPort d p else putRgf d (0x100_0100 + 8 * p) 33 32 0

/-- WARM_LINKS_DOWN (R428, R523): the fabric links of a warm reset go down and retrain. DESIGN CHOICE (log entry 33). -/
def warmLinksDown (d : Dev) : Dev :=
  match d.rst with
  | none => d
  | some r =>
    if rgf d 0x40_0010 7 6 ≠ 2 ∨ r.down ∨ ticks d < r.start + 200 then d
    else
      let d := (List.range 12).foldl takeDown d
      let d := { d with rst := some { r with down := true }, fab := { d.fab with tries := [] } }
      abandonPoll (dropDiscards d (List.range 12))

/-- WARM_RETRAIN_DONE (R522): memory PHYs and host link are trained, to `lanes` of 16 or 8 (R460), and the reset ends. DEDUCED (log entry 20). -/
def warmRetrainDone (d : Dev) (lanes : Nat) : Dev :=
  if rgf d 0x40_0010 5 4 ≠ 3 ∨ ¬(lanes = 16 ∨ lanes = 8) ∨ d.rst.any (!·.down) then d
  else
    let d := putRgf (putRgf d 0x20_1000 9 8 2) 0x20_1000 4 0 lanes
    hostDrain (endReset (linkEvent (putRgf d 0x20_1000 63 48 (satAdd 16 (rgf d 0x20_1000 63 48) 1)) 15 2))

end Sys2Proof.Machine
end

