-- ==== Sys2Proof/Machine/HostCmd.lean ====
section
/-! DEFINITION. The driver interface (14_host_link.md): command rings and the operations (R469–R475, R480, R482), windows (R466), events (R478, R479), with relay at root
and target (13_fabric.md, R444–R448). -/
namespace Sys2Proof.Machine

/-- ID_STATUS.READY. -/
def isReady (d : Dev) : Bool := rgf d 0 0 0 == 1

/-! ### Pieces of a host-link transfer -/

/-- The pieces of at most 64 bytes, within aligned 64 bytes, of `n` bytes from `a`. -/
def pieces64 (a n : Nat) : List (Nat × Nat) :=
  if n = 0 then []
  else (List.range ((a % 64 + n + 63) / 64)).map fun i =>
    let s := max a (a / 64 * 64 + 64 * i)
    (s, min (a + n) (a / 64 * 64 + 64 * (i + 1)) - s)

/-- The first piece that R304 faults on. -/
def badPiece (d : Dev) (ps : List (Nat × Nat)) : Option Nat :=
  (ps.find? fun p => place d p.1 == .bad || place d (p.1 + p.2 - 1) == .bad).map (·.1)

/-- Does a piece lie at an offset out of range (R305)? -/
def rangePiece (d : Dev) (ps : List (Nat × Nat)) : Bool := ps.any fun p => place d p.1 == .range

/-- Memory port of an address of HBM or the depot (R314, R319). -/
def memPort (d : Dev) (a : Nat) : Option Nat :=
  match place d a with
  | .hbm o => some (hbmPort d o)
  | .depot o => some (512 + depotPort d o)
  | _ => none

/-- Is a class granted to owner `o` on every port that the pieces touch (R332)? -/
def grantedAll (d : Dev) (e o : Nat) (write : Bool) (ps : List (Nat × Nat)) : Bool :=
  ps.all fun p => match memPort d p.1 with | some q => classGranted d e o write q | none => true

/-- The bytes of the pieces. -/
def readPieces (d : Dev) (ps : List (Nat × Nat)) : List Byte × Dev :=
  ps.foldl (fun (a : List Byte × Dev) p => let r := engRead a.2 p.1 p.2; (a.1 ++ r.1, r.2)) ([], d)

/-- The bytes go to the pieces, in order. -/
def writePieces : Dev → List (Nat × Nat) → List Byte → Dev
  | d, [], _ => d
  | d, p :: ps, bs => writePieces (engWrite d p.1 (bs.take p.2)) ps (bs.drop p.2)

/-- R405: the bytes for the pieces must not change the coefficient table in a sweep. -/
def guardPieces (d : Dev) : List (Nat × Nat) → List Byte → Res Unit
  | [], _ => .ok ()
  | p :: ps, bs => do
    coefGuard d p.1 (bs.take p.2)
    guardPieces d ps (bs.drop p.2)

/-- R460: can the pieces move: does none lie in host memory while the link is down? DESIGN CHOICE (log entry 29). -/
def linkServes (d : Dev) (ps : List (Nat × Nat)) : Bool := hostUp d || ps.all fun p => match place d p.1 with | .host _ => false | _ => true

/-- R441, R482, R283: a counter takes the addition of an engine of the device, as of a DMA completion; `know` are the writes of peers that it makes known. -/
def engineCount (d : Dev) (c h : Nat) (know : List Nat) : Dev := countAt d c { h := h, n := 1, know := know, nclk := some (nclkAt d c) }

/-- The cells whose folio stores the pieces touch settle first. -/
def settlePieces (d : Dev) (ps : List (Nat × Nat)) : Res Dev := ps.foldlM (fun d p => settlePlace d p.1) d

/-- A DMA fault of the host-link engine or of a PROGLOAD: it abandons no step (R515). DESIGN CHOICE (log entry 14). -/
def hostDmaFault (d : Dev) (port sub a : Nat) : Dev :=
  raise d { kind := 4, sub := sub, port := port, bundle := none, addr := a % 2 ^ 48, detail := 0, cell := none, abandons := false }

/-! ### Operations (R473) -/

/-- Is a port index reserved (R24)? -/
def reservedPort (p : Nat) : Bool := (portKind p).isNone

/-- R558: is DUMP refused? -/
def dumpRefused (d : Dev) : Bool :=
  inReset d || d.ports.any (fun p => p.2.wiping) || rgf d 0x305_0008 1 0 != 0 || !dumpFits d

/-- R559: DUMP freezes the device. -/
def dumpCommand (d : Dev) (task : Nat) : Dev := dumpFreeze (abandonRegs (emitSquall d 0x13)) 2 0x3FF 0 (some task)

/-- R480: PROGLOAD is taken. DESIGN CHOICE (log entry 14). -/
def takeProgload (d : Dev) (ws : List W64) : Share × Dev :=
  if reservedPort (portIn ws) then (shareNo 1 0, refuse d (portIn ws))
  else if 4095 < fld (argOf ws 1) 28 16 then (shareNo 4 0x11, d)
  else if bitAt (readFrame d (portIn ws) 8).toNat 0 then (sharePend, d)
  else (shareNo 4 0x10, d)

/-- R525, R527: RESET. -/
def takeReset (d : Dev) (ws : List W64) : Share × Dev :=
  match fld (argOf ws 0) 1 0 with
  | 0 =>
    if !portUp d (portIn ws) || inReset d || d.dump.isSome then (shareNo 1 0, refuse d (portIn ws)) else (shareOk, unitReset d (portIn ws))
  | 3 => (shareNo 3 0, d)
  | k => (shareOk, startReset d k)

/-- What the device does with a command (R473); `task` is the command's number. DESIGN CHOICE (log entries 14, 31). -/
def execOp (d : Dev) (src : Src) (ws : List W64) (task : Nat) : Res (Share × Dev) :=
  let port := portIn ws
  match opOf ws with
  | 0 => .ok (shareOk, d)
  | 1 =>
    let off := argOf ws 0 / 8 * 8
    let r := readReg d off
    (match r.1 with
    | some v => .ok ({ shareOk with value := some v }, r.2)
    | none => let w := drawWord d; .ok ({ shareOk with value := some w.1 }, w.2))
  | 2 => do
    let d ← writeReg d src (argOf ws 0 / 8 * 8) (w64 (argOf ws 1))
    pure (shareOk, d)
  | 3 =>
    let r := pushCmd d port (w64 (argOf ws 0)) (inReset d || d.dump.isSome)
    .ok (if r.1 then shareOk else shareNo 1 0, r.2)
  | 4 => .ok (if reservedPort port then (shareNo 1 0, refuse d port) else (shareOk, d))
  | 5 =>
    let stamp := fld (argOf ws 0) 47 0
    (match launchReason d stamp (accPending d) with
    | some r => .ok (shareNo 4 r, d)
    | none => .ok (shareOk, launchStep d stamp (fld (argOf ws 1) 11 0) (bitAt (argOf ws 2) 0)))
  | 6 =>
    let d := if bitAt (argOf ws 0) 0 then emitSquall d 0x13 else d
    .ok (sharePend, if stState d = 1 then abandonStep d else if stState d = 0 then fabFlush d else d)
  | 7 => .ok (takeProgload d ws)
  | 8 => .ok (if fld (argOf ws 2) 31 0 = 0 then (shareNo 6 0, hostDmaFault d 0 6 0) else (sharePend, d))
  | 9 =>
    let r := accedeTake d (fld (argOf ws 0) 1 0) (w64 (argOf ws 1)) (some task)
    .ok (match r.1 with | some k => shareNo 4 k | none => sharePend, r.2)
  | 10 => .ok (takeReset d ws)
  | 11 => .ok (if dumpRefused d then (shareNo 4 0x20, d) else (sharePend, dumpCommand d task))
  | _ => .ok (shareNo 3 0, d)

/-- The device executes its own share of task `i`. -/
def ownShare (d : Dev) (src : Src) (i : Nat) : Res Dev :=
  match taskOf d i with
  | none => .ok d
  | some t => do
    let r ← execOp d src t.words i
    let s := r.1
    let g := gather r.2 (portIn t.words)
    pure (abandonPoll (finishTask (putTask r.2 { merge t (myDev d) s.status s.reason s.value g.1 g.2 with accepted := true, ownDone := s.done }) i))

/-! ### Taking a command (R471, R476, R525) -/

/-- R525, R561: may a command be taken now?. DESIGN CHOICE (log entry 29). -/
def takenNow (d : Dev) (ws : List W64) : Bool :=
  let op := opOf ws
  !(inReset d || d.dump.isSome) || op == 0 || op == 1 || op == 4 || op == 10
    || (op == 2 && decide (0x40_0000 ≤ argOf ws 0 ∧ argOf ws 0 < 0x80_0000))

/-- R473, R476, R525: does the command complete with STATUS 3? -/
def opBad (d : Dev) (r : Nat) (ws : List W64) : Bool :=
  let op := opOf ws
  decide (11 < op) || (op == 10 && fld (argOf ws 0) 1 0 == 3)
    || (bitAt (rg d (cqReg r 0)).toNat 62 && !(op == 0 || op == 1 || op == 4 || op == 8))

/-- The members other than this device. -/
def othersOf (d : Dev) (ws : List W64) : List Nat := (devsOf (setOf d ws)).filter (· != myDev d)

/-- R471: the entry of ring `r` that is taken next, if one may be. -/
def ringHead (d : Dev) (r : Nat) : Option (List W64) :=
  let base := (rg d (cqReg r 0)).toNat
  let st := (rg d (cqReg r 0x18)).toNat
  let cons := fld st 63 32
  if !bitAt base 63 || bitAt st 1 || cons == rgf d (cqReg r 0x10) 31 0
      || d.host.tasks.any (fun t => t.ring == r && t.root.isNone && (!t.waiting.isEmpty || !t.accepted)) then none
  else
    let ws := cmdWords (rdBytes d (hostBase + fld base 43 6 * 64 + 64 * (cons % 2 ^ fld base 59 56)) 64)
    let full := decide (64 ≤ (d.host.tasks.filter fun t => !t.waiting.isEmpty).length)
    if !takenNow d ws || (full && !opBad d r ws && !(othersOf d ws).isEmpty) then none else some ws

/-- R471: the ring whose entry is taken next: enabled rings in ascending order, one entry in each round. -/
def nextRing (d : Dev) : Option (Nat × List W64) :=
  if !isReady d || !hostUp d then none
  else ((List.range 4).filterMap fun k => let r := (d.host.next + k) % 4; (ringHead d r).map fun ws => (r, ws)).head?

/-- R444: the requests to members go out in ascending order. -/
def sendRequests (d : Dev) (ws : List W64) (l : List Nat) : Dev :=
  l.foldl (fun d m => sendRouted d 0 (ownMsg d 3 m 1 (w64 (tagOf ws * 2 ^ 48 + portIn ws * 2 ^ 38)) (wordBytes ws))) d

/-- The entry of ring `r` is taken: CONS advances, and the line is in the host-line cache (R462). -/
def takeEntry (d : Dev) (r : Nat) : Dev :=
  let st := rgf d (cqReg r 0x18) 63 32
  let a := hostBase + rgf d (cqReg r 0) 43 6 * 64 + 64 * (st % 2 ^ rgf d (cqReg r 0) 59 56)
  let d := lineAlloc d a 64
  { putRgf d (cqReg r 0x18) 63 32 ((st + 1) % 2 ^ 32) with host := { d.host with next := (r + 1) % 4 } }

/-- COMMAND_TAKE: the device takes command `ws` from ring `r`. -/
def takeCommand (d : Dev) (r : Nat) (ws : List W64) : Res Dev :=
  let idx := rgf d (cqReg r 0x18) 63 32
  let bad := opBad d r ws
  let d := takeEntry d r
  let n := newId d
  let d := n.2
  if bad then
    let g := gather d (portIn ws)
    .ok (writeRecord d (merge (newTask n.1 r idx none ws [] false (ticks d)) (myDev d) 3 0 none g.1 g.2))
  else
    let others := othersOf d ws
    let own := bitAt (setOf d ws) (myDev d)
    let late := opOf ws == 10 && !others.isEmpty
    let t := { newTask n.1 r idx none ws others own (ticks d) with accepted := !(own && late) }
    let d := markBusy (putTask d t) r
    let d := sendRequests d ws (others.filter (· < myDev d))
    do
      let d ← if own && !late then ownShare d .ring n.1 else pure d
      pure (finishTask (sendRequests d ws (others.filter (myDev d < ·))) n.1)

/-- COMMAND_TAKE (R471); `op` restricts it to one operation (the rows LAUNCH and ABANDON). -/
def commandTake (d : Dev) (op : Option Nat) : Res Dev :=
  match nextRing d with
  | none => .ok d
  | some (r, ws) => match op with
    | some k => if opOf ws = k then takeCommand d r ws else .ok d
    | none => takeCommand d r ws

/-! ### PROGLOAD and COPY (R480, R482) -/

/-- The own share of a task that has been taken and is not complete. -/
def pendingTask (d : Dev) (i op : Nat) : Option HostTask :=
  match taskOf d i with
  | some t => if opOf t.words = op ∧ !t.ownDone then some t else none
  | none => none

/-- The galleries of the in-map cells below a port. -/
def galleriesUnder (d : Dev) (p : Nat) : List Nat := ((cellsUnder d p).map galleryOfCell).eraseDups

/-- PROGLOAD_COMPLETE (R480): every bundle is written; it waits while its source is in host memory and the link is down (R460), or a DMA fault ends the command.
DESIGN CHOICE (log entry 14). -/
def progloadComplete (d : Dev) (i : Nat) : Res Dev :=
  match pendingTask d i 7 with
  | none => .ok d
  | some t =>
    let src := argOf t.words 0 % 2 ^ 48
    let first := fld (argOf t.words 1) 11 0
    let n := fld (argOf t.words 1) 28 16 + 1
    let p := portIn t.words
    let ps := pieces64 src (32 * n)
    let fail (sub a : Nat) : Dev := endShare ((galleriesUnder d p).foldl (fun d g => hostDmaFault d (galleryPort g) sub a) d) i 6 0
    if src % 32 ≠ 0 then .ok (fail 13 src)
    else match badPiece d ps with
    | some a => .ok (fail 1 a)
    | none =>
      if rangePiece d ps then .error .outOfRange
      else if !linkServes d ps then .ok d
      else if !(galleriesUnder d p).all (fun g => ps.all fun q => match memPort d q.1 with
          | some m => classGranted d (progClass d g (match place d q.1 with | .hbm o => crosses d g o | _ => true)) g false m
          | none => true) then .error .classNotGranted
      else do
        let d ← settlePieces d ps
        let r := readPieces d ps
        let d := (cellsUnder r.2 p).foldl (fun d c =>
          (List.range n).foldl (fun d k => putBundle d c (first + k) ((r.1.drop (32 * k)).take 32)) d) r.2
        pure (endShare d i 0 0)

/-- COPY_COMPLETE (R482): the bytes have moved; the copy counts at RCELL and completes, or a DMA fault ends it. It waits while a part of it is in host
memory and the link is down (R460). DESIGN CHOICE (log entry 14). -/
def copyComplete (d : Dev) (i : Nat) : Res Dev :=
  match pendingTask d i 8 with
  | none => .ok d
  | some t =>
    let n := fld (argOf t.words 2) 31 0
    let from_ := pieces64 (argOf t.words 0 % 2 ^ 48) n
    let to_ := pieces64 (argOf t.words 1 % 2 ^ 48) n
    match badPiece d (from_ ++ to_) with
    | some a => .ok (endShare (hostDmaFault d 0 1 a) i 6 0)
    | none =>
      if rangePiece d (from_ ++ to_) then .error .outOfRange
      else if !linkServes d (from_ ++ to_) then .ok d
      else if !grantedAll d (rgf d 0x20_1010 15 8) 49 false from_ || !grantedAll d (rgf d 0x20_1010 7 0) 49 true to_ then .error .classNotGranted
      else do
        let d ← settlePieces d (from_ ++ to_)
        let r := readPieces d from_
        guardPieces r.2 to_ r.1
        let d := writePieces r.2 to_ r.1
        let a := argOf t.words 3
        let d := if bitAt a 0 then engineCount d (fld a 17 9) (fld a 8 4) [] else d
        pure (endShare d i 0 0)

/-! ### Relay (R444–R447) -/

/-- RELAY_REQUEST_RECEIVE: the target executes the command as from a ring of its own, and replies. DESIGN CHOICE (log entry 19). -/
def relayRequest (d : Dev) (m : FabMsg) : Res Dev :=
  let ws := cmdWords m.body
  let tag := fld m.w1.toNat 63 48
  let port := portIn ws
  if m.dst != myDev d || !isReady d || !takenNow d ws then .ok d
  else if opOf ws = 2 ∧ 0xC0_0000 ≤ argOf ws 0 ∧ argOf ws 0 < 0x100_0000 then .ok (sendReply d m.src tag port (shareNo 2 0))
  else
    let n := newId d
    let t := newTask n.1 0 0 (some (m.src, tag)) ws [] true (ticks d)
    do
      let r ← execOp (putTask n.2 t) .relay ws n.1
      let s := r.1
      let d := putTask r.2 { t with status := s.status, reason := s.reason, ownDone := s.done }
      let d := if repliesLate (opOf ws) then d else sendReply d m.src tag port s
      pure (abandonPoll (finishTask d n.1))

/-- RELAY_REPLY_RECEIVE (R446): the root takes a member's answer in. DESIGN CHOICE (log entry 19). -/
def relayReply (d : Dev) (m : FabMsg) : Res Dev :=
  let tag := fld m.w1.toNat 63 48
  if m.dst != myDev d then .ok d
  else match d.host.tasks.find? fun t => t.root.isNone && tagOf t.words == tag && t.waiting.contains m.src with
  | none => .ok d
  | some t =>
    let st := leNat (m.body.take 1)
    let value := leNat ((m.body.drop 16).take 8)
    let op := opOf t.words
    let reasoned := op == 5 || op == 7 || op == 9 || op == 11
    let refusal := st == 0 && reasoned && value != 0
    let u := merge t m.src (if refusal then 4 else st) (if refusal then value % 256 else 0) (if op = 1 then some (w64 value) else none)
      (leNat ((m.body.drop 8).take 4)) (leNat ((m.body.drop 12).take 2) % 2 ^ 11)
    let u := { u with waiting := t.waiting.filter (· != m.src) }
    let d := putTask d u
    if u.waiting.isEmpty && !u.accepted then ownShare d .ring t.id else .ok (finishTask d t.id)

/-- Is a relay request of a task still in this device, held or in a port's buffer? -/
def requestHeld (d : Dev) (t : HostTask) : Bool :=
  (d.fab.wait.map (·.2) ++ d.tx.map (·.2)).any fun m => m.cls == 3 && m.kind == 1 && m.src == myDev d && fld m.w1.toNat 63 48 == tagOf t.words

/-- RELAY_TIMEOUT (R447): TIMEOUT after the last request was sent the command completes; members that have not replied are named, a share of the root's own that has not
ended goes on without a record, and a reset of the root itself does not start (R525). DONE and FSUM are those of the members that replied.
DESIGN CHOICE (log entries 19, 33, 37). -/
def relayTimeout (d : Dev) (i : Nat) : Dev :=
  match taskOf d i with
  | none => d
  | some t =>
    if t.waiting.isEmpty || requestHeld d t || decide (ticks d < t.sent + rgf d 0x100_0020 31 0) then d
    else
      let e := writeRecord d t
      if t.ownDone || !t.accepted then e else markBusy (putTask e { t with waiting := [], closed := true }) t.ring

/-! ### Windows (R466, R467) -/

/-- Device address of a window offset, with the bytes that follow it in the same region; none for reserved offsets. -/
def winAddr (w off : Nat) : Option Nat :=
  if w = 1 then (if off < hbmSize then some off else none)
  else if w = 2 then (if off < 2 ^ 41 then some (depotBase + off) else none)
  else if w = 3 then
    (if off < 0x6000_0000 then some (galleryBase + off / 0x200_0000 * 0x400_0000 + off % 0x200_0000)
     else if 0x8000_0000 ≤ off ∧ off < 0xE000_0000 then
       (let o := off - 0x8000_0000; some (folioBase + o / folioSize * 0x80_0000 + o % folioSize))
     else none)
  else none

/-- BRK_ERR.INVALID counts an access. -/
def countInvalid (d : Dev) : Dev := putRgf d 0x20_1018 31 0 (satAdd 32 (rgf d 0x20_1018 31 0) 1)

/-- An access ends with 0xFF in every byte, or its write is discarded. DESIGN CHOICE (log entry 7). -/
def failAccess (d : Dev) (len : Nat) (data : Option (List Byte)) : Dev :=
  match data with
  | some _ => d
  | none => { d with hostResp := d.hostResp ++ [List.replicate len 0xFF#8] }

/-- R466: the access ends at once and is counted. DEDUCED (log entry 26). -/
def invalidAccess (d : Dev) (len : Nat) (data : Option (List Byte)) : Dev := failAccess (countInvalid d) len data

/-- A register write on the host link: before READY, and at reserved offsets, it is counted as invalid (R466, R468). DESIGN CHOICE (log entry 29). -/
def linkWrite (d : Dev) (off : Nat) (v : W64) : Res Dev :=
  if (regAt off).isNone || (!isReady d && off != 0) then .ok (countInvalid d) else hostReg d off v

/-- The registers that an access through window 0 touches. -/
def regsOf (off len : Nat) : List Nat := (List.range ((off % 8 + len + 7) / 8)).map fun i => off / 8 * 8 + 8 * i

/-- A read through window 0: the bytes named of the registers. DESIGN CHOICE (log entry 7). DEDUCED (log entry 26). -/
def readWindow0 (d : Dev) (off len : Nat) : Dev :=
  let rs := regsOf off len
  if len = 0 || rs.any (fun o => (regAt o).isNone || (!isReady d && o != 0)) then invalidAccess d len none
  else
    let bs := rs.flatMap fun o => match regValue d o with | some v => leBytes 8 v.toNat | none => leBytes 8 0
    let d := if rs.contains 0x40_0010 then { d with fresh := d.fresh + 1 } else d
    { d with hostResp := d.hostResp ++ [(bs.drop (off % 8)).take len] }

/-- A write through window 0: one whole register, or the access is invalid (R466). DEDUCED (log entry 26). -/
def writeWindow0 (d : Dev) (off : Nat) (bs : List Byte) : Res Dev :=
  if off % 8 ≠ 0 ∨ bs.length ≠ 8 then .ok (countInvalid d) else linkWrite d off (w64 (leNat bs))

/-- Addresses of the bytes of an access through windows 1–3. -/
def winBytes (w off len : Nat) : List (Option Nat) := (List.range len).map fun i => winAddr w (off + i)

/-- The pieces of an access: runs within aligned 64 bytes. -/
def winPieces (w off len : Nat) : List (Nat × Nat) :=
  (pieces64 off len).filterMap fun p => (winAddr w p.1).map fun a => (a, p.2)

/-- R466: may a byte be accessed?. DESIGN CHOICE (log entry 29). -/
def winByteOk (d : Dev) : Option Nat → Bool
  | none => false
  | some a => let p := place d a; p != .bad && p != .range && !blockedPlace d p

/-- R466: has BRK_CLASS the slots for an access's direction on every memory port that it touches? -/
def accessGranted (d : Dev) (a : HostAcc) : Bool :=
  grantedAll d (if a.data.isSome then rgf d 0x20_1010 7 0 else rgf d 0x20_1010 15 8) 49 a.data.isSome (winPieces a.window a.off a.len)

/-- An access through windows 1–3 moves. -/
def moveAccess (d : Dev) (a : HostAcc) : Res Dev := do
  let ps := winPieces a.window a.off a.len
  let d ← settlePieces d ps
  match a.data with
  | some bs =>
    guardPieces d ps bs
    pure (writePieces d ps bs)
  | none =>
    let r := readPieces d ps
    pure { r.2 with hostResp := r.2.hostResp ++ [r.1] }

/-- R466: an access through windows 1–3 ends at once as invalid, moves, or waits for its slots. -/
def serveAccess (d : Dev) (a : HostAcc) : Res Dev :=
  if !isReady d || a.len == 0 || !(winBytes a.window a.off a.len).all (winByteOk d) then .ok (invalidAccess d a.len a.data)
  else if accessGranted d a then moveAccess d a
  else .ok { d with host := { d.host with wait := d.host.wait ++ [a] } }

/-- HOST_WINDOW_ACCESS (R466): a read of `len` bytes, or a write of the bytes given. DESIGN CHOICE (log entries 12, 29). -/
def windowAccess (d : Dev) (w off len : Nat) (data : Option (List Byte)) : Res Dev :=
  let len := match data with | some bs => bs.length | none => len
  if w = 0 then (match data with | some bs => writeWindow0 d off bs | none => .ok (readWindow0 d off len))
  else serveAccess d { window := w, off := off, len := len, data := data, wt := ticks d }

/-- The accesses that wait move once their class has gained the slots (R466). DESIGN CHOICE (log entry 29). -/
def retryAccesses (d : Dev) : Res Dev :=
  if d.host.wait.isEmpty then .ok d else d.host.wait.foldlM serveAccess { d with host := { d.host with wait := [] } }

/-- HOST_ACCESS_TIMEOUT (R466): the oldest waiting access has waited for 100 µs. DESIGN CHOICE (log entries 29, 33). -/
def accessTimeout (d : Dev) : Dev :=
  match d.host.wait with
  | [] => d
  | a :: t =>
    if ticks d < a.wt + 10000 then d
    else
      let d := { d with host := { d.host with wait := t } }
      failAccess (putRgf d 0x20_1018 63 32 (satAdd 32 (rgf d 0x20_1018 63 32) 1)) a.len a.data

/-- HOST_LINE_INVALIDATE (R463): a host write to host memory: the device's copy of each line is gone before the write completes. -/
def hostLineWrite (d : Dev) (off : Nat) (bs : List Byte) : Dev :=
  if off + bs.length ≤ 2 ^ 44 then wrBytes (lineDrop d (hostBase + off) bs.length) (hostBase + off) bs else d

/-! ### Events (R478, R479) -/

/-- FORWARDED_EVENT_RECEIVE (R479): report bytes go to their host address; an event enters this device's own queue. DESIGN CHOICE (log entry 19). -/
def forwarded (d : Dev) (m : FabMsg) : Dev :=
  if m.dst != myDev d then d
  else if bitAt m.w1.toNat 63 then hostWrite d (fld m.w1.toNat 47 0) m.body
  else
    let w (k : Nat) : Nat := leNat ((m.body.drop (8 * k)).take 8)
    holdEvent d { dev := fld (w 0) 55 50, type := fld (w 0) 63 56, stamp := fld (w 0) 47 0, wt := w 1, arg0 := w64 (w 2), arg1 := w64 (w 3) }

end Sys2Proof.Machine
end

