-- ==== Sys2Proof/Machine/Boot.lean ====
section
/-! DEFINITION. Cold reset and boot (16 R522, 19 R594–R597 and R606, R610, R611, 15 R507, R513, R514, 09 R318): what a cold reset leaves, the firmware slots, the device's
identity, the owner sections, and the loading of the ledger. -/
namespace Sys2Proof.Machine

/-! ### What a cold reset leaves -/

/-- R511: an update that a cold reset or a loss of power cuts off leaves its target copy half-written: erased, and programmed up to a point before its digest, which
is a free value. DESIGN CHOICE (log entry 16). -/
def cutUpdate (d : Dev) : Dev :=
  match d.sec.upd with
  | some u =>
    if u.fail.isNone then
      let w := drawWord d
      programCopy w.2 u.target (u.bytes.take (w.1.toNat % (u.bytes.length - 195)))
    else d
  | none => d

/-- Flash address of the mailbox (R627). -/
def mbAddr (d : Dev) : Nat := rgf d 0xC0_2008 24 8 * 256

/-- The flash bytes that mailbox operation `op` writes: a sector or a page. -/
def mbRange (d : Dev) (op : Nat) : Nat × Nat := if op = 1 then (mbAddr d / 4096 * 4096, 4096) else (mbAddr d, 256)

/-- Unspecified bytes in flash (R628). DESIGN CHOICE (log entry 16). -/
def flashUnspec (d : Dev) (a n : Nat) : Dev := let r := drawBytes n d; flashWrite r.2 a r.1

/-- R627: the RESULT that refuses mailbox operation `op`, if any. -/
def mbRefused (d : Dev) (op : Nat) : Option Nat :=
  let a := mbAddr d
  if lcs d = 4 then some 4
  else if a < 0x80_0000 ∨ 0x200_0000 ≤ a then some 1
  else if op ≠ 3 ∧ d.sec.boot.any (fun b => decide (b.slot = (a - 0x80_0000) / 0xC0_0000)) then some 2
  else none

/-- An erase or program that a cold reset cuts off leaves the bytes unspecified. DESIGN CHOICE (log entry 16). -/
def cutMailbox (d : Dev) : Dev :=
  match d.sec.mbox with
  | some (op, _) =>
    if (op = 1 ∨ op = 2) ∧ d.sec.upd.isNone ∧ mbRefused d op = none then flashUnspec d (mbRange d op).1 (mbRange d op).2 else d
  | none => d

/-- A TAP instruction once the debug scopes have closed (R613, R633): a private one acts as BYPASS. PRESUMED (log entry 18). -/
def tapClosed (o : TapOp) : TapOp := match o with | .vendor _ => .bypass | o => o

/-- The device at the start of a cold reset (R522): what is kept is the flash, the fuses, the board's side (supply, MOD_RST_N, cables, host memory, the TAP and the management
bus), what has already left the device, and the model's own counters. DESIGN CHOICE (log entry 3). -/
def coldOf (d : Dev) : Dev :=
  let d := cutUpdate (cutMailbox d)
  { coldDev with
    mem := d.mem.filter fun e => decide (hostBase ≤ e.1)
    fresh := d.fresh, nextId := d.nextId, sent := d.sent, hostResp := d.hostResp, fab := fabCold d.fab.cables
    pwr := { coldDev.pwr with on := d.pwr.on, rstN := d.pwr.rstN, band := d.pwr.band, good := d.pwr.good.map fun _ => 0 }
    sec := { coldDev.sec with flash := d.sec.flash, blank := d.sec.blank, fuses := d.sec.fuses, draws := d.sec.draws, addr := d.sec.addr, tap := d.sec.tap.map tapClosed } }

/-! ### Firmware slots (R594, R595) -/

/-- Flash offset of a slot. -/
def slotBase (s : Nat) : Nat := 0x80_0000 + 0xC0_0000 * s

/-- LENGTH of the image in a slot. -/
def fwLength (d : Dev) (s : Nat) : Nat := leNat (flashRead d (slotBase s + 0xC) 4)
/-- SVN. -/
def fwSvn (d : Dev) (s : Nat) : Nat := leNat (flashRead d (slotBase s + 6) 2)
/-- VERSION. -/
def fwVersion (d : Dev) (s : Nat) : Nat := leNat (flashRead d (slotBase s + 8) 4)
/-- VKEY. -/
def fwKey (d : Dev) (s : Nat) : List Byte := flashRead d (slotBase s + 0x40) 133
/-- The digest that the signature covers, which is the firmware measurement. -/
def fwDigest (d : Dev) (s : Nat) : List Byte := sha512 (flashRead d (slotBase s) (0x100 + fwLength d s))

/-- R595: does a slot pass? -/
def slotOk (d : Dev) (s : Nat) : Bool :=
  let n := fwLength d s
  leNat (flashRead d (slotBase s) 4) == 0x5746_4B53 && leNat (flashRead d (slotBase s + 4) 2) == 1 && decide (1 ≤ n ∧ n ≤ 786432)
    && decide (fwSvn d s ≤ 64) && sha512 (fwKey d s) == d.sec.fuses.vkh && decide (d.sec.fuses.fwsvn ≤ fwSvn d s)
    && ecdsaVerify (fwKey d s) (fwDigest d s) (flashRead d (slotBase s + 0x100 + n) 132)

/-- R595: the slot that the ROM boots: higher SVN, then higher VERSION, then slot 0. -/
def bootSlot (d : Dev) : Option Nat :=
  match slotOk d 0, slotOk d 1 with
  | true, true =>
    some (if fwSvn d 0 < fwSvn d 1 then 1 else if fwSvn d 1 < fwSvn d 0 then 0 else if fwVersion d 0 < fwVersion d 1 then 1 else 0)
  | true, false => some 0
  | false, true => some 1
  | false, false => none

/-- ID_STATUS.BOOTFAIL. -/
def bootFail (d : Dev) : Bool := rgf d 0 1 1 == 1

/-- Is a cold reset under way, and its boot not over?. DESIGN CHOICE (log entry 28). -/
def booting (d : Dev) : Bool := !isReady d && !bootFail d && d.sec.boot.isNone

/-- Does this cold reset train links: an image boots, and the life-cycle state is not SCRAPPED (R595, R611)?. DESIGN CHOICE (log entry 28). -/
def coldTrains (d : Dev) : Bool := booting d && lcs d != 4 && (bootSlot d).isSome

/-! ### The steward's random source, fuses and keys (R592, R599, R606) -/

/-- A draw of the random source, as a number from 1 to n − 1 for the order n of the base point. DESIGN CHOICE (log entry 5). -/
def drawScalar (d : Dev) : Nat × Dev :=
  (Config.randomDraw d.sec.draws % (ecN - 1) + 1, { d with sec := { d.sec with draws := d.sec.draws + 1 } })

/-- Puts consecutive bytes into consecutive registers. -/
def putBytes (d : Dev) (off : Nat) (bs : List Byte) : Dev :=
  (List.range ((bs.length + 7) / 8)).foldl (fun d k => putRg d (off + 8 * k) (w64 (leNat ((bs.drop (8 * k)).take 8)))) d

/-- The bytes of `n` consecutive registers. -/
def regBytes (d : Dev) (off n : Nat) : List Byte := (List.range n).flatMap fun k => leBytes 8 (rg d (off + 8 * k)).toNat

/-- R606: a new challenge. DESIGN CHOICE (log entry 5). -/
def newChallenge (d : Dev) : Dev :=
  let r := Config.randomDraw d.sec.draws
  putBytes { d with sec := { d.sec with draws := d.sec.draws + 1 } } 0xC0_0040 (leBytes 32 r)

/-- A signature by the device key (R599, R600). -/
def deviceSign (d : Dev) (digest : List Byte) : List Byte × Dev :=
  match d.sec.fuses.dkey with
  | some k => let n := drawScalar d; (ecdsaSign (beNat k) n.1 digest, n.2)
  | none => (List.replicate 132 0, d)

/-- DEVID (R599); 0 in BLANK. -/
def devId (d : Dev) : Nat := match d.sec.fuses.dpub with | some k => leNat ((sha512 k).take 8) | none => 0

/-- The security block's registers that show fuses (R604). -/
def showFuses (d : Dev) : Dev :=
  let f := d.sec.fuses
  let d := putRgf (putRgf (putRgf d 0xC0_0000 19 16 f.lcs) 0xC0_0000 15 9 f.fwsvn) 0xC0_0000 2 2 (b2n f.okey.isSome)
  let d := putRg d 0xC0_0008 (w64 (devId d))
  match f.dpub with | some k => putBytes d 0xC0_0200 (k ++ List.replicate 3 0) | none => d

/-! ### Owner sections (R513, R514) -/

/-- R513, R514: a copy without its owner sections, with a new SEQ. -/
def strippedCopy (d : Dev) (bs : List Byte) (seq : Nat) : List Byte × Dev :=
  let keep := (ldgDir bs).filter fun e => !bitAt e.flags 1
  let secs := keep.map fun e => (e.id, ldgBody bs e.id)
  if onlyCal bs then (buildCopy secs seq (ldgSig bs), d)
  else
    let s := deviceSign d (sha512 (signedData (buildCopy secs seq [])))
    (buildCopy secs seq s.1, s.2)

/-- R513: both copies are written in turn, the older first; an invalid copy counts as the older and is written from the other. -/
def clearOwner (d : Dev) : Dev :=
  let sel := ldgSelect d
  if sel = 0 then d
  else
    let other := 3 - sel
    let bs := copyBytes d sel
    let old := copyBytes d other
    let src := if ldgValid d old then old else bs
    let a := strippedCopy d src (ldgSeq bs + 1)
    let b := strippedCopy a.2 bs (ldgSeq bs + 2)
    programCopy (programCopy b.2 other a.1) sel b.1

/-! ### Loading the ledger (R507) -/

/-- FAB_CFG of the default ledger: SHAPE 0, MYDEV 0, TMASTER 0, SQM 0, SQHOP 1. -/
def defaultFabCfg : Nat := 2 ^ 40

/-- Word `k` of the ROUTE section: FAB_CFG, FAB_SET and the 64 routes, or the default's. -/
def routeWord (bs : List Byte) (k : Nat) : Nat :=
  if (ldgFind bs 1).isSome then leAt (ldgBody bs 1) (8 * k) 8 else if k = 0 then defaultFabCfg else if k = 1 then 1 else 0

/-- ROUTE is loaded (R432, R504). -/
def loadRoute (d : Dev) (bs : List Byte) : Dev :=
  let put (d : Dev) (off k : Nat) : Dev := putRg d off (w64 (routeWord bs k) &&& stMask off)
  (List.range 64).foldl (fun d k => put d (0x100_1000 + 8 * k) (k + 2)) (put (put d 0x100_0000 0) 0x100_0008 1)

/-- POWER is loaded (R582): the body is laid out as PWR_LIMIT; values outside their limits, and a missing section, give the defaults. CAP is LIMIT.
PRESUMED (log entry 17). -/
def loadPower (d : Dev) (bs : List Byte) : Dev :=
  let some_ := (ldgFind bs 4).isSome
  let w := leAt (ldgBody bs 4) 0 8
  let peak := if some_ && decide (fld w 63 48 ≤ 2400) then fld w 63 48 else 2400
  let limit := if some_ && decide (fld w 47 32 ≤ 2000) then fld w 47 32 else 2000
  let floor := if some_ && decide (600 ≤ fld w 31 16) then fld w 31 16 else 600
  putRgf (putRg d 0x80_0108 (w64 (peak * 2 ^ 48 + limit * 2 ^ 32 + floor * 2 ^ 16))) 0x80_0100 63 48 limit

/-- R629: does an RDIMM meet the requirements? -/
def dimmOk (m : Dimm) : Bool :=
  m.ecc && m.rated && (m.ranks == 1 || m.ranks == 2) && decide (1 ≤ m.stack ∧ m.stack ≤ 4) && (m.width == 4 || m.width == 8)
    && [16, 32, 64, 96, 128, 256].contains m.gib

/-- R318: the RDIMMs of the depot: those that meet R629 and equal the lowest-numbered one that does; MEM_DEPOT shows them.
DESIGN CHOICE (log entries 8, 28). -/
def loadDepot (d : Dev) (ms : List (Option Dimm)) : Dev :=
  let first := ms.findSome? fun m => match m with | some x => if dimmOk x then some x else none | none => none
  let bit (p : Dimm → Bool) : Nat := ((ms.zipIdx.map fun (m, c) => match m with | some x => if p x then 2 ^ c else 0 | none => 0)).sum
  match first with
  | some f => putRg d 0x30A_0000 (w64 (bit (· == f) * 2 ^ 40 + bit (· != f) * 2 ^ 32 + f.gib))
  | none => putRg d 0x30A_0000 (w64 (bit (fun _ => true) * 2 ^ 32))

/-- The sections of the selected copy take effect (R507). -/
def loadLedger (d : Dev) : Dev :=
  let d := ldgUse d (ldgSelect d)
  let bs := selectedCopy d
  let d := loadPower (loadRoute d bs) bs
  applyMap { d with sec := { d.sec with flags := secOf bs } } (newMap d)

/-- R610: in SERVICE and SCRAPPED a selected copy with owner sections is rewritten first. -/
def finishClearing (d : Dev) : Dev :=
  let sel := ldgSelect d
  if decide (3 ≤ lcs d) && sel != 0 && (ldgDir (copyBytes d sel)).any (fun e => bitAt e.flags 1) then clearOwner d else d

/-- R596: firmware with COMMIT blows FWSVN bits up to its SVN; `burnt` of them read back blown. DESIGN CHOICE (log entry 8). -/
def commitSvn (d : Dev) (svn : Nat) (commit : Bool) (burnt : Nat) : Dev :=
  if commit then
    showFuses { d with sec := { d.sec with fuses := { d.sec.fuses with fwsvn := max d.sec.fuses.fwsvn (min svn (d.sec.fuses.fwsvn + burnt)) } } }
  else d

/-- The steward runs the image of slot `s` (R595, R596, R604). -/
def startSteward (d : Dev) (s : Nat) : Dev :=
  let b : Boot := { slot := s, vkey := fwKey d s, commit := bitAt (leNat (flashRead d (slotBase s + 0x10) 4)) 0,
                     ram := flashRead d (slotBase s + 0x100) (fwLength d s) }
  let svn := fwSvn d s
  let ver := fwVersion d s
  let m := fwDigest d s
  let d := { d with sec := { d.sec with boot := some b } }
  let d := putRgf (showFuses d) 0xC0_0000 8 8 s
  newChallenge (putBytes (putRg d 0xC0_0010 (w64 (svn * 2 ^ 32 + ver))) 0xC0_0100 m)

/-- Have the links of a cold reset ended their training (R428, R460)?. DESIGN CHOICE (log entry 28). -/
def linksTrained (d : Dev) : Bool :=
  decide (2 ≤ rgf d 0x20_1000 9 8) && d.fab.cables.all fun p => decide (2 ≤ fabState d p)

/-- BOOT_COMPLETE (R507, R595, R596, R610, R611): the boot of a cold reset ends, with READY, or with BOOTFAIL; in SCRAPPED READY is never set.
DESIGN CHOICE (log entry 28). -/
def bootComplete (d : Dev) (ms : List (Option Dimm)) (burnt : Nat) : Dev :=
  if !booting d then d
  else match bootSlot d with
  | none => putRgf d 0 1 1 1
  | some s =>
    if lcs d = 4 then loadLedger (finishClearing (startSteward d s))
    else if !linksTrained d then d
    else
      let svn := fwSvn d s
      let d := startSteward d s
      let commit := d.sec.boot.any (·.commit)
      let d := loadDepot (loadLedger (finishClearing d)) ms
      commitSvn { putRgf d 0 0 0 1 with alm := none, almBase := d.root / 6 + 1, slotUsed := [] } svn commit burnt

end Sys2Proof.Machine
end

