-- ==== Sys2Proof/Machine/Fabric.lean ====
section
/-! DEFINITION. The fabric (13_fabric.md): links and cables (R428, R429, R621), routing (R433–R437), transfers and loans (R438–R442, R456–R458), flush markers (R443, R397,
R528), wall-tick synchronisation (R449, R450) and squalls (R453). -/
namespace Sys2Proof.Machine

/-! ### Links -/

/-- Offset of FAB_PORT[p]. -/
def fabPort (p : Nat) : Nat := 0x100_0100 + 8 * p

/-- LINK_LOSS (R429): an up port loses its link: LINK is set, and the port retrains, unless its cable is gone (R621). DEDUCED (log entry 20). -/
def linkLoss (d : Dev) (p : Nat) : Dev :=
  if !fabUp d p then d
  else
    let d := { d with fab := { d.fab with tries := tabPut (fun _ => 0) d.fab.tries p 0 } }
    let d := if d.fab.cables.contains p then linkEvent (retrainPort d p) p 1 else linkEvent (putRgf d (fabPort p) 33 32 0) p 0
    let d := abandonPoll (dropDiscards d [p])
    raise d { kind := 7, sub := 1, port := 0, bundle := none, addr := 0, detail := w64 p, cell := none, abandons := true }

/-- HOST_LINK_LOSS (R460): it abandons no step. DEDUCED (log entry 20). -/
def hostLinkLoss (d : Dev) : Dev :=
  if !hostUp d then d
  else
    let d := { d with fab := { d.fab with tries := tabPut (fun _ => 0) d.fab.tries 15 0 } }
    let d := putRgf (putRgf d 0x20_1000 9 8 1) 0x20_1000 63 48 (satAdd 16 (rgf d 0x20_1000 63 48) 1)
    raise (linkEvent d 15 1) { kind := 7, sub := 1, port := 0, bundle := none, addr := 0, detail := 15, cell := none, abandons := false }

/-- LINK_TRAINING_DONE (R428, R429, R460): an attempt at a fabric port 0–11, or at the host link (15), ends. A third failed attempt leaves the port failed; an earlier
one is followed by another. DESIGN CHOICE (log entries 8, 28). DEDUCED (log entry 20). -/
def trainingDone (d : Dev) (p : Nat) (ok : Bool) (peer pport lanes : Nat) : Dev :=
  let n := tabGet (fun _ => 0) d.fab.tries p + 1
  let again (d : Dev) (k : Nat) : Dev := { d with fab := { d.fab with tries := tabPut (fun _ => 0) d.fab.tries p k } }
  if p = 15 then
    if rgf d 0x20_1000 9 8 ≠ 1 ∧ ¬(rgf d 0x20_1000 9 8 = 0 ∧ coldTrains d) then d
    else if ok then
      (if lanes = 16 ∨ lanes = 8 then
        hostDrain (linkEvent (again (putRgf (putRgf d 0x20_1000 9 8 2) 0x20_1000 4 0 lanes) 0) 15 2)
      else d)
    else if 3 ≤ n then linkEvent (again (putRgf d 0x20_1000 9 8 3) 0) 15 3
    else again (putRgf d 0x20_1000 63 48 (satAdd 16 (rgf d 0x20_1000 63 48) 1)) n
  else if 12 ≤ p ∨ (fabState d p ≠ 1 ∧ ¬(fabState d p = 0 ∧ coldTrains d)) ∨ !d.fab.cables.contains p then d
  else if ok then
    fabDrain (linkEvent (again (putRgf (putRgf (putRgf d (fabPort p) 33 32 2) (fabPort p) 47 42 peer) (fabPort p) 41 38 pport) 0) p 2)
  else if 3 ≤ n then linkEvent (again (putRgf d (fabPort p) 33 32 3) 0) p 3
  else again (retrainPort d p) n

/-- CABLE_MATE (R621): a cage's cable comes or goes. A port without one stays in STATE 0; a cable that comes lets the
next cold or warm reset train its port. DEDUCED (log entry 20). DESIGN CHOICE (log entry 21). -/
def cableMate (d : Dev) (p : Nat) (present : Bool) : Dev :=
  if 12 ≤ p then d
  else
    let cs := d.fab.cables.filter (· != p)
    if present then { d with fab := { d.fab with cables := cs ++ [p] } }
    else
      let d := { d with fab := { d.fab with cables := cs } }
      if fabState d p == 1 || fabState d p == 3 then linkEvent (putRgf d (fabPort p) 33 32 0) p 0 else d

/-! ### Routing -/

/-- A routed class: data, relay or loan. -/
def routed (cls : Nat) : Bool := cls == 1 || cls == 3 || cls == 5

/-! ### Port buffers (R435, R437) -/

/-- The coordinate of device `t` in dimension `k` of the staged shape: x, y, z, or the place in the partial cycle (R427). -/
def coordOf (d : Dev) (k t : Nat) : Nat :=
  if rgf d 0x100_0000 47 44 = 1 then t else match k with | 0 => t % 4 | 1 => t / 4 % 4 | _ => t / 16

/-- Devices in dimension `k`. -/
def dimSize (d : Dev) (k : Nat) : Nat :=
  let shape := rgf d 0x100_0000 47 44
  if shape = 1 then setCount (rg d 0x100_0008).toNat else if k = 2 then shape - 1 else 4

/-- R435: does a routed message take the second buffer of its class at port `p`: has it crossed the wraparound link of the port's dimension since its source, or
does it cross it there? DEDUCED (log entry 42). -/
def secondBuffer (d : Dev) (p : Nat) (m : FabMsg) : Bool :=
  let k := p / 4
  let at_ := coordOf d k (myDev d)
  let home := coordOf d k m.src
  routed m.cls && (if p % 4 < 2 then decide (at_ < home) || at_ == dimSize d k - 1 else decide (home < at_) || at_ == 0)

/-- What waits in a buffer of port `p`, the oldest first. DEDUCED (log entry 42). -/
def portBuffer (d : Dev) (p cls : Nat) (second : Bool) : List FabMsg :=
  (d.tx.filter fun e => e.1 == p && e.2.cls == cls && secondBuffer d p e.2 == second).map (·.2)

/-- R437: the priority of a class on a port, the highest first. -/
def classRank (cls : Nat) : Nat := match cls with | 6 => 1 | 4 => 2 | 3 => 3 | 2 => 4 | 1 => 5 | _ => 6

/-- R437, R438: the message that port `p` starts next: the oldest of the highest-priority class that has one waiting. DEDUCED (log entry 42). -/
def portNext (d : Dev) (p : Nat) : Option FabMsg :=
  ((d.tx.filter (·.1 == p)).map (·.2)).foldl (fun b m => match b with
    | some x => if classRank m.cls < classRank x.cls then some m else some x
    | none => some m) none

/-- Root cycles that a message takes on a port at 224 GB/s, with its envelope (R426, R436). DESIGN CHOICE (log entry 45). -/
def messageTime (m : FabMsg) : Nat := ((16 + m.body.length) * 3 + 79) / 80

/-- R447: the last request of a relayed command is sent when its port starts it. -/
def noteRequest (d : Dev) (m : FabMsg) : Dev :=
  let own (t : HostTask) : Bool := m.cls == 3 && m.kind == 1 && m.src == myDev d && t.root.isNone && tagOf t.words == fld m.w1.toNat 63 48
  { d with host := { d.host with tasks := d.host.tasks.map fun t => if own t then { t with sent := ticks d } else t } }

/-- R437: port `p` starts a message if it has finished the one before. DEDUCED (log entry 42). -/
def startMsg (d : Dev) (p : Nat) : Dev :=
  if !fabUp d p || decide (d.root < tabGet (fun _ => 0) d.fab.free p) then d
  else match portNext d p with
  | none => d
  | some m =>
    noteRequest { d with tx := d.tx.erase (p, m), sent := d.sent ++ [(p, m)]
                         fab := { d.fab with free := tabPut (fun _ => 0) d.fab.free p (d.root + messageTime m) } } m

/-- The ports in a root cycle. DEDUCED (log entry 42). -/
def portsTick (d : Dev) : Dev := if d.tx.isEmpty then d else (List.range 12).foldl startMsg d

/-! ### Forwarding -/

/-- Does a port discard this message in a fabric flush (R443)? -/
def flushed_ (d : Dev) (p : Nat) (m : FabMsg) : Bool := m.cls == 1 && d.fab.discard.contains p

/-- ROUTED_MESSAGE_FORWARD (R433, R434): it waits while no port of its route is up. DESIGN CHOICE (log entry 21). -/
def forwardMsg (d : Dev) (p : Nat) (m : FabMsg) : Dev :=
  if !fabUp d p || !routed m.cls || m.dst == myDev d || (m.cls == 1 && m.kind == 15) || flushed_ d p m then d
  else if m.hops = 15 then
    raise d { kind := 7, sub := 2, port := 0, bundle := none, addr := 0, detail := w64 p, cell := none, abandons := true }
  else match routePort d p m with
    | some q => sendMsg d q { m with hops := m.hops + 1 }
    | none => d

/-- UNKNOWN_CLASS_DISCARD (R437). -/
def unknownClass (d : Dev) (p : Nat) (m : FabMsg) : Dev :=
  if !fabUp d p || (decide (1 ≤ m.cls) && decide (m.cls ≤ 6)) then d
  else raise d { kind := 7, sub := 3, port := 0, bundle := none, addr := 0, detail := w64 p, cell := none, abandons := true }

/-! ### Flush markers -/

/-- Records a marker: it replaces any earlier one (R528). -/
def putMark (l : List (Nat × Nat)) (k st : Nat) : List (Nat × Nat) := (l.filter fun x => x.1 != k) ++ [(k, st)]

/-- FLUSH_MARKER_RECEIVE (R397, R443, R528): a data marker (class 1, KIND 0xF) or a ring marker (class 2, TYPE 2) ends its port's discard, or is recorded. -/
def flushMarker (d : Dev) (p : Nat) (m : FabMsg) : Dev :=
  if !fabUp d p then d
  else if m.cls = 1 ∧ m.kind = 15 then
    if d.fab.discard.contains p then
      abandonPoll (fabFlushEnd { d with fab := { d.fab with discard := d.fab.discard.filter (· != p) } })
    else { d with fab := { d.fab with marks := putMark d.fab.marks p (fld m.w1.toNat 47 0) } }
  else if m.cls = 2 ∧ rmType m.body = 2 then
    let r := fld (rmWord m.body 0) 59 58
    if !(ringsRunning d).contains r || ringRx d r != p then d
    else if d.ring.discard.contains r then { d with ring := { d.ring with discard := d.ring.discard.filter (· != r) } }
    else { d with ring := { d.ring with marks := putMark d.ring.marks r (rmStamp m.body) } }
  else d

/-! ### Transfers (R439–R442) -/

/-- CONS of a transfer ring. -/
def xringCons (d : Dev) (r : Nat) : Nat := rdN d (xringBase d r + 32) 4

/-- FAB_RING_POLL (R440): the engine reads PROD; an overrun is a DMA fault of the ring's gallery, or of the device for ring 48. -/
def ringPoll (d : Dev) (r : Nat) : Dev :=
  if d.dump.isSome || decide (48 < r) || !bitAt (xring d r) 63 || d.fab.overrun.contains r || !ownerMay d 50 false (xringBase d r) 4 then d
  else
    let b := engRead d (xringBase d r) 4
    let d := b.2
    let prod := leNat b.1
    if 2 ^ fld (xring d r) 51 48 < (prod + 2 ^ 32 - xringCons d r) % 2 ^ 32 then
      raise { d with fab := { d.fab with overrun := d.fab.overrun ++ [r] } }
        { kind := 4, sub := 11, port := if r = 48 then 0 else galleryPort r, bundle := none, addr := 0, detail := w64 r, cell := none
          abandons := true }
    else { d with fab := { d.fab with prod := tabPut (fun _ => 0) d.fab.prod r prod } }

/-- Has a ring an entry that its last read of PROD covers? -/
def ringHas (d : Dev) (r : Nat) : Bool :=
  let n := (tabGet (fun _ => 0) d.fab.prod r + 2 ^ 32 - xringCons d r) % 2 ^ 32
  bitAt (xring d r) 63 && !d.fab.overrun.contains r && n != 0 && decide (n ≤ 2 ^ fld (xring d r) 51 48)

/-- R440: the ring that is served next: one entry per ring in each round. -/
def nextXring (d : Dev) : Option Nat := ((List.range 49).map fun k => (d.fab.next + k) % 49).find? (ringHas d)

/-- The transfer that an entry's words describe (R439). -/
def xferOfEntry (id r idx : Nat) (w : Nat → Nat) : FabXfer :=
  { id := id, ring := r, idx := idx, src := fld (w 0) 47 0, ddev := fld (w 1) 63 58, daddr := fld (w 1) 47 0, loan := bitAt (w 2) 63, len := fld (w 2) 31 0
    rcell := fld (w 3) 63 55, rh := fld (w 3) 54 50, rval := bitAt (w 3) 49, lcell := fld (w 3) 48 40, lh := fld (w 3) 39 35, lval := bitAt (w 3) 34
    pos := 0, read := false }

/-- R442, R456: the fault of an entry: SUB code and address. -/
def entryFault (d : Dev) (x : FabXfer) : Option (Nat × Nat) :=
  if x.len = 0 then some (6, 0)
  else match badPiece d (pieces64 x.src x.len) with
    | some a => some (7, a)
    | none =>
      if !bitAt (rg d 0x100_0008).toNat x.ddev || x.ddev == myDev d then some (8, 0)
      else if x.loan && x.ring != 48 then some (10, 0)
      else none

/-- R440, case 1 of R297: does a DMA that a gallery engine has taken write bytes that the fabric engine reads?. DEDUCED (log entry 10). -/
def beingWritten (d : Dev) (a n : Nat) : Bool := (d.gals.flatMap (·.2.xs)).any fun y => xferMeets y false a n

/-- Address of the entry at index `i` of a transfer ring (R439). -/
def xringEntry (d : Dev) (r i : Nat) : Nat := xringBase d r + 64 + 32 * (i % 2 ^ fld (xring d r) 51 48)

/-- FAB_TRANSFER_TAKE (R440, R442): the engine takes the next entry while fewer than 32 transfers are active. It reads and writes in the almanac classes of owner 50.
DESIGN CHOICE (log entry 12). -/
def takeXfer (d : Dev) : Res Dev :=
  if d.dump.isSome || decide (32 ≤ d.fab.xs.length) then .ok d
  else match nextXring d with
  | none => .ok d
  | some r =>
    let cons := xringCons d r
    if !ownerMay d 50 false (xringEntry d r cons) 32 || !ownerMay d 50 true (xringBase d r + 32) 4 then .ok d
    else if beingWritten d (xringEntry d r cons) 32 then .error .uncoveredDma else
    let e := engRead d (xringEntry d r cons) 32
    let d := engWrite e.2 (xringBase d r + 32) (leBytes 4 ((cons + 1) % 2 ^ 32))
    let n := newId { d with fab := { d.fab with next := (r + 1) % 49 } }
    let d := n.2
    let x := xferOfEntry n.1 r cons fun k => leNat ((e.1.drop (8 * k)).take 8)
    match entryFault d x with
    | some (sub, a) =>
      .ok (raise d { kind := 4, sub := sub, port := 0, bundle := none, addr := a % 2 ^ 48, detail := w64 r, cell := none, abandons := true })
    | none => .ok { d with fab := { d.fab with xs := d.fab.xs ++ [x] } }

/-- Replaces an active transfer. -/
def putFab (d : Dev) (x : FabXfer) : Dev := { d with fab := { d.fab with xs := d.fab.xs.map fun y => if y.id = x.id then x else y } }

/-- R441: active transfer `k` reads and sends its next message of at most 4,096 bytes; it waits while no port of its route is up (R433), and
for the slots of owner 50 or the host link (R440, R460). DESIGN CHOICE (log entries 12, 19, 21). -/
def sendPiece (d : Dev) (k : Nat) : Res Dev :=
  match d.fab.xs[k]? with
  | none => .ok d
  | some x =>
    if d.dump.isSome || decide (x.len ≤ x.pos) then .ok d
    else match letterPort d x.ddev x.idx with
    | none => .ok d
    | some p =>
      let n := min 4096 (x.len - x.pos)
      let ps := pieces64 (x.src + x.pos) n
      if rangePiece d ps then .error .outOfRange
      else if !linkServes d ps || !ownerMay d 50 false (x.src + x.pos) n then .ok d
      else if beingWritten d (x.src + x.pos) n then .error .uncoveredDma
      else do
        let d ← settlePieces d ps
        let r := readPieces d ps
        let last := decide (x.pos + n = x.len)
        let w1 := b2n last * 2 ^ 63 + x.rcell * 2 ^ 54 + x.rh * 2 ^ 49 + b2n x.rval * 2 ^ 48 + (x.daddr + x.pos) % 2 ^ 48
        let m := { ownMsg d (if x.loan then 5 else 1) x.ddev (if last then 2 else 1) (w64 w1) r.1 with idx := if x.loan then x.idx else 0 }
        pure (putFab (sendMsg r.2 p m) { x with pos := x.pos + n })

/-- FAB_SOURCE_READ_DONE (R441): every source byte of transfer `k` has been read: it counts at LCELL. A loan then waits for its acknowledgement. -/
def sourceDone (d : Dev) (k : Nat) : Dev :=
  match d.fab.xs[k]? with
  | none => d
  | some x =>
    if d.dump.isSome || x.read || decide (x.pos < x.len) then d
    else
      let d := if x.lval then engineCount d x.lcell x.lh [] else d
      if x.loan then putFab d { x with read := true }
      else
        let d := { d with fab := { d.fab with xs := d.fab.xs.filter fun y => y.id != x.id } }
        abandonPoll (fabFlushEnd (fabMarkers d))

/-- Does a reset block the memory at a place (R442, R51, R527)? -/
def resetBlocks (d : Dev) (p : Place) : Bool :=
  let wiping := rgf d 0x40_0010 5 4 == 2
  match p with
  | .hbm _ => wiping
  | .depot _ => wiping
  | .gstore g _ => wiping || resetting d (galleryPort g)
  | .folio c _ => wiping || resetting d (cellPort c)
  | _ => false

/-- R457: loan message `m` arrives: its loan is in progress here until its last message, or what is left of it is stopped.
DESIGN CHOICE (log entry 19). -/
def noteLoan (d : Dev) (m : FabMsg) (last : Bool) : Dev :=
  let k := (m.src, m.idx)
  if m.cls != 5 then d
  else { d with fab := { d.fab with loans := if last || d.fab.loans.contains k then d.fab.loans.filter fun l => !(last && l == k) else d.fab.loans ++ [k]
                                    cut := if last then d.fab.cut.filter (· != k) else d.fab.cut } }

/-- R441, R283, R364: the last message of a transfer counts at RCELL; what it completes may be a peer's write of an update sweep.
DEDUCED (log entry 40). -/
def dataCounted (d : Dev) (w1 : Nat) : Dev :=
  let n := newId d
  let d := n.2
  let d := if sweeping d then { d with sweep := d.sweep ++ [{ slot := 1 - stPub d, id := n.1, peer := true }] } else d
  engineCount d (fld w1 62 54) (fld w1 53 49) [n.1]

/-- FAB_DATA_RECEIVE (R441, R442, R457, R458): the destination writes a data or loan message; after the last it counts at RCELL, and acknowledges a loan. It waits for
the slots of owner 50, and for the host link. DESIGN CHOICE (log entries 12, 19). -/
def dataReceive (d : Dev) (p : Nat) (m : FabMsg) : Res Dev :=
  let w1 := m.w1.toNat
  let last := bitAt w1 63
  if !fabUp d p || d.dump.isSome || m.dst != myDev d || !(m.cls == 1 || m.cls == 5) || !(m.kind == 1 || m.kind == 2) || flushed_ d p m then .ok d
  else if m.cls == 5 && d.fab.cut.contains (m.src, m.idx) then .ok (noteLoan d m last)
  else
    let ps := pieces64 (fld w1 47 0) m.body.length
    match badPiece d ps with
    | some a => .ok (raise d { kind := 4, sub := 9, port := 0, bundle := none, addr := a % 2 ^ 48, detail := 0, cell := none, abandons := true })
    | none =>
      if ps.any fun q => resetBlocks d (place d q.1) then .ok d
      else if rangePiece d ps then .error .outOfRange
      else if !linkServes d ps || !ownerMay d 50 true (fld w1 47 0) m.body.length then .ok d
      else do
        let d ← settlePieces d ps
        guardPieces d ps m.body
        let d := noteLoan (writePieces d ps m.body) m last
        if !last then pure d
        else
          let d := if bitAt w1 48 then dataCounted d w1 else d
          pure (if m.cls = 5 then sendRouted d p (ownMsg d 5 m.src 3 (w64 m.idx) []) else d)

/-- LOAN_ACK_RECEIVE (R458). DESIGN CHOICE (log entry 19). -/
def loanAck (d : Dev) (m : FabMsg) : Dev :=
  if m.dst != myDev d then d
  else match d.fab.xs.find? fun x => x.loan && x.idx == m.w1.toNat && x.ddev == m.src && decide (x.len ≤ x.pos) with
  | none => d
  | some x =>
    let d := { d with fab := { d.fab with xs := d.fab.xs.filter fun y => y.id != x.id } }
    postEvent (putRgf d 0x100_0030 31 16 (satAdd 16 (rgf d 0x100_0030 31 16) 1)) 4 (w64 x.idx) 0

/-! ### Wall ticks (R449, R450) -/

/-- Root cycles in a wall tick: 8.4 GHz and 100 MHz. -/
def rootPerWt : Nat := 84

/-- The wall-tick count in 1/16 wt. DESIGN CHOICE (log entry 35). -/
def wt16 (d : Dev) : Nat := 16 * d.wt + d.root % rootPerWt * 16 / rootPerWt

/-- A missed exchange: after four in a row the device loses lock. -/
def missExchange (d : Dev) : Dev :=
  let n := d.fab.sync.missed + 1
  let d := { d with fab := { d.fab with sync := { d.fab.sync with missed := n, good := 0, open1 := none } } }
  if 4 ≤ n then putRgf d 0x100_0010 63 63 0 else d

/-- WALL_TICK_EXCHANGE (R449): due every 4,096 wt on every device but TMASTER. An exchange whose reply has not come by then is missed.
DESIGN CHOICE (log entry 33). -/
def wtExchange (d : Dev) : Dev :=
  let due := match d.fab.sync.lastReq with | some t => decide (t + 4096 ≤ ticks d) | none => true
  if rgf d 0x100_0000 38 33 == myDev d || !due then d
  else
    let d := if d.fab.sync.open1.isSome then missExchange d else d
    let d := { d with fab := { d.fab with sync := { d.fab.sync with lastReq := some (ticks d) } } }
    match syncParent d with
    | none => missExchange d
    | some p =>
      let d := { d with fab := { d.fab with sync := { d.fab.sync with open1 := some (wt16 d) } } }
      sendMsg d p (ownMsg d 4 (rgf d (fabPort p) 47 42) 1 0 (leBytes 8 (wt16 d)))

/-- WALL_TICK_REQUEST_RECEIVE (R449): the parent replies with t1, t2 and t3. DESIGN CHOICE (log entry 35). -/
def wtRequest (d : Dev) (p : Nat) (m : FabMsg) : Dev :=
  if !fabUp d p then d
  else sendMsg d p (ownMsg d 4 m.src 2 0 (m.body.take 8 ++ leBytes 8 (wt16 d) ++ leBytes 8 (wt16 d)))

/-- R450: what a device does about an offset `o` in 1/16 wt; `locked` is its state before the exchange. DESIGN CHOICE (log entry 35). -/
def wtCorrect (d : Dev) (o : Int) (locked : Bool) : Dev :=
  let adj (d : Dev) : Dev := putRgf d 0x100_0010 31 16 (satAdd 16 (rgf d 0x100_0010 31 16) 1)
  let slew (d : Dev) (n : Int) : Dev := adj { d with fab := { d.fab with sync := { d.fab.sync with slew := n } } }
  if locked then
    let free := match d.fab.sync.lastCorr with | some t => decide (t + 1024 ≤ ticks d) | none => true
    if free && (decide (8 ≤ o) || decide (o ≤ -8)) then
      let d := slew d (if 8 ≤ o then 1 else -1)
      { d with fab := { d.fab with sync := { d.fab.sync with lastCorr := some (ticks d) } } }
    else d
  else if 128 < o.natAbs then adj { d with wt := (((16 * d.wt : Int) + o) / 16).toNat }
  else if 8 ≤ o.natAbs then slew d (if 0 < o then ((o.natAbs + 8) / 16 : Nat) else -(((o.natAbs + 8) / 16 : Nat) : Int))
  else d

/-- WALL_TICK_REPLY_RECEIVE (R449, R450). DESIGN CHOICE (log entry 35). -/
def wtReply (d : Dev) (m : FabMsg) : Dev :=
  let t (k : Nat) : Int := leNat ((m.body.drop (8 * k)).take 8)
  match d.fab.sync.open1 with
  | none => d
  | some t1 =>
    if t 0 ≠ (t1 : Int) then d
    else
      let o := Int.tdiv ((t 1 - t 0) + (t 2 - (wt16 d : Int))) 2
      let locked := rgf d 0x100_0010 63 63 == 1
      let good := if o.natAbs < 16 then d.fab.sync.good + 1 else 0
      let d := { d with fab := { d.fab with sync := { d.fab.sync with open1 := none, missed := 0, good := good } } }
      let d := putRgf d 0x100_0010 15 0 (o % 65536).toNat
      let d := wtCorrect d o locked
      if 4 ≤ good then putRgf d 0x100_0010 63 63 1 else d

/-! ### Squalls (R453, R454) -/

/-- R457: a squall of a compute or warm reset tells that its origin has stopped the loans it held and sent. DESIGN CHOICE (log entry 19). -/
def loansOf (d : Dev) (m : FabMsg) : Dev :=
  let cause := fld (leNat ((m.body.drop 8).take 8)) 7 0
  if cause = 0x11 ∨ cause = 0x12 then
    let d := (d.fab.xs.filter fun x => x.loan && x.ddev == m.src).foldl stopLoan d
    { d with fab := { d.fab with loans := d.fab.loans.filter (·.1 != m.src), cut := d.fab.cut.filter (·.1 != m.src) } }
  else d

/-- R453: has a squall of the same SRC and SEQ been accepted within the last 1,024 wt? DEDUCED (log entry 30). -/
def squallSeen (d : Dev) (src seq : Nat) : Bool := d.fab.seen.any fun s => s.1 == src && s.2.1 == seq && decide (ticks d ≤ s.2.2 + 1024)

/-- R453, R454: an accepted squall is recorded, in FAB_SQREC unless it holds one. -/
def noteSquall (d : Dev) (m : FabMsg) : Dev :=
  let w0 := leNat (m.body.take 8)
  let seen := (d.fab.seen.filter fun s => decide (ticks d ≤ s.2.2 + 1024)) ++ [(m.src, fld w0 63 48, ticks d)]
  let d := { d with fab := { d.fab with seen := seen } }
  if bitAt (rg d 0x100_0028).toNat 63 then d
  else putRg { d with fab := { d.fab with recAt := portNclk d 0 + 1 } } 0x100_0028
    (w64 (2 ^ 63 + m.src * 2 ^ 57 + fld (leNat ((m.body.drop 8).take 8)) 7 0 * 2 ^ 49 + fld w0 47 0))

/-- SQUALL_RECEIVE. Hold overruns of the wall tick of its arrival come first (R295). DEDUCED (log entry 30). -/
def squallReceive (d : Dev) (p : Nat) (m : FabMsg) : Dev :=
  if !fabUp d p || squallSeen d m.src (fld (leNat (m.body.take 8)) 63 48) then d
  else
    let d := noteSquall (overrunSweep d) m
    let d :=
      if stState d = 1 then
        let run := (mapCells d).filter (docentRuns d)
        if run.isEmpty then abandonStep d
        else run.foldl (fun d c => raise d { kind := 8, sub := 0, port := cellPort c, bundle := none, addr := 0, detail := rg d 0x100_0028
                                             cell := some c, abandons := true }) d
      else if stState d = 0 then abandonPoll (fabFlush d)
      else d
    let d := postEvent (loansOf d m) 3 (rg d 0x100_0028) 0
    if 1 < m.hops then ((upPorts d).filter (· != p)).foldl (fun d q => sendMsg d q { m with hops := m.hops - 1 }) d else d

end Sys2Proof.Machine
end

