-- ==== Sys2Proof/Machine/Power.lean ====
section
/-! DEFINITION. Time, clocks, power and supply (18_clocks_power_supply.md, R563–R590): one cycle of the die root, droop stretch, the 54 V input, the orderly freeze,
shutdown and power-on, the power controller, and the junction sensors. -/
namespace Sys2Proof.Machine

/-! ### One cycle of the root (R564, R565) -/

/-- CLK_CFG.CDIV. -/
def cdiv (d : Dev) : Nat := rgf d 0x80_0000 4 0

/-- CLK_STR[w] (R571). -/
def clkStr (w : Nat) : Nat := 0x80_0010 + 8 * w

/-- The cells of a wing count a stretched edge, but for those that receive none (R555, R571). -/
def countStretch (d : Dev) (w : Nat) : Dev :=
  if !counting d then d
  else (List.range 96).foldl (fun d i =>
    let c := 96 * w + i
    if portUp d (cellPort c) && (cellOf d c).frozen.isNone then modCell d c fun x => { x with nStr := x.nStr + 1 } else d) d

/-- The stretch that applies to an edge of a wing (R568). DEDUCED (log entry 27). -/
def wingStretch (d : Dev) (x : Wing) : Nat := if x.from_ ≤ d.root then x.stretch else x.prev

/-- A wing's clock: an edge when its period has run out; a stretched edge is counted (R568–R571). A period of CDIV + s root cycles holds two NCLK periods, of
which the first receives ceil(s / 2) of the stretch and the second floor(s / 2) (R569). The stretch falls by one at each edge while every detector is clear
(R570), whether or not a STRETCH_DECAY has shown it in the edge that ends. DESIGN CHOICE (log entry 1). -/
def wingTick (d : Dev) (w : Nat) : Dev :=
  let x := wingOf d w
  let x := if x.left ≤ 1 && x.decay && x.tripped.isEmpty then { x with stretch := x.stretch - 1 } else x
  if 1 < x.left then putWing d w { x with left := x.left - 1 }
  else
    let s := wingStretch d x
    let d := putWing d w { x with edges := x.edges + 1, left := cdiv d + s, second := cdiv d / 2 + s / 2, decay := true }
    if s = 0 then d else countStretch (putRgf d (clkStr w) 47 0 (rgf d (clkStr w) 47 0 + 1)) w

/-- By how much a wall tick advances the counter while it slews (R450), and what is left to slew. -/
def wtAdvance (slew : Int) : Nat × Int := if 0 < slew then (2, slew - 1) else if slew < 0 then (0, slew + 1) else (1, 0)

/-- Does a cell wait at an awaited hold point? -/
def awaits (x : Cell) : Bool := x.running && x.frozen.isSome && x.wait.any (·.sub != 0)

/-- A wall tick of a cell that receives no edges: gated, it counts in CNT_GATE and is no part of a hold wait (R284, R585); held at an awaited hold point, it
counts in CNT_HELD (R555). -/
def holdTick (counts : Bool) (x : Cell) : Cell :=
  if x.gatedNow && x.frozen.isSome then
    { x with nGate := if counts then x.nGate + 1 else x.nGate, wait := x.wait.map fun w => { w with gated := w.gated + 1 } }
  else if counts && awaits x then { x with nHeld := x.nHeld + 1 }
  else x

/-- A wall tick: the counter advances, slewed (R450), and the cells that wait count it. DESIGN CHOICE (log entry 1). -/
def wallTick (d : Dev) : Dev :=
  let a := wtAdvance d.fab.sync.slew
  { d with wt := d.wt + a.1, fab := { d.fab with sync := { d.fab.sync with slew := a.2 } }
           cells := if halted d then d.cells else d.cells.map fun e => (e.1, holdTick (counting d) e.2) }

/-- Is the module powered, with MOD_RST_N high?. DESIGN CHOICE (log entry 2). -/
def live (d : Dev) : Bool := d.pwr.on && d.pwr.rstN

/-- A cell at a new edge: the effects that fell due before it have happened; those that fall due at it are the events of this edge. -/
def edgeSettle (d : Dev) (c : Nat) : Res Dev := settle d c (if (cellOf d c).frozen.isSome then cellEdge d c else cellEdge d c - 1)

/-- The cells of a wing at a new edge (R274, R278). -/
def settleWing (d : Dev) (w : Nat) : Res Dev :=
  (d.cells.filter fun e => wingOfCell e.1 == w).foldlM (fun d e => edgeSettle d e.1) d

/-- R240, R274: before the next edge, each running docent of a wing looks at the edge that ends: a bundle issues in the first edge in which its hold conditions
are met, whether or not a BUNDLE_ISSUE has been sent in it. DESIGN CHOICE (log entry 1). -/
def issueWing (d : Dev) (w : Nat) : Res Dev :=
  (d.cells.filter fun e => wingOfCell e.1 == w && e.2.running).foldlM (fun d e => bundleIssue d e.1 (inReset d)) d

/-- R283: at an edge, hold points see the counters as they stand at it; WAITP sees them as they stood one edge before. DESIGN CHOICE (log entry 39). -/
def seeCounters (d : Dev) (w : Nat) : Dev :=
  (d.cells.filter fun e => wingOfCell e.1 == w && !(e.2.hold == e.2.seen && e.2.seen == e.2.far)).foldl (fun d e =>
    modCell d e.1 fun x => { x with seen := x.hold, far := x.seen }) d

/-- A wing's clock, and what its edge brings. DESIGN CHOICE (log entry 1). -/
def wingEdge (d : Dev) (w : Nat) : Res Dev :=
  if 1 < (wingOf d w).left then .ok (wingTick d w)
  else do
    let d ← issueWing d w
    settleWing (seeCounters (wingTick d w) w) w

/-- R428, R460, R517: in a wall tick each link that is up corrects a number of errors that the specification leaves open, and its CORR counts them.
DESIGN CHOICE (log entry 43). -/
def linkErrors (d : Dev) : Dev :=
  let d := (upPorts d).foldl (fun d p =>
    let w := drawWord d
    putRgf w.2 (fabPort p) 15 0 (satAdd 16 (rgf d (fabPort p) 15 0) w.1.toNat)) d
  if hostUp d then
    let w := drawWord d
    putRgf w.2 0x20_1000 47 32 (satAdd 16 (rgf d 0x20_1000 47 32) w.1.toNat)
  else d

/-- One root cycle: in every 84th a wall tick, at whose end overdue waits overrun, and the clocks of the wings, unless their edges have stopped; the fabric ports
start what they may (R437), and host accesses that wait move when their slots have come (R466). DESIGN CHOICE (log entry 1). -/
def rootTick (d : Dev) : Res Dev :=
  if !live d then .ok d
  else do
    let d := if (d.root + 1) % 84 = 0 then overrunSweep d else d
    let d := { d with root := d.root + 1 }
    let d := portsTick (if d.root % 84 = 0 then linkErrors (wallTick d) else d)
    let d ← if d.root % 84 = 0 then retryAccesses d else .ok d
    if halted d then .ok d else (List.range 4).foldlM wingEdge d

/-! ### Droop stretch (R568–R570) -/

/-- DROOP_TRIP (R568): the detector of gallery `g` trips, or is clear again. DEDUCED (log entry 27). -/
def droopTrip (d : Dev) (g : Nat) (tripped : Bool) : Dev :=
  let w := g / 12
  let x := wingOf d w
  let others := x.tripped.filter (· != g)
  if tripped then
    if x.tripped.contains g then d else
    let s := wingStretch d x
    let d := putRgf d (clkStr w) 55 48 (satAdd 8 (rgf d (clkStr w) 55 48) 1)
    putWing d w { x with tripped := others ++ [g], stretch := cdiv d / 2, prev := s, from_ := d.root + 3, decay := false }
  else putWing d w { x with tripped := others }

/-- STRETCH_DECAY (R570): one root cycle less, once for each edge. DEDUCED (log entry 27). -/
def stretchDecay (d : Dev) (w : Nat) : Dev :=
  let x := wingOf d w
  if x.tripped.isEmpty && x.decay then putWing d w { x with stretch := x.stretch - 1, decay := false } else d

/-! ### Alerts (R579) -/

/-- THM_DIE[d]. -/
def thmDie (k : Nat) : Nat := 0x80_0300 + 8 * k

/-- A 16-bit field as a signed number. -/
def s16 (n : Nat) : Int := if n < 2 ^ 15 then n else (n : Int) - 2 ^ 16

/-- TNOW of a die, in 1/16 degree. -/
def tnow (d : Dev) (k : Nat) : Int := s16 (rgf d (thmDie k) 15 0)

/-- The hottest die, the lowest of several. DEDUCED (log entry 27). -/
def hottest (d : Dev) : Nat := (List.range 5).foldl (fun b k => if tnow d b < tnow d k then k else b) 0

/-- The ALERT event. -/
def alertEvent (d : Dev) (kind : Nat) (arg1 : W64) : Dev := postEvent d 7 (w64 kind) arg1

/-- SUPPLY_ALERT_N is asserted. -/
def supplyAlertOn (d : Dev) : Dev :=
  if d.pwr.supplyAlert then d else alertEvent { d with pwr := { d.pwr with supplyAlert := true } } 1 (rg d 0x80_0110)

/-- SUPPLY_ALERT_N is released. -/
def supplyAlertOff (d : Dev) : Dev :=
  if d.pwr.supplyAlert then alertEvent { d with pwr := { d.pwr with supplyAlert := false } } 2 (rg d 0x80_0110) else d

/-- THERM_ALERT_N is asserted. -/
def thermAlertOn (d : Dev) : Dev :=
  if d.pwr.thermAlert then d else alertEvent { d with pwr := { d.pwr with thermAlert := true } } 3 (rg d (thmDie (hottest d)))

/-- THERM_ALERT_N is released. -/
def thermAlertOff (d : Dev) : Dev :=
  if d.pwr.thermAlert then alertEvent { d with pwr := { d.pwr with thermAlert := false } } 4 (rg d (thmDie (hottest d))) else d

/-! ### The orderly freeze (R574, R575) -/

/-- PWR_STAT. -/
def pwrStat : Nat := 0x80_0118

/-- DETAIL of KIND 9 (R580): VIN, PIN, and the die of SUB 4 and 5. -/
def supplyDetail (d : Dev) (die : Nat) : W64 := w64 (die * 2 ^ 32 + rgf d 0x80_0110 47 32 * 2 ^ 16 + rgf d 0x80_0110 15 0)

/-- R574: an orderly freeze of KIND 9 (supply) or 10 (thermal) starts: the fault, the freeze bit, the alert, and every docent stops at its next bundle boundary. -/
def freezeStart (d : Dev) (kind sub : Nat) (detail : W64) : Dev :=
  let d := raise d { kind := kind, sub := sub, port := 0, bundle := none, addr := 0, detail := detail, cell := none, abandons := true }
  let d := if kind = 9 then supplyAlertOn (putRgf d pwrStat 0 0 1) else thermAlertOn (putRgf d pwrStat 1 1 1)
  let d := (List.range nCells).foldl (fun d c => if (cellOf d c).running then stopDocent d c else d) d
  { d with pwr := { d.pwr with freeze := some (d.pwr.freeze.getD (ticks d)) } }

/-- FREEZE_EDGES_STOP (R574): issued operations have completed, and the compute dies receive no further edges. -/
def edgesStop (d : Dev) : Res Dev :=
  if d.pwr.freeze.isNone || d.pwr.stopped then .ok d
  else do
    let s ← d.cells.foldlM (fun d e => settleNow d e.1) d
    if s.cells.all fun e => e.2.due.isEmpty || e.2.frozen.isSome then
      pure { s with pwr := { s.pwr with stopped := true, stopWt := ticks s } }
    else pure s

/-- Has a state held since `t` for 1,000,000 wt? -/
def held10ms (d : Dev) (t : Option Nat) : Bool := match t with | some t => decide (t + 1000000 ≤ ticks d) | none => false

/-- FREEZE_LIFT (R575): the freezes in force lift together, once each one's condition has held for 10 ms. DEDUCED (log entry 27). -/
def freezeLift (d : Dev) : Dev :=
  let sfrz := rgf d pwrStat 0 0 == 1
  let tfrz := rgf d pwrStat 1 1 == 1
  if !d.pwr.stopped || d.pwr.lost || (sfrz && !held10ms d d.pwr.good) || (tfrz && !held10ms d d.pwr.cool) then d
  else
    let gone := ticks d - d.pwr.stopWt
    let d := { putRgf d pwrStat 1 0 0 with pwr := { d.pwr with freeze := none, stopped := false } }
    let d := if sfrz then supplyAlertOff d else d
    let d := if tfrz then thermAlertOff d else d
    let d := alertEvent d 6 (rg d pwrStat)
    (List.range nCells).foldl (fun d c => if (cellOf d c).traceOn then gapRec d c (if tfrz then 4 else 3) gone else d) d

/-! ### The 54 V input (R573, R578) -/

/-- The band of an input voltage in mV: 0 below 40 V, 1 below 44 V, 2 to 58 V, 3 to 64 V, 4 above. DEDUCED (log entry 27). -/
def bandOf (mV : Nat) : Nat := if mV < 40000 then 0 else if mV < 44000 then 1 else if mV ≤ 58000 then 2 else if mV ≤ 64000 then 3 else 4

/-- SUP_STAT: an entry into a band counts. -/
def countBand (d : Dev) (hi lo : Nat) : Dev := putRgf d 0x80_0200 hi lo (satAdd 16 (rgf d 0x80_0200 hi lo) 1)

/-- SUPPLY_VOLTAGE_CHANGE (R573): the input is at `mV` and draws `pin` W. DESIGN CHOICE (log entry 8). -/
def supplyChange (d : Dev) (mV pin : Nat) : Dev :=
  let b := bandOf mV
  let old := d.pwr.band
  let good := if 45000 ≤ mV ∧ mV ≤ 58000 then some (d.pwr.good.getD (ticks d)) else none
  let d := { d with pwr := { d.pwr with band := b, bandWt := if b = old then d.pwr.bandWt else ticks d, good := good } }
  if !d.pwr.on then d
  else
    let d := putRgf (putRgf d 0x80_0110 15 0 (mV / 10)) 0x80_0110 47 32 pin
    if b = old then d
    else if b = 0 then freezeStart (countBand d 47 32) 9 2 (supplyDetail d 0)
    else if b = 1 then countBand d 63 48
    else if b = 4 then let d := countBand d 31 16; alertEvent d 5 (rg d 0x80_0110)
    else d

/-- SUPPLY_BAND_EXPIRY (R573): the input has been between 40 and 44 V for 1 ms, or between 58 and 64 V for 10 ms.
DEDUCED (log entry 27). DESIGN CHOICE (log entry 33). -/
def bandExpiry (d : Dev) : Dev :=
  if rgf d pwrStat 0 0 = 1 then d
  else if d.pwr.band = 1 ∧ d.pwr.bandWt + 100000 ≤ ticks d then freezeStart d 9 1 (supplyDetail d 0)
  else if d.pwr.band = 3 ∧ d.pwr.bandWt + 1000000 ≤ ticks d then freezeStart d 9 3 (supplyDetail d 0)
  else d

/-- RAIL_OUT_OF_REGULATION (R573). -/
def railLost (d : Dev) (die : Nat) : Dev := freezeStart d 9 4 (supplyDetail d die)

/-- PLL_LOCK_LOSS (R564): the freeze lifts only at cold reset. -/
def lockLost (d : Dev) (die : Nat) : Dev :=
  let d := freezeStart d 9 5 (supplyDetail d die)
  { d with pwr := { d.pwr with lost := true } }

/-! ### Shutdown, power-on and MOD_RST_N (R576, R577, R588, R590, R632) -/

/-- R576, R590: without power every state but flash and fuses is lost; what lies outside the module stays. -/
def powerOff (d : Dev) : Dev :=
  let c := coldOf d
  { c with pwr := { c.pwr with on := false }, sec := { c.sec with addr := none, tap := coldDev.sec.tap } }

/-- SHUTDOWN (R573): the input has been below 40 V for 50 µs. DESIGN CHOICE (log entry 33). -/
def shutdown (d : Dev) : Dev := if d.pwr.band = 0 ∧ d.pwr.bandWt + 5000 ≤ ticks d then powerOff d else d

/-- POWER_ON (R577): the power stage starts at 44 V or more and asserts MOD_PWROK; a cold reset starts if MOD_RST_N is high. -/
def powerOn (d : Dev) : Dev :=
  if d.pwr.on || decide (d.pwr.band < 2) then d
  else let c := coldOf d; { c with pwr := { c.pwr with on := true } }

/-- An instruction that acts only while MOD_RST_N is low (R632). -/
def tapHolds (o : TapOp) : Bool := o == .extest || o == .highz || o == .clamp

/-- The TAP's instructions once MOD_RST_N rises. PRESUMED (log entry 18). -/
def tapRise (l : List TapOp) : List TapOp := l.map fun o => if tapHolds o then .bypass else o

/-- COLD_RESET (R522, R577): MOD_RST_N is released. DESIGN CHOICE (log entry 33). -/
def coldReset (d : Dev) : Dev :=
  if !d.pwr.on || d.pwr.rstN then d
  else
    let c := coldOf d
    { c with pwr := { c.pwr with rstN := true }, sec := { c.sec with tap := tapRise c.sec.tap } }

/-- MOD_RST_N_ASSERT (R577). DESIGN CHOICE (log entry 33). -/
def assertReset (d : Dev) : Dev := if d.pwr.on && d.pwr.rstN then { d with pwr := { d.pwr with rstN := false } } else d

/-! ### The power controller (R584, R585, R587) -/

/-- The in-map galleries. -/
def mapGals (d : Dev) : List Nat := (List.range 48).filter fun g => portUp d (galleryPort g)

/-- The first `n` in-map galleries of `count` from number `base`, in order, starting at `r` and wrapping. -/
def rotate (d : Dev) (base count r n : Nat) : List Nat :=
  (((List.range count).map fun i => base + (r + i) % count).filter fun g => portUp d (galleryPort g)).take n

/-- The number after the last gallery chosen; `r` when none is. -/
def nextStart (chosen : List Nat) (base count r : Nat) : Nat := match chosen.getLast? with | some g => (g - base + 1) % count | none => r

/-- R584: the number of galleries gated by the cap. -/
def capGates (d : Dev) (p1 p10 : Nat) : Nat :=
  let g := rgf d pwrStat 47 40
  let cap := rgf d 0x80_0100 63 48
  if cap < p1 ∨ rgf d 0x80_0108 63 48 < p10 then min (g + rgf d 0x80_0100 47 40) ((mapGals d).length - 1)
  else if p1 * 20 < cap * 19 then g - 1
  else g

/-- R587: the number of galleries of wing `w` gated by thermal throttling. -/
def thermGates (d : Dev) (w : Nat) : Nat :=
  let tg := rgf d (thmDie w) 23 16
  if 1600 ≤ tnow d w then min (tg + 2) 11 else if tnow d w < 1568 then tg - 1 else tg

/-- Throttling of a wing at a boundary: TG, its rotation, its galleries, and the ALERT event when it begins or ends. -/
def throttle (d : Dev) (w : Nat) : Dev :=
  let old := rgf d (thmDie w) 23 16
  let n := thermGates d w
  let r := tabGet (fun _ => 0) d.pwr.tr w
  let chosen := rotate d (12 * w) 12 r n
  let d := putRgf d (thmDie w) 23 16 n
  let d := { d with pwr := { d.pwr with tgated := d.pwr.tgated ++ chosen, tr := tabPut (fun _ => 0) d.pwr.tr w (nextStart chosen (12 * w) 12 r) } }
  if old = 0 ∧ n ≠ 0 then alertEvent d 7 (rg d (thmDie w)) else if old ≠ 0 ∧ n = 0 then alertEvent d 8 (rg d (thmDie w)) else d

/-- R585: a cell of a gated gallery is held from its next bundle boundary: at once when its docent issues nothing. -/
def gateCell (d : Dev) (c : Nat) : Dev :=
  let x := cellOf d c
  let e := cellEdge d c
  if !portUp d (cellPort c) || x.gatedNow then d
  else if x.running then modCell d c fun y => { y with gatedNow := true, gateWt := if y.frozen.isSome then ticks d else y.gateWt }
  else modCell d c fun y => { y with gatedNow := true, frozen := some e, gateWt := ticks d }

/-- R585, R537, R539: a cell's gating ends; it receives edges again unless it is held, and its GAP record names the cause and the wall ticks of the gating in
which CYC stood still. -/
def ungateCell (d : Dev) (c cause : Nat) : Dev :=
  let x := cellOf d c
  if !x.gatedNow then d
  else
    let d := modCell d c fun y => { y with gatedNow := false }
    if x.frozen.isNone then d
    else
      let d := if x.traceOn then gapRec d c cause (ticks d - x.gateWt) else d
      if awaits x then d else thawCell d c

/-- The cells of a gallery. -/
def galleryCells (g : Nat) : List Nat := (List.range 8).map (8 * g + ·)

/-- POWER_QUANTUM (R584, R585, R587): at a wall tick that is a multiple of QUANT, once: the galleries gated in the quantum that ended resume, unless they are gated again. -/
def powerQuantum (d : Dev) (p1 p10 : Nat) : Dev :=
  let q := rgf d 0x80_0100 31 0
  if q = 0 ∨ d.wt % q ≠ 0 ∨ d.pwr.quantum = some d.wt then d
  else
    let was := (List.range 48).filter fun g => d.pwr.gated.contains g || d.pwr.tgated.contains g
    let thermal := d.pwr.tgated
    let n := capGates d p1 p10
    let chosen := rotate d 0 48 d.pwr.r n
    let d := putRgf d pwrStat 47 40 n
    let d := { d with pwr := { d.pwr with quantum := some d.wt, gated := chosen, tgated := [], r := nextStart chosen 0 48 d.pwr.r } }
    let d := (List.range 4).foldl throttle d
    let now := (List.range 48).filter fun g => d.pwr.gated.contains g || d.pwr.tgated.contains g
    let d := (was.filter fun g => !now.contains g).foldl (fun d g =>
      (galleryCells g).foldl (fun d c => ungateCell d c (if thermal.contains g then 2 else 1)) d) d
    now.foldl (fun d g => (galleryCells g).foldl gateCell d) d

/-! ### Junction sensors (R586, R588) -/

/-- The readings of a die: 16 sensors of a compute die, 8 of the I/O die. -/
def dieReadings (l : List Int) (k : Nat) : List Int := (l.drop (16 * k)).take (if k = 4 then 8 else 16)

/-- The highest of several readings. -/
def maxReading (l : List Int) : Int := l.foldl max (l.headD 0)

/-- A signed number as a 16-bit field. -/
def to16 (x : Int) : Nat := (x % 2 ^ 16).toNat

/-- THM_DIE takes the readings of a die in. DEDUCED (log entry 27). -/
def readDie (first : Bool) (l : List Int) (d : Dev) (k : Nat) : Dev :=
  let t := maxReading (dieReadings l k)
  let m := if first then t else max t (s16 (rgf d (thmDie k) 47 32))
  putRgf (putRgf d (thmDie k) 15 0 (to16 t)) (thmDie k) 47 32 (to16 m)

/-- The first sensor at 110 °C or more: its die, number and reading. DEDUCED (log entry 27). -/
def hotSensor (l : List Int) : Option (Nat × Nat × Int) :=
  (l.zipIdx.find? fun p => decide (1760 ≤ p.1)).map fun p => (p.2 / 16, p.2 % 16, p.1)

/-- THERMAL_SENSOR_READ (R586, R579, R588): 72 readings, by die and sensor. DESIGN CHOICE (log entry 8). -/
def sensorRead (d : Dev) (l : List Int) : Dev :=
  let top := maxReading l
  let d := (List.range 5).foldl (readDie (!d.pwr.sensed) l) d
  let d := { d with pwr := { d.pwr with sensed := true, cool := if top < 1520 then some (d.pwr.cool.getD (ticks d)) else none } }
  let d := if 1600 ≤ top then thermAlertOn d else if rgf d pwrStat 1 1 = 1 then d else thermAlertOff d
  match hotSensor l with
  | some (die, sensor, t) =>
    if rgf d pwrStat 1 1 = 1 then d
    else freezeStart d 10 (if die = 4 then 2 else 1) (w64 (sensor * 2 ^ 20 + die * 2 ^ 16 + to16 t))
  | none => d

end Sys2Proof.Machine
end

