-- ==== Sys2Proof/Machine/Security.lean ====
section
/-! DEFINITION. Security commands, the management bus, the flash mailbox and boundary scan (19_security_life_cycle.md, R599–R613; 20_module_and_connectors.md,
R624–R634). -/
namespace Sys2Proof.Machine

/-! ### Commands of SEC_CMD (R604, R605) -/

/-- The security command that runs. DESIGN CHOICE (log entry 15). -/
def secRuns (d : Dev) (op : Nat) : Bool := d.sec.cmd == some op

/-- A command ends: RESULT is written and BUSY falls. DESIGN CHOICE (log entry 15). -/
def secEnd (d : Dev) (result : Nat) : Dev :=
  { putRgf (putRgf d 0xC0_0000 63 56 result) 0xC0_0000 1 1 0 with sec := { d.sec with cmd := none } }

/-- R605, code 0x06: is the device not idle? -/
def notIdle (d : Dev) : Bool :=
  stState d != 0 || accPending d || d.sec.upd.isSome || inReset d || d.ports.any (fun p => p.2.wiping) || d.dump.isSome || rgf d 0x305_0008 1 0 == 1

/-! ### Attestation (R600–R603) -/

/-- SEC_STAT.DBG. -/
def dbg (d : Dev) : Nat := rgf d 0xC0_0000 3 3

/-- The report but for its signature: bytes 0x000–0x187. -/
def reportBody (d : Dev) : List Byte :=
  let f := d.sec.fuses
  let fw := (rg d 0xC0_0010).toNat
  leBytes 4 0x5454_414B ++ leBytes 2 1 ++ leBytes 1 f.lcs ++ leBytes 1 (dbg d + 2 * b2n f.okey.isSome + 4 * rgf d 0xC0_0000 8 8)
    ++ leBytes 8 (devId d) ++ leBytes 4 (fld fw 31 0) ++ leBytes 2 (fld fw 47 32) ++ leBytes 2 f.fwsvn ++ leBytes 1 (rgf d 0x10_1000 1 0)
    ++ List.replicate 7 0 ++ leBytes 8 (rg d 0x10_1008).toNat ++ leBytes 8 (almId d).toNat ++ leBytes 8 d.wt ++ leBytes 2 f.unlk
    ++ List.replicate 6 0 ++ regBytes d 0xC0_0100 8 ++ sha512 (leBytes 128 d.actMap.toNat) ++ regBytes d 0xC0_0080 8
    ++ (f.dpub.getD (List.replicate 133 0)) ++ List.replicate 3 0

/-- May a report go to an address (R601, R304)?. DESIGN CHOICE (log entry 15). -/
def reportFits (d : Dev) (a : Nat) : Bool :=
  match place d a, place d (a + 523) with
  | .hbm _, .hbm _ => true
  | .depot _, .depot _ => true
  | .host _, .host _ => true
  | _, _ => false

/-- ATTEST (R601, R603): the report is signed and placed. DESIGN CHOICE (log entry 15). -/
def attest (d : Dev) : Dev :=
  if !secRuns d 1 then d
  else
    let a := rgf d 0xC0_0020 47 6 * 64
    if lcs d = 0 then secEnd d 2
    else if lcs d ≠ 4 ∧ !reportFits d a then secEnd d 7
    else
      let body := reportBody d
      let s := deviceSign d (sha512 body)
      let rep := body ++ s.1
      let d := putBytes s.2 0xC0_1200 (rep ++ List.replicate 4 0)
      let d := if lcs d = 4 then d else if hostBase ≤ a then hostWrite d a rep else engWrite d a rep
      secEnd d 0

/-! ### Tokens (R607) -/

/-- The token buffer. -/
def token (d : Dev) : List Byte := regBytes d 0xC0_1000 34

/-- ARG of the token. -/
def tokenArg (t : List Byte) : Nat := leAt t 8 4

/-- R605, codes 0x03 to 0x06, in their order: what refuses the token. DESIGN CHOICE (log entry 15). -/
def tokenFails (d : Dev) (kind : Nat) (argOk : Bool) (key : Option (List Byte)) : Option Nat :=
  let t := token d
  if leAt t 0 4 ≠ 0x4E4B_5453 ∨ leAt t 4 2 ≠ 1 ∨ leAt t 6 2 ≠ kind ∨ !argOk then some 3
  else if !(match key with | some k => ecdsaVerify k (sha512 (t.take 0x88)) ((t.drop 0x88).take 132) | none => false) then some 4
  else if leAt t 0x10 8 ≠ devId d ∨ (t.drop 0x20).take 32 ≠ regBytes d 0xC0_0040 4 then some 5
  else none

/-! ### Life-cycle transitions (R608, R609) -/

/-- R608: the key that signs a transition by OP 2, for the pairs that the table allows; the state numbers count LCS bits. -/
def transitionKey (d : Dev) (target : Nat) : Option (Option (List Byte)) :=
  match lcs d, target with
  | 1, 2 => some (vendorKey d)
  | 2, 3 => some d.sec.fuses.okey
  | 2, 4 => some d.sec.fuses.okey
  | 3, 4 => some (vendorKey d)
  | _, _ => none

/-- A change of the fuses. -/
def setFuses (d : Dev) (f : Fuses) : Dev := showFuses { d with sec := { d.sec with fuses := f } }

/-- R609: the accepted transition: fuses, owner sections, RESULT, and the cold reset of the module. DESIGN CHOICE (log entries 8, 15). -/
def doTransition (d : Dev) (target burnt : Nat) : Dev :=
  let f := d.sec.fuses
  let okey := ((token d).drop 0x40).take 67
  if target = 2 then
    if f.okey.any (· != okey) then newChallenge (secEnd d 8)
    else
      let d := if 1 ≤ burnt then setFuses d { f with okey := some okey } else d
      if 2 ≤ burnt then coldOf (secEnd (setFuses d { d.sec.fuses with lcs := 2 }) 0) else newChallenge (secEnd d 8)
  else
    let need := target - f.lcs
    let d := setFuses d { f with lcs := f.lcs + min burnt need }
    if need ≤ burnt then coldOf (secEnd (clearOwner d) 0) else newChallenge (secEnd d 8)

/-- TRANSITION (R608, R609, R606): OP 2 ends; `burnt` of its fuse steps (OKEY, then each LCS bit) read back blown. -/
def transition (d : Dev) (burnt : Nat) : Dev :=
  if !secRuns d 2 then d
  else
    let target := rgf d 0xC0_0018 7 4
    match transitionKey d target with
    | none => newChallenge (secEnd d 2)
    | some key =>
      match tokenFails d 1 (tokenArg (token d) == target) key with
      | some r => newChallenge (secEnd d r)
      | none => if notIdle d then newChallenge (secEnd d 6) else doTransition d target burnt

/-- PROVISION (R599, R608, R609): OP 4 ends: the device key pair; `burnt` of the steps DKEY, DPUB, LCS bit 0 read back blown.
DESIGN CHOICE (log entries 8, 15). -/
def provision (d : Dev) (burnt : Nat) : Dev :=
  if !secRuns d 4 then d
  else if lcs d ≠ 0 then secEnd d 2
  else if notIdle d then secEnd d 6
  else
    let k := match d.sec.fuses.dkey with | some b => (beNat b, d) | none => drawScalar d
    let d := k.2
    let d := if 1 ≤ burnt then setFuses d { d.sec.fuses with dkey := some (beBytes 66 k.1) } else d
    let d := if 2 ≤ burnt then setFuses d { d.sec.fuses with dpub := some (ecPublic k.1) } else d
    if 3 ≤ burnt then coldOf (secEnd (setFuses d { d.sec.fuses with lcs := 1 }) 0) else secEnd d 8

/-! ### Debug unlock (R612, R613) -/

/-- R612: is the unlock refused in this state? NODBG is that of the copy selected at the last cold reset (R512). -/
def unlockRefused (d : Dev) : Bool :=
  lcs d == 4 || decide (32 ≤ d.sec.fuses.unlk) || (lcs d == 2 && bitAt d.sec.flags 0)

/-- R612: what refuses the token; none is needed in BLANK. DESIGN CHOICE (log entry 15). -/
def unlockFails (d : Dev) : Option Nat :=
  let argOk := decide (tokenArg (token d) < 8)
  if lcs d = 0 then (if argOk then none else some 3)
  else tokenFails d 2 argOk (if lcs d = 2 then d.sec.fuses.okey else vendorKey d)

/-- DEBUG_UNLOCK (R613, R606): OP 3 ends: one UNLK bit, a compute reset, DBG and the scopes. DESIGN CHOICE (log entry 15). -/
def debugUnlock (d : Dev) (burnt : Bool) : Dev :=
  if !secRuns d 3 then d
  else if unlockRefused d then newChallenge (secEnd d 2)
  else match unlockFails d with
  | some r => newChallenge (secEnd d r)
  | none =>
    if notIdle d then newChallenge (secEnd d 6)
    else if !burnt then newChallenge (secEnd d 8)
    else
      let d := setFuses d { d.sec.fuses with unlk := d.sec.fuses.unlk + 1 }
      let scopes := tokenArg (token d)
      let d := putRgf (startReset d 1) 0xC0_0000 3 3 1
      newChallenge (secEnd { d with sec := { d.sec with scopes := scopes } } 0)

/-! ### Management bus (R624, R625) -/

/-- R625, R611: does a write of the management bus at an offset reach a register?. DESIGN CHOICE (log entry 15). -/
def mgmtServes (d : Dev) (off : Nat) (v : W64) : Bool :=
  if bootFail d then decide (0xC0_2000 ≤ off ∧ off < 0xC0_2200)
  else if lcs d = 4 then
    (decide (0xC0_0080 ≤ off ∧ off < 0xC0_00C0) || off == 0xC0_0020 || (off == 0xC0_0018 && fld v.toNat 3 0 == 1))
  else decide (0xC0_0000 ≤ off ∧ off < 0xC0_2200)

/-- One register of a write transaction. -/
def mgmtReg (d : Dev) (off : Nat) (v : W64) : Res Dev := if mgmtServes d off v then busReg d off v else .ok d

/-- R625, R611: what the management bus shows at an offset: 0 where it serves nothing. The table has no row for a read transaction, and a read changes nothing.
DESIGN CHOICE (log entry 15). -/
def mgmtRead (d : Dev) (off : Nat) : W64 :=
  let box := decide (0xC0_2000 ≤ off ∧ off < 0xC0_2200)
  let report := decide (0xC0_1200 ≤ off ∧ off < 0xC0_1410)
  let serves :=
    if bootFail d then off == 0 || box
    else if lcs d = 4 then report || off == 0xC0_0000 || off == 0xC0_0018 || off == 0xC0_0020 || decide (0xC0_0080 ≤ off ∧ off < 0xC0_00C0)
    else off == 0 || decide (0x80_0000 ≤ off ∧ off < 0x80_0400) || decide (0xC0_0000 ≤ off ∧ off < 0xC0_2000) || box
  if serves then (regValue d off).getD 0 else 0

/-- MGMT_BUS_WRITE (R625): whole registers; an incomplete one is discarded. -/
def mgmtWrite (d : Dev) (off : Nat) (bs : List Byte) : Res Dev :=
  (List.range (bs.length / 8)).foldlM (fun d k => mgmtReg d (off + 8 * k) (w64 (leNat ((bs.drop (8 * k)).take 8)))) d

/-! ### Flash mailbox (R627, R628, R634) -/

/-- MB_FCTL written with an operation, on the host link or the management bus. -/
def mailboxWrite (d : Dev) (op : Nat) (bus : Bool) : Res Dev :=
  if bus then mgmtWrite d 0xC0_2000 (leBytes 8 op) else linkWrite d 0xC0_2000 (w64 op)

/-- A page is programmed; a page that was not erased has unspecified contents. -/
def programPage (d : Dev) (a : Nat) : Dev :=
  if (flashRead d a 256).all (· == 0xFF) then flashWrite d a (regBytes d 0xC0_2100 32) else flashUnspec d a 256

/-- What a mailbox operation does to the flash and MB_FBUF; after a flash error the bytes it was to write are unspecified.
DESIGN CHOICE (log entry 16). -/
def mailboxEffect (d : Dev) (op : Nat) (ok : Bool) : Dev :=
  if op = 3 then
    (if ok then putBytes d 0xC0_2100 (flashRead d (mbAddr d) 256)
     else let r := drawBytes 256 d; putBytes r.2 0xC0_2100 r.1)
  else if !ok then flashUnspec d (mbRange d op).1 (mbRange d op).2
  else if op = 1 then flashErase d (mbAddr d)
  else programPage d (mbAddr d)

/-- FLASH_OPERATION_DONE (R628, R634): an operation that arrived during a ledger update waits for the update's end. -/
def mailboxDone (d : Dev) (ok : Bool) : Dev :=
  match d.sec.mbox with
  | none => d
  | some (op, behind) =>
    if behind && d.sec.upd.isSome then d
    else
      let r := match mbRefused d op with | some r => r | none => if ok then 0 else 3
      let d := if mbRefused d op = none then mailboxEffect d op ok else d
      putRgf (putRgf { d with sec := { d.sec with mbox := none } } 0xC0_2000 15 8 r) 0xC0_2000 7 7 0

/-- LEDGER_UPDATE_DONE waits while a mailbox operation that came first runs (R634). -/
def updateWaits (d : Dev) : Bool := d.sec.mbox.any fun m => !m.2

/-! ### Boundary scan (R631–R633) -/

/-- The instruction that a die acts under once `o` is loaded: EXTEST, HIGHZ and CLAMP only while MOD_RST_N is low, further instructions only with scope 0 open; else
BYPASS. PRESUMED (log entry 18). -/
def tapActs (d : Dev) (o : TapOp) : TapOp :=
  match o with
  | .vendor k => if bitAt d.sec.scopes 0 then .vendor k else .bypass
  | o => if tapHolds o && d.pwr.rstN then .bypass else o

/-- R631: the IDCODE of a die, 0 for the I/O die and 1 to 4 for the wings, at a silicon revision. -/
def idcodeAt (rev : BitVec 8) (die : Nat) : BitVec 32 := BitVec.ofNat 32 (rev.toNat % 16 * 2 ^ 28 + (0xB390 + die) * 2 ^ 12 + 0x0D1)

/-- TAP_INSTRUCTION (R632). PRESUMED (log entry 18). -/
def tapLoad (d : Dev) (die : Nat) (o : TapOp) : Dev :=
  if d.pwr.on then { d with sec := { d.sec with tap := d.sec.tap.set die (tapActs d o) } } else d

/-- TAP_RESET (R631): every die selects IDCODE. PRESUMED (log entry 18). -/
def tapClear (d : Dev) : Dev := { d with sec := { d.sec with tap := List.replicate 5 .idcode } }

/-- DYNAMIC_ADDRESS_ASSIGN (R624). -/
def assignAddress (d : Dev) (a : Nat) : Dev := if d.pwr.on then { d with sec := { d.sec with addr := some a } } else d

end Sys2Proof.Machine
end

