-- ==== Sys2Proof/WellFormed.lean ====
section
/-! DEFINITION. Well-formed commands: the numbers of cells, galleries, ports, rings and the like that a command names exist (R13, R23, R24, R466, R467),
and a message has the class that its command names (R436, R437). -/
namespace Sys2Proof

/-- The number of a cell (R13). -/
def okCell (c : Nat) : Bool := decide (c < 384)
/-- The number of a gallery (R13). -/
def okGallery (g : Nat) : Bool := decide (g < 48)
/-- A unit-port index (R23). -/
def okPort (p : Nat) : Bool := decide (p < 1024)
/-- A fabric port (R426). -/
def okFab (p : Nat) : Bool := decide (p < 12)
/-- The offset of a register in the control window (R467). -/
def okReg (o : Nat) : Bool := decide (o < 0x400_0000) && o % 8 == 0
/-- A die: wings 0 to 3, I/O die 4. -/
def okDie (k : Nat) : Bool := decide (k < 5)

/-- A fabric message whose envelope fields fit, with a payload of at most 4,144 bytes (R436). -/
def okMsg (m : FabMsg) : Bool :=
  decide (m.cls < 16) && decide (m.dst < 64) && decide (m.src < 64) && decide (m.hops < 16) && decide (m.kind < 16) && decide (m.body.length ≤ 4144)
/-- A message of a class and KIND (R437, R441, R444, R446, R449, R458, R479). -/
def okKind (m : FabMsg) (cls kind : Nat) : Bool := okMsg m && m.cls == cls && m.kind == kind

/-- Is the command well-formed? -/
def Instr.wf : Instr → Bool
  | .registerWrite off _ => okReg off
  | .unitPortNop p => okPort p
  | .start p => okPort p
  | .stop p => okPort p
  | .hset p => okPort p
  | .hinc p => okPort p
  | .hwait p => okPort p
  | .unitPortReset p => okPort p
  | .fclr p => okPort p
  | .unitPortPush p _ => okPort p
  | .commandFanOut p => okPort p
  | .upReset p _ => okPort p
  | .unitResetWipeDone p => okPort p
  | .faultSumClear p _ => okPort p
  | .holdCounterWrite p i _ => okPort p && decide (i < 32)
  | .traceFunnelWrite p _ => okPort p
  | .bundleIssue c => okCell c
  | .plinthReady c => okCell c
  | .fwdPendingStart c => okCell c
  | .backwardBufferReady c k => okCell c && decide (k < 3)
  | .pairScan c => okCell c
  | .bwdPendingStart c => okCell c
  | .dwaccComplete c => okCell c
  | .vsolveComplete c => okCell c
  | .holdOverrun c => okCell c
  | .dmaTake g => okGallery g
  | .dmaPieceTransfer g _ _ => okGallery g
  | .dmaComplete g _ => okGallery g
  | .launch => true
  | .baroScalesReady => true
  | .baroHistWrite _ => true
  | .flip => true
  | .gateOpen => true
  | .commit => true
  | .abandonComplete => true
  | .abandon => true
  | .ringHandover c => okCell c
  | .ringPartialReceive r _ => decide (r < 4)
  | .ringAdd n _ q => decide (n < 65536) && decide (q < 4)
  | .ringDeliver n _ q => decide (n < 65536) && decide (q < 4)
  | .bucketComplete n => decide (n < 65536)
  | .flushMarkerReceive p m => okFab p && (okKind m 1 15 || (okMsg m && m.cls == 2))
  | .maximaFirstPass _ => true
  | .maximaSecondPass _ => true
  | .linkLoss p => okFab p
  | .cableMate p _ => okFab p
  | .routedMessageForward p m => okFab p && okMsg m
  | .fabRingPoll r => decide (r < 49)
  | .fabTransferTake _ => true
  | .fabDataReceive p m => okFab p && okMsg m
  | .fabSourceReadDone _ => true
  | .relayRequestReceive p m => okFab p && okKind m 3 1
  | .relayReplyReceive p m => okFab p && okKind m 3 2
  | .relayTimeout _ => true
  | .wallTickExchange => true
  | .wallTickRequestReceive p m => okFab p && okKind m 4 1
  | .wallTickReplyReceive p m => okFab p && okKind m 4 2
  | .squallReceive p m => okFab p && okMsg m && m.cls == 6
  | .loanAckReceive p m => okFab p && okKind m 5 3
  | .hostLinkLoss => true
  | .hostWindowAccess w _ _ _ => decide (w < 4)
  | .hostAccessTimeout => true
  | .commandRingEnable r _ => decide (r < 4)
  | .doorbell r _ => decide (r < 4)
  | .commandTake => true
  | .progloadComplete _ => true
  | .copyComplete _ => true
  | .eventWrite => true
  | .crateWrite off _ => okReg off
  | .crateDiscard _ => true
  | .conditionCheck => true
  | .accessionApply => true
  | .ledgerUpdate _ => true
  | .ledgerUpdateDone _ => true
  | .faultLogClear _ => true
  | .warmLinksDown => true
  | .wipeComplete => true
  | .warmRetrainDone n => n == 16 || n == 8
  | .coldReset => true
  | .traceSyncPeriodic c => okCell c
  | .traceStreamEnable g _ => okGallery g
  | .traceStream g => okGallery g
  | .counterClear v => v.getLsbD 1
  | .counterFreeze v => !v.getLsbD 1
  | .dumpDone _ => true
  | .powerQuantum p1 p10 => decide (p1 < 2 ^ 32) && decide (p10 < 2 ^ 32)
  | .thermalSensorRead l => l.length == 72 && l.all fun t => decide (-32768 ≤ t) && decide (t < 32768)
  | .thermalShutdown => true
  | .droopTrip g _ => okGallery g
  | .pllLockLoss k => okDie k
  | .supplyVoltageChange mV pin => decide (mV ≤ 80000) && decide (pin < 65536)
  | .supplyBandExpiry => true
  | .freezeEdgesStop => true
  | .freezeLift => true
  | .railOutOfRegulation k => okDie k
  | .shutdown => true
  | .powerOn => true
  | .attest => true
  | .transition _ => true
  | .debugUnlock _ => true
  | .provision _ => true
  | .mgmtBusWrite off _ => decide (off < 2 ^ 32)
  | .flashErase _ => true
  | .flashProgram _ => true
  | .flashRead _ => true
  | .flashOperationDone _ => true
  | .tapInstruction k _ => okDie k
  | .linkTrainingDone p _ peer pport _ => (okFab p || p == 15) && decide (peer < 64) && decide (pport < 12)
  | .bootComplete ms _ => ms.length == 8
  | .forwardedEventReceive p m => okFab p && okKind m 3 3
  | .unknownClassDiscard p m => okFab p && okMsg m
  | .hostLineInvalidate off data => decide (off + data.length ≤ 2 ^ 44)
  | .modRstNAssert => true
  | .tapReset => true
  | .stretchDecay w => decide (w < 4)
  | .dynamicAddressAssign a => decide (a < 128)
  | .converterDone c => okCell c
  | .drainPathDone c => okCell c
  | .dwPathDone c => okCell c
  | .transcendentalPipeFree c => okCell c

end Sys2Proof
end

