-- ==== Sys2Proof/Machine/Act.lean ====
section
/-! DEFINITION. How a command acts: on a device in which its event can happen; elsewhere nothing happens. The faults that it raises are taken up at its end (R515, R518). -/
namespace Sys2Proof.Machine

/-- What a command's effect on the device makes of the machine. -/
def lift (s : State) (r : Res Dev) : Host.Outcome State Fault Refusal :=
  match r with
  | .ok d => .next { s with dev := takeFaults d }
  | .error e => .fault e

/-- A command `c` that can occur while `can` holds, with its effect `f`. DESIGN CHOICE (log entry 2). -/
def happen (c : Instr) (can : Dev → Bool) (f : Dev → Res Dev) (s : State) : Host.Outcome State Fault Refusal :=
  if c.wf && can s.dev then lift s (f s.dev) else .next s

/-- A host access arrives: the module is powered and out of reset, and its link is up. DESIGN CHOICE (log entry 2). -/
def reached (d : Dev) : Bool := live d && hostUp d

/-- Engines outside the compute dies run: there is power, no reset, and no dump's freeze. DESIGN CHOICE (log entry 2). -/
def running (d : Dev) : Bool := live d && d.dump.isNone

/-- The compute dies run as well. DESIGN CHOICE (log entry 2). -/
def clocked (d : Dev) : Bool := live d && !halted d

/-- A message arrives on a fabric port that is up. DESIGN CHOICE (log entry 2). -/
def arrives (p : Nat) (d : Dev) : Bool := live d && fabUp d p

/-- The event of a cell that `p` picks from what it owes: it happens at its edge, with all that falls due before it. DESIGN CHOICE (log entry 2). -/
def cellEvent (d : Dev) (c : Nat) (p : Micro → Bool) : Res Dev :=
  match (cellOf d c).due.find? fun u => p u.op with
  | some u => if u.edge ≤ cellEdge d c then settle d c u.edge else .ok d
  | none => .ok d

/-- A driver's write of register `off` on the host link. -/
def driverWrite (c : Instr) (off : Nat) (v : W64) (s : State) : Host.Outcome State Fault Refusal :=
  happen c reached (fun d => linkWrite d off v) s

end Sys2Proof.Machine
end

