-- ==== Sys2Proof/Machine/CellCommands.lean ====
section
/-! DEFINITION. The commands of a cell and of its gallery's DMA engine (04_forward_array.md, 05_backward_pair.md, 06_vector_engine.md, 07_docent_isa.md,
08_timing_contract.md, 09_stores_and_almanac.md). -/
namespace Sys2Proof.Machine

/-- Does the device refuse a RESET pushed by a docent (R527)? -/
def pushBarred (d : Dev) : Bool := inReset d

/-- BUNDLE_ISSUE (R240). -/
def execBundleIssue (c : Nat) (s : State) : Host.Outcome State Fault Refusal :=
  happen (.bundleIssue c) clocked (fun d => bundleIssue d c (pushBarred d)) s

/-- PLINTH_READY (R132). -/
def execPlinthReady (c : Nat) (s : State) : Host.Outcome State Fault Refusal :=
  happen (.plinthReady c) clocked (fun d => cellEvent d c fun m => match m with | .ploadDone => true | _ => false) s

/-- FWD_PENDING_START (R137). -/
def execFwdPendingStart (c : Nat) (s : State) : Host.Outcome State Fault Refusal :=
  happen (.fwdPendingStart c) clocked (fun d => cellEvent d c fun m => match m with | .fwdPendStart => true | _ => false) s

/-- BACKWARD_BUFFER_READY (R185, R186): of BLDW, BLDX or BLDY. -/
def execBackwardBufferReady (c which : Nat) (s : State) : Host.Outcome State Fault Refusal :=
  happen (.backwardBufferReady c which) clocked
    (fun d => cellEvent d c fun m => match m with | .bldDone x => which == (if x then 1 else 0) | .bldyDone => which == 2 | _ => false) s

/-- PAIR_SCAN (R188). -/
def execPairScan (c : Nat) (s : State) : Host.Outcome State Fault Refusal :=
  happen (.pairScan c) clocked (fun d => cellEvent d c fun m => match m with | .pairScan => true | _ => false) s

/-- BWD_PENDING_START (R190). -/
def execBwdPendingStart (c : Nat) (s : State) : Host.Outcome State Fault Refusal :=
  happen (.bwdPendingStart c) clocked (fun d => cellEvent d c fun m => match m with | .bwdPendStart => true | _ => false) s

/-- DWACC_COMPLETE (R196). -/
def execDwaccComplete (c : Nat) (s : State) : Host.Outcome State Fault Refusal :=
  happen (.dwaccComplete c) clocked (fun d => dwaccComplete d c) s

/-- VSOLVE_COMPLETE (R231). -/
def execVsolveComplete (c : Nat) (s : State) : Host.Outcome State Fault Refusal :=
  happen (.vsolveComplete c) clocked (fun d => cellEvent d c fun m => match m with | .solveDone _ _ => true | _ => false) s

/-- HOLD_OVERRUN (R285). -/
def execHoldOverrun (c : Nat) (s : State) : Host.Outcome State Fault Refusal :=
  happen (.holdOverrun c) live (fun d => .ok (holdOverrun d c)) s

/-- CONVERTER_DONE (R157). -/
def execConverterDone (c : Nat) (s : State) : Host.Outcome State Fault Refusal :=
  happen (.converterDone c) clocked (fun d => cellEvent d c fun m => match m with | .convDone => true | _ => false) s

/-- DRAIN_PATH_DONE (R192). -/
def execDrainPathDone (c : Nat) (s : State) : Host.Outcome State Fault Refusal :=
  happen (.drainPathDone c) clocked (fun d => cellEvent d c fun m => match m with | .drainDone => true | _ => false) s

/-- DW_PATH_DONE (R194). -/
def execDwPathDone (c : Nat) (s : State) : Host.Outcome State Fault Refusal :=
  happen (.dwPathDone c) clocked (fun d => cellEvent d c fun m => match m with | .dwDone => true | _ => false) s

/-- TRANSCENDENTAL_PIPE_FREE (R211). -/
def execTranscendentalPipeFree (c : Nat) (s : State) : Host.Outcome State Fault Refusal :=
  happen (.transcendentalPipeFree c) clocked (fun d => cellEvent d c fun m => match m with | .transFree => true | _ => false) s

/-- DMA_TAKE (R324). -/
def execDmaTake (g : Nat) (s : State) : Host.Outcome State Fault Refusal := happen (.dmaTake g) clocked (fun d => dmaTake d g) s

/-- DMA_PIECE_TRANSFER (R332). -/
def execDmaPieceTransfer (g k : Nat) (w : Bool) (s : State) : Host.Outcome State Fault Refusal :=
  happen (.dmaPieceTransfer g k w) clocked (fun d => pieceTransfer d g k w) s

/-- DMA_COMPLETE (R325). -/
def execDmaComplete (g k : Nat) (s : State) : Host.Outcome State Fault Refusal :=
  happen (.dmaComplete g k) clocked (fun d => dmaComplete d g k) s

end Sys2Proof.Machine
end

