-- ==== Sys2Proof/Machine/DeviceCommands.lean ====
section
/-! DEFINITION. The commands of faults and resets, observation, clocks, power and supply (16_faults_and_recovery.md, 17_observation.md, 18_clocks_power_supply.md). -/
namespace Sys2Proof.Machine

/-- FAULT_LOG_CLEAR (R519): a write of FLT_CTL. -/
def execFaultLogClear (v : W64) (s : State) : Host.Outcome State Fault Refusal := driverWrite (.faultLogClear v) 0x40_0008 v s

/-- WARM_LINKS_DOWN (R428). -/
def execWarmLinksDown (s : State) : Host.Outcome State Fault Refusal := happen .warmLinksDown live (fun d => .ok (warmLinksDown d)) s

/-- WIPE_COMPLETE (R526). -/
def execWipeComplete (s : State) : Host.Outcome State Fault Refusal := happen .wipeComplete live (fun d => .ok (wipeComplete d)) s

/-- WARM_RETRAIN_DONE (R522). -/
def execWarmRetrainDone (lanes : Nat) (s : State) : Host.Outcome State Fault Refusal :=
  happen (.warmRetrainDone lanes) live (fun d => .ok (warmRetrainDone d lanes)) s

/-- COLD_RESET (R522, R577). -/
def execColdReset (s : State) : Host.Outcome State Fault Refusal := happen .coldReset (fun _ => true) (fun d => .ok (coldReset d)) s

/-- MOD_RST_N_ASSERT (R577). -/
def execModRstNAssert (s : State) : Host.Outcome State Fault Refusal := happen .modRstNAssert (fun _ => true) (fun d => .ok (assertReset d)) s

/-- TRACE_SYNC_PERIODIC (R544). -/
def execTraceSyncPeriodic (c : Nat) (s : State) : Host.Outcome State Fault Refusal :=
  happen (.traceSyncPeriodic c) clocked (fun d => .ok (syncPeriodic d c)) s

/-- TRACE_STREAM_ENABLE (R547): a write of TRC_BASE. -/
def execTraceStreamEnable (g : Nat) (v : W64) (s : State) : Host.Outcome State Fault Refusal :=
  driverWrite (.traceStreamEnable g v) (trcReg g 0) v s

/-- TRACE_STREAM (R548). -/
def execTraceStream (g : Nat) (s : State) : Host.Outcome State Fault Refusal := happen (.traceStream g) clocked (fun d => .ok (traceStream d g)) s

/-- COUNTER_CLEAR (R556): a write of CNT_CTL with CLEAR = 1. -/
def execCounterClear (v : W64) (s : State) : Host.Outcome State Fault Refusal := driverWrite (.counterClear v) 0x307_0008 v s

/-- COUNTER_FREEZE (R556): a write of CNT_CTL with CLEAR = 0. -/
def execCounterFreeze (v : W64) (s : State) : Host.Outcome State Fault Refusal := driverWrite (.counterFreeze v) 0x307_0008 v s

/-- DUMP_DONE (R560): the DUMP command that waits is answered. DESIGN CHOICE (log entry 25). -/
def execDumpDone (ok : Bool) (s : State) : Host.Outcome State Fault Refusal :=
  happen (.dumpDone ok) live (fun d => let r := dumpDone d ok; .ok (endShareOf r.2 r.1 0 0)) s

/-- POWER_QUANTUM (R584). -/
def execPowerQuantum (p1 p10 : Nat) (s : State) : Host.Outcome State Fault Refusal :=
  happen (.powerQuantum p1 p10) live (fun d => .ok (powerQuantum d p1 p10)) s

/-- THERMAL_SENSOR_READ (R586). -/
def execThermalSensorRead (l : List Int) (s : State) : Host.Outcome State Fault Refusal :=
  happen (.thermalSensorRead l) live (fun d => .ok (sensorRead d l)) s

/-- THERMAL_SHUTDOWN (R588). -/
def execThermalShutdown (s : State) : Host.Outcome State Fault Refusal :=
  happen .thermalShutdown (fun d => d.pwr.on) (fun d => .ok (powerOff d)) s

/-- DROOP_TRIP (R568). -/
def execDroopTrip (g : Nat) (tripped : Bool) (s : State) : Host.Outcome State Fault Refusal :=
  happen (.droopTrip g tripped) live (fun d => .ok (droopTrip d g tripped)) s

/-- STRETCH_DECAY (R570). -/
def execStretchDecay (w : Nat) (s : State) : Host.Outcome State Fault Refusal :=
  happen (.stretchDecay w) clocked (fun d => .ok (stretchDecay d w)) s

/-- PLL_LOCK_LOSS (R564). -/
def execPllLockLoss (die : Nat) (s : State) : Host.Outcome State Fault Refusal := happen (.pllLockLoss die) live (fun d => .ok (lockLost d die)) s

/-- SUPPLY_VOLTAGE_CHANGE (R573): the input changes whether or not the module is powered. -/
def execSupplyVoltageChange (mV pin : Nat) (s : State) : Host.Outcome State Fault Refusal :=
  happen (.supplyVoltageChange mV pin) (fun _ => true) (fun d => .ok (supplyChange d mV pin)) s

/-- SUPPLY_BAND_EXPIRY (R573). -/
def execSupplyBandExpiry (s : State) : Host.Outcome State Fault Refusal := happen .supplyBandExpiry live (fun d => .ok (bandExpiry d)) s

/-- FREEZE_EDGES_STOP (R574). -/
def execFreezeEdgesStop (s : State) : Host.Outcome State Fault Refusal := happen .freezeEdgesStop live (fun d => edgesStop d) s

/-- FREEZE_LIFT (R575). -/
def execFreezeLift (s : State) : Host.Outcome State Fault Refusal := happen .freezeLift live (fun d => .ok (freezeLift d)) s

/-- RAIL_OUT_OF_REGULATION (R573). -/
def execRailOutOfRegulation (die : Nat) (s : State) : Host.Outcome State Fault Refusal :=
  happen (.railOutOfRegulation die) live (fun d => .ok (railLost d die)) s

/-- SHUTDOWN (R576). -/
def execShutdown (s : State) : Host.Outcome State Fault Refusal := happen .shutdown (fun d => d.pwr.on) (fun d => .ok (shutdown d)) s

/-- POWER_ON (R577). -/
def execPowerOn (s : State) : Host.Outcome State Fault Refusal := happen .powerOn (fun _ => true) (fun d => .ok (powerOn d)) s

/-- BOOT_COMPLETE (R507). -/
def execBootComplete (ms : List (Option Dimm)) (burnt : Nat) (s : State) : Host.Outcome State Fault Refusal :=
  happen (.bootComplete ms burnt) live (fun d => .ok (bootComplete d ms burnt)) s

end Sys2Proof.Machine
end

