-- ==== Sys2Proof/Machine/FabricCommands.lean ====
section
/-! DEFINITION. The commands of the fabric (13_fabric.md; 16_faults_and_recovery.md, R528; 20_module_and_connectors.md, R621). -/
namespace Sys2Proof.Machine

/-- FLUSH_MARKER_RECEIVE (R528). -/
def execFlushMarkerReceive (p : Nat) (m : FabMsg) (s : State) : Host.Outcome State Fault Refusal :=
  happen (.flushMarkerReceive p m) (arrives p) (fun d => .ok (flushMarker d p m)) s

/-- LINK_LOSS (R429). -/
def execLinkLoss (p : Nat) (s : State) : Host.Outcome State Fault Refusal := happen (.linkLoss p) live (fun d => .ok (linkLoss d p)) s

/-- CABLE_MATE (R621): a cable comes or goes whether or not the module is powered. -/
def execCableMate (p : Nat) (present : Bool) (s : State) : Host.Outcome State Fault Refusal :=
  happen (.cableMate p present) (fun _ => true) (fun d => .ok (cableMate d p present)) s

/-- ROUTED_MESSAGE_FORWARD (R433, R434). -/
def execRoutedMessageForward (p : Nat) (m : FabMsg) (s : State) : Host.Outcome State Fault Refusal :=
  happen (.routedMessageForward p m) (arrives p) (fun d => .ok (forwardMsg d p m)) s

/-- FAB_RING_POLL (R440). -/
def execFabRingPoll (r : Nat) (s : State) : Host.Outcome State Fault Refusal := happen (.fabRingPoll r) running (fun d => .ok (ringPoll d r)) s

/-- FAB_TRANSFER_TAKE (R440): an entry is taken, or a transfer that has been taken sends its next message. -/
def execFabTransferTake (k : Option Nat) (s : State) : Host.Outcome State Fault Refusal :=
  happen (.fabTransferTake k) running (fun d => match k with | none => takeXfer d | some k => sendPiece d k) s

/-- FAB_DATA_RECEIVE (R441, R442). -/
def execFabDataReceive (p : Nat) (m : FabMsg) (s : State) : Host.Outcome State Fault Refusal :=
  happen (.fabDataReceive p m) (arrives p) (fun d => dataReceive d p m) s

/-- FAB_SOURCE_READ_DONE (R441). -/
def execFabSourceReadDone (k : Nat) (s : State) : Host.Outcome State Fault Refusal :=
  happen (.fabSourceReadDone k) running (fun d => .ok (sourceDone d k)) s

/-- RELAY_REQUEST_RECEIVE (R444). -/
def execRelayRequestReceive (p : Nat) (m : FabMsg) (s : State) : Host.Outcome State Fault Refusal :=
  happen (.relayRequestReceive p m) (arrives p) (fun d => relayRequest d m) s

/-- RELAY_REPLY_RECEIVE (R446). -/
def execRelayReplyReceive (p : Nat) (m : FabMsg) (s : State) : Host.Outcome State Fault Refusal :=
  happen (.relayReplyReceive p m) (arrives p) (fun d => relayReply d m) s

/-- RELAY_TIMEOUT (R447). -/
def execRelayTimeout (i : Nat) (s : State) : Host.Outcome State Fault Refusal := happen (.relayTimeout i) live (fun d => .ok (relayTimeout d i)) s

/-- WALL_TICK_EXCHANGE (R449). -/
def execWallTickExchange (s : State) : Host.Outcome State Fault Refusal := happen .wallTickExchange live (fun d => .ok (wtExchange d)) s

/-- WALL_TICK_REQUEST_RECEIVE (R449). -/
def execWallTickRequestReceive (p : Nat) (m : FabMsg) (s : State) : Host.Outcome State Fault Refusal :=
  happen (.wallTickRequestReceive p m) (arrives p) (fun d => .ok (wtRequest d p m)) s

/-- WALL_TICK_REPLY_RECEIVE (R450). -/
def execWallTickReplyReceive (p : Nat) (m : FabMsg) (s : State) : Host.Outcome State Fault Refusal :=
  happen (.wallTickReplyReceive p m) (arrives p) (fun d => .ok (wtReply d m)) s

/-- SQUALL_RECEIVE (R453). -/
def execSquallReceive (p : Nat) (m : FabMsg) (s : State) : Host.Outcome State Fault Refusal :=
  happen (.squallReceive p m) (arrives p) (fun d => .ok (squallReceive d p m)) s

/-- LOAN_ACK_RECEIVE (R458). -/
def execLoanAckReceive (p : Nat) (m : FabMsg) (s : State) : Host.Outcome State Fault Refusal :=
  happen (.loanAckReceive p m) (arrives p) (fun d => .ok (loanAck d m)) s

/-- LINK_TRAINING_DONE (R428, R429, R460). -/
def execLinkTrainingDone (p : Nat) (ok : Bool) (peer pport lanes : Nat) (s : State) : Host.Outcome State Fault Refusal :=
  happen (.linkTrainingDone p ok peer pport lanes) live (fun d => .ok (trainingDone d p ok peer pport lanes)) s

/-- FORWARDED_EVENT_RECEIVE (R479). -/
def execForwardedEventReceive (p : Nat) (m : FabMsg) (s : State) : Host.Outcome State Fault Refusal :=
  happen (.forwardedEventReceive p m) (arrives p) (fun d => .ok (forwarded d m)) s

/-- UNKNOWN_CLASS_DISCARD (R437). -/
def execUnknownClassDiscard (p : Nat) (m : FabMsg) (s : State) : Host.Outcome State Fault Refusal :=
  happen (.unknownClassDiscard p m) (arrives p) (fun d => .ok (unknownClass d p m)) s

end Sys2Proof.Machine
end

