-- ==== Sys2Proof/Machine/HostCommands.lean ====
section
/-! DEFINITION. The commands of the host link, of accession and of the ledger (14_host_link.md, 15_accession_and_ledger.md). -/
namespace Sys2Proof.Machine

/-- HOST_LINK_LOSS (R460). -/
def execHostLinkLoss (s : State) : Host.Outcome State Fault Refusal := happen .hostLinkLoss live (fun d => .ok (hostLinkLoss d)) s

/-- HOST_WINDOW_ACCESS (R466). -/
def execHostWindowAccess (w off len : Nat) (data : Option (List Byte)) (s : State) : Host.Outcome State Fault Refusal :=
  happen (.hostWindowAccess w off len data) reached (fun d => windowAccess d w off len data) s

/-- HOST_ACCESS_TIMEOUT (R466). -/
def execHostAccessTimeout (s : State) : Host.Outcome State Fault Refusal := happen .hostAccessTimeout live (fun d => .ok (accessTimeout d)) s

/-- COMMAND_RING_ENABLE (R470): a write of CQ_BASE. -/
def execCommandRingEnable (r : Nat) (v : W64) (s : State) : Host.Outcome State Fault Refusal :=
  driverWrite (.commandRingEnable r v) (cqReg r 0) v s

/-- DOORBELL (R470): a write of CQ_DB. -/
def execDoorbell (r : Nat) (v : W64) (s : State) : Host.Outcome State Fault Refusal := driverWrite (.doorbell r v) (cqReg r 0x10) v s

/-- COMMAND_TAKE (R471). -/
def execCommandTake (s : State) : Host.Outcome State Fault Refusal := happen .commandTake live (fun d => commandTake d none) s

/-- PROGLOAD_COMPLETE (R480). -/
def execProgloadComplete (i : Nat) (s : State) : Host.Outcome State Fault Refusal :=
  happen (.progloadComplete i) running (fun d => progloadComplete d i) s

/-- COPY_COMPLETE (R482). -/
def execCopyComplete (i : Nat) (s : State) : Host.Outcome State Fault Refusal := happen (.copyComplete i) running (fun d => copyComplete d i) s

/-- EVENT_WRITE (R479). -/
def execEventWrite (s : State) : Host.Outcome State Fault Refusal := happen .eventWrite live (fun d => .ok (eventWrite d)) s

/-- HOST_LINE_INVALIDATE (R463): the host writes its own memory, whether or not the module runs. -/
def execHostLineInvalidate (off : Nat) (data : List Byte) (s : State) : Host.Outcome State Fault Refusal :=
  happen (.hostLineInvalidate off data) (fun _ => true) (fun d => .ok (hostLineWrite d off data)) s

/-- CRATE_WRITE (R488): a write of a register that holds ST fields. -/
def execCrateWrite (off : Nat) (v : W64) (s : State) : Host.Outcome State Fault Refusal :=
  if stMask off = 0 then .next s else driverWrite (.crateWrite off v) off v s

/-- CRATE_DISCARD (R491): a write of ACC_CTL. -/
def execCrateDiscard (v : W64) (s : State) : Host.Outcome State Fault Refusal := driverWrite (.crateDiscard v) 0x10_0030 v s

/-- CONDITION_CHECK (R495): the ACCEDE command that waits is answered when the accession ends here. -/
def execConditionCheck (s : State) : Host.Outcome State Fault Refusal :=
  happen .conditionCheck running (fun d => let r := checkEnd d; .ok (accedeEnd r.2 d.acc.task r.1)) s

/-- ACCESSION_APPLY (R499): the ACCEDE command that waits is answered. -/
def execAccessionApply (s : State) : Host.Outcome State Fault Refusal :=
  happen .accessionApply running (fun d => let r := accApply d; .ok (accedeEnd (fabDrain r.2) d.acc.task r.1)) s

/-- LEDGER_UPDATE (R509): a write of LDG_UPD. -/
def execLedgerUpdate (v : W64) (s : State) : Host.Outcome State Fault Refusal := driverWrite (.ledgerUpdate v) 0x10_1010 v s

/-- LEDGER_UPDATE_DONE (R510): it waits while a mailbox operation that came first runs (R634). -/
def execLedgerUpdateDone (readback : Bool) (s : State) : Host.Outcome State Fault Refusal :=
  happen (.ledgerUpdateDone readback) (fun d => live d && !updateWaits d) (fun d => .ok (ledgerDone d readback)) s

end Sys2Proof.Machine
end

