-- ==== Sys2Proof/Machine/SecurityCommands.lean ====
section
/-! DEFINITION. The commands of security and of the module's management (19_security_life_cycle.md, 20_module_and_connectors.md). -/
namespace Sys2Proof.Machine

/-- ATTEST (R601). -/
def execAttest (s : State) : Host.Outcome State Fault Refusal := happen .attest live (fun d => .ok (attest d)) s

/-- TRANSITION (R609). -/
def execTransition (burnt : Nat) (s : State) : Host.Outcome State Fault Refusal :=
  happen (.transition burnt) live (fun d => .ok (transition d burnt)) s

/-- DEBUG_UNLOCK (R613). -/
def execDebugUnlock (burnt : Bool) (s : State) : Host.Outcome State Fault Refusal :=
  happen (.debugUnlock burnt) live (fun d => .ok (debugUnlock d burnt)) s

/-- PROVISION (R608). -/
def execProvision (burnt : Nat) (s : State) : Host.Outcome State Fault Refusal :=
  happen (.provision burnt) live (fun d => .ok (provision d burnt)) s

/-- MGMT_BUS_WRITE (R625): the bus answers from MOD_PWROK on, while MOD_RST_N is low too (R624). -/
def execMgmtBusWrite (off : Nat) (data : List Byte) (s : State) : Host.Outcome State Fault Refusal :=
  happen (.mgmtBusWrite off data) (fun d => d.pwr.on) (fun d => mgmtWrite d off data) s

/-- Does a write of MB_FCTL arrive: on the bus, or on the host link? -/
def mailboxReached (bus : Bool) (d : Dev) : Bool := if bus then d.pwr.on else reached d

/-- FLASH_ERASE (R627). -/
def execFlashErase (bus : Bool) (s : State) : Host.Outcome State Fault Refusal :=
  happen (.flashErase bus) (mailboxReached bus) (fun d => mailboxWrite d 1 bus) s

/-- FLASH_PROGRAM (R627). -/
def execFlashProgram (bus : Bool) (s : State) : Host.Outcome State Fault Refusal :=
  happen (.flashProgram bus) (mailboxReached bus) (fun d => mailboxWrite d 2 bus) s

/-- FLASH_READ (R627). -/
def execFlashRead (bus : Bool) (s : State) : Host.Outcome State Fault Refusal :=
  happen (.flashRead bus) (mailboxReached bus) (fun d => mailboxWrite d 3 bus) s

/-- FLASH_OPERATION_DONE (R628). -/
def execFlashOperationDone (ok : Bool) (s : State) : Host.Outcome State Fault Refusal :=
  happen (.flashOperationDone ok) (fun d => d.pwr.on) (fun d => .ok (mailboxDone d ok)) s

/-- TAP_INSTRUCTION (R632). -/
def execTapInstruction (die : Nat) (o : TapOp) (s : State) : Host.Outcome State Fault Refusal :=
  happen (.tapInstruction die o) (fun d => d.pwr.on) (fun d => .ok (tapLoad d die o)) s

/-- TAP_RESET (R631). -/
def execTapReset (s : State) : Host.Outcome State Fault Refusal := happen .tapReset (fun d => d.pwr.on) (fun d => .ok (tapClear d)) s

/-- DYNAMIC_ADDRESS_ASSIGN (R624). -/
def execDynamicAddressAssign (a : Nat) (s : State) : Host.Outcome State Fault Refusal :=
  happen (.dynamicAddressAssign a) (fun d => d.pwr.on) (fun d => .ok (assignAddress d a)) s

end Sys2Proof.Machine
end

