-- ==== Sys2Proof/Machine/StepCommands.lean ====
section
/-! DEFINITION. The commands of the training step and of the ring reducer (10_training_step.md, 11_ring_reduction.md). -/
namespace Sys2Proof.Machine

/-- LAUNCH (R354, R473): the device takes the next command, which is a LAUNCH. -/
def execLaunch (s : State) : Host.Outcome State Fault Refusal := happen .launch live (fun d => commandTake d (some 5)) s

/-- BARO_SCALES_READY (R106). -/
def execBaroScalesReady (s : State) : Host.Outcome State Fault Refusal := happen .baroScalesReady running (fun d => .ok (baroScalesReady d)) s

/-- BARO_HIST_WRITE (R106). -/
def execBaroHistWrite (n : Nat) (s : State) : Host.Outcome State Fault Refusal :=
  happen (.baroHistWrite n) running (fun d => .ok (baroHistWrite d n)) s

/-- FLIP (R356). -/
def execFlip (s : State) : Host.Outcome State Fault Refusal := happen .flip running (fun d => .ok (flip d)) s

/-- GATE_OPEN (R357). -/
def execGateOpen (s : State) : Host.Outcome State Fault Refusal := happen .gateOpen running (fun d => .ok (gateOpen d)) s

/-- COMMIT (R358). -/
def execCommit (s : State) : Host.Outcome State Fault Refusal := happen .commit running (fun d => .ok (commit d)) s

/-- ABANDON_COMPLETE (R361). -/
def execAbandonComplete (s : State) : Host.Outcome State Fault Refusal := happen .abandonComplete running (fun d => (abandonComplete d).map abandonPoll) s

/-- ABANDON (R473): the device takes the next command, which is an ABANDON. -/
def execAbandon (s : State) : Host.Outcome State Fault Refusal := happen .abandon live (fun d => commandTake d (some 6)) s

/-- RING_HANDOVER (R385). -/
def execRingHandover (c : Nat) (s : State) : Host.Outcome State Fault Refusal := happen (.ringHandover c) clocked (fun d => ringHandover d c) s

/-- A ring message arrives on its ring's receive port, which is up. -/
def ringArrives (r : Nat) (m : Option (List Byte)) (d : Dev) : Bool := running d && (m.isNone || fabUp d (ringRx d r))

/-- RING_PARTIAL_RECEIVE (R389). -/
def execRingPartialReceive (r : Nat) (m : Option (List Byte)) (s : State) : Host.Outcome State Fault Refusal :=
  happen (.ringPartialReceive r m) (ringArrives r m) (fun d => .ok (ringReceive d r m)) s

/-- RING_ADD (R391). -/
def execRingAdd (n j q : Nat) (s : State) : Host.Outcome State Fault Refusal := happen (.ringAdd n j q) running (fun d => .ok (ringAdd d n j q)) s

/-- RING_DELIVER (R398). -/
def execRingDeliver (n j q : Nat) (s : State) : Host.Outcome State Fault Refusal :=
  happen (.ringDeliver n j q) running (fun d => ringDeliver d n j q) s

/-- BUCKET_COMPLETE (R392). -/
def execBucketComplete (n : Nat) (s : State) : Host.Outcome State Fault Refusal :=
  happen (.bucketComplete n) running (fun d => .ok (bucketComplete d n)) s

/-- MAXIMA_FIRST_PASS (R401). -/
def execMaximaFirstPass (m : Option (List Byte)) (s : State) : Host.Outcome State Fault Refusal :=
  happen (.maximaFirstPass m) (ringArrives 0 m) (fun d => .ok (maximaFirst d m)) s

/-- MAXIMA_SECOND_PASS (R401). -/
def execMaximaSecondPass (m : Option (List Byte)) (s : State) : Host.Outcome State Fault Refusal :=
  happen (.maximaSecondPass m) (ringArrives 0 m) (fun d => .ok (maximaSecond d m)) s

end Sys2Proof.Machine
end

