-- ==== Sys2Proof/Machine/UnitCommands.lean ====
section
/-! DEFINITION. The commands of the unit tree (01_unit_tree.md): unit-port commands at the head of a queue, and the driver's writes of a port's frame. -/
namespace Sys2Proof.Machine

/-- UNIT_PORT_NOP (R32). -/
def execUnitPortNop (p : Nat) (s : State) : Host.Outcome State Fault Refusal :=
  happen (.unitPortNop p) clocked (fun d => .ok (portNop d p)) s

/-- START (R32). -/
def execStart (p : Nat) (s : State) : Host.Outcome State Fault Refusal := happen (.start p) clocked (fun d => .ok (portStart d p)) s

/-- STOP (R32). -/
def execStop (p : Nat) (s : State) : Host.Outcome State Fault Refusal := happen (.stop p) clocked (fun d => .ok (portStop d p)) s

/-- HSET (R32). -/
def execHset (p : Nat) (s : State) : Host.Outcome State Fault Refusal := happen (.hset p) clocked (fun d => .ok (portHset d p)) s

/-- HINC (R32). -/
def execHinc (p : Nat) (s : State) : Host.Outcome State Fault Refusal := happen (.hinc p) clocked (fun d => .ok (portHinc d p)) s

/-- HWAIT (R32). -/
def execHwait (p : Nat) (s : State) : Host.Outcome State Fault Refusal := happen (.hwait p) clocked (fun d => .ok (portHwait d p)) s

/-- UNIT_PORT_RESET (R32). -/
def execUnitPortReset (p : Nat) (s : State) : Host.Outcome State Fault Refusal :=
  happen (.unitPortReset p) clocked (fun d => .ok (portReset_ d p)) s

/-- FCLR (R33). -/
def execFclr (p : Nat) (s : State) : Host.Outcome State Fault Refusal := happen (.fclr p) clocked (fun d => .ok (portFclr d p)) s

/-- UNIT_PORT_PUSH (R31): a write of UP_CMD_PUSH. -/
def execUnitPortPush (p : Nat) (cmd : W64) (s : State) : Host.Outcome State Fault Refusal :=
  driverWrite (.unitPortPush p cmd) (upReg p 0x10) cmd s

/-- COMMAND_FAN_OUT (R33). -/
def execCommandFanOut (p : Nat) (s : State) : Host.Outcome State Fault Refusal :=
  happen (.commandFanOut p) clocked (fun d => .ok (fanOut d p)) s

/-- UP_RESET (R49, R50): a write of UP_RESET. -/
def execUpReset (p : Nat) (v : W64) (s : State) : Host.Outcome State Fault Refusal := driverWrite (.upReset p v) (upReg p 0x30) v s

/-- UNIT_RESET_WIPE_DONE (R51). -/
def execUnitResetWipeDone (p : Nat) (s : State) : Host.Outcome State Fault Refusal :=
  happen (.unitResetWipeDone p) running (fun d => .ok (unitWipeDone d p)) s

/-- FAULT_SUM_CLEAR (R45): a write of UP_FAULT_SUM. -/
def execFaultSumClear (p : Nat) (v : W64) (s : State) : Host.Outcome State Fault Refusal :=
  driverWrite (.faultSumClear p v) (upReg p 0x20) v s

/-- HOLD_COUNTER_WRITE (R39): a write of UP_HOLD[i]. -/
def execHoldCounterWrite (p i : Nat) (v : W64) (s : State) : Host.Outcome State Fault Refusal :=
  driverWrite (.holdCounterWrite p i v) (upReg p (0x100 + 8 * i)) v s

/-- TRACE_FUNNEL_WRITE (R48): a write of UP_TRACE. -/
def execTraceFunnelWrite (p : Nat) (v : W64) (s : State) : Host.Outcome State Fault Refusal :=
  driverWrite (.traceFunnelWrite p v) (upReg p 0x28) v s

/-- REGISTER_WRITE (R14): a write of any register on the host link. -/
def execRegisterWrite (off : Nat) (v : W64) (s : State) : Host.Outcome State Fault Refusal := driverWrite (.registerWrite off v) off v s

end Sys2Proof.Machine
end

