-- ==== Sys2Proof/Machine/Dispatch.lean ====
section
/-! DEFINITION. The dispatch: one arm per command, in the order of the opcode table. -/
namespace Sys2Proof.Machine

/-- What a command does to everything but the queue. -/
def exec (i : Instr) (s : State) : Host.Outcome State Fault Refusal :=
  match i with
  | .registerWrite off v => Sys2Proof.Machine.execRegisterWrite off v s
  | .unitPortNop port => Sys2Proof.Machine.execUnitPortNop port s
  | .start port => Sys2Proof.Machine.execStart port s
  | .stop port => Sys2Proof.Machine.execStop port s
  | .hset port => Sys2Proof.Machine.execHset port s
  | .hinc port => Sys2Proof.Machine.execHinc port s
  | .hwait port => Sys2Proof.Machine.execHwait port s
  | .unitPortReset port => Sys2Proof.Machine.execUnitPortReset port s
  | .fclr port => Sys2Proof.Machine.execFclr port s
  | .unitPortPush port cmd => Sys2Proof.Machine.execUnitPortPush port cmd s
  | .commandFanOut port => Sys2Proof.Machine.execCommandFanOut port s
  | .upReset port v => Sys2Proof.Machine.execUpReset port v s
  | .unitResetWipeDone port => Sys2Proof.Machine.execUnitResetWipeDone port s
  | .faultSumClear port v => Sys2Proof.Machine.execFaultSumClear port v s
  | .holdCounterWrite port k v => Sys2Proof.Machine.execHoldCounterWrite port k v s
  | .traceFunnelWrite port v => Sys2Proof.Machine.execTraceFunnelWrite port v s
  | .bundleIssue cell => Sys2Proof.Machine.execBundleIssue cell s
  | .plinthReady cell => Sys2Proof.Machine.execPlinthReady cell s
  | .fwdPendingStart cell => Sys2Proof.Machine.execFwdPendingStart cell s
  | .backwardBufferReady cell which => Sys2Proof.Machine.execBackwardBufferReady cell which s
  | .pairScan cell => Sys2Proof.Machine.execPairScan cell s
  | .bwdPendingStart cell => Sys2Proof.Machine.execBwdPendingStart cell s
  | .dwaccComplete cell => Sys2Proof.Machine.execDwaccComplete cell s
  | .vsolveComplete cell => Sys2Proof.Machine.execVsolveComplete cell s
  | .holdOverrun cell => Sys2Proof.Machine.execHoldOverrun cell s
  | .dmaTake gallery => Sys2Proof.Machine.execDmaTake gallery s
  | .dmaPieceTransfer gallery idx write => Sys2Proof.Machine.execDmaPieceTransfer gallery idx write s
  | .dmaComplete gallery idx => Sys2Proof.Machine.execDmaComplete gallery idx s
  | .launch => Sys2Proof.Machine.execLaunch s
  | .baroScalesReady => Sys2Proof.Machine.execBaroScalesReady s
  | .baroHistWrite n => Sys2Proof.Machine.execBaroHistWrite n s
  | .flip => Sys2Proof.Machine.execFlip s
  | .gateOpen => Sys2Proof.Machine.execGateOpen s
  | .commit => Sys2Proof.Machine.execCommit s
  | .abandonComplete => Sys2Proof.Machine.execAbandonComplete s
  | .abandon => Sys2Proof.Machine.execAbandon s
  | .ringHandover cell => Sys2Proof.Machine.execRingHandover cell s
  | .ringPartialReceive ring msg => Sys2Proof.Machine.execRingPartialReceive ring msg s
  | .ringAdd n j q => Sys2Proof.Machine.execRingAdd n j q s
  | .ringDeliver n j q => Sys2Proof.Machine.execRingDeliver n j q s
  | .bucketComplete n => Sys2Proof.Machine.execBucketComplete n s
  | .flushMarkerReceive port msg => Sys2Proof.Machine.execFlushMarkerReceive port msg s
  | .maximaFirstPass msg => Sys2Proof.Machine.execMaximaFirstPass msg s
  | .maximaSecondPass msg => Sys2Proof.Machine.execMaximaSecondPass msg s
  | .linkLoss port => Sys2Proof.Machine.execLinkLoss port s
  | .cableMate cage present => Sys2Proof.Machine.execCableMate cage present s
  | .routedMessageForward port msg => Sys2Proof.Machine.execRoutedMessageForward port msg s
  | .fabRingPoll ring => Sys2Proof.Machine.execFabRingPoll ring s
  | .fabTransferTake k => Sys2Proof.Machine.execFabTransferTake k s
  | .fabDataReceive port msg => Sys2Proof.Machine.execFabDataReceive port msg s
  | .fabSourceReadDone k => Sys2Proof.Machine.execFabSourceReadDone k s
  | .relayRequestReceive port msg => Sys2Proof.Machine.execRelayRequestReceive port msg s
  | .relayReplyReceive port msg => Sys2Proof.Machine.execRelayReplyReceive port msg s
  | .relayTimeout id => Sys2Proof.Machine.execRelayTimeout id s
  | .wallTickExchange => Sys2Proof.Machine.execWallTickExchange s
  | .wallTickRequestReceive port msg => Sys2Proof.Machine.execWallTickRequestReceive port msg s
  | .wallTickReplyReceive port msg => Sys2Proof.Machine.execWallTickReplyReceive port msg s
  | .squallReceive port msg => Sys2Proof.Machine.execSquallReceive port msg s
  | .loanAckReceive port msg => Sys2Proof.Machine.execLoanAckReceive port msg s
  | .hostLinkLoss => Sys2Proof.Machine.execHostLinkLoss s
  | .hostWindowAccess window off len data => Sys2Proof.Machine.execHostWindowAccess window off len data s
  | .hostAccessTimeout => Sys2Proof.Machine.execHostAccessTimeout s
  | .commandRingEnable ring v => Sys2Proof.Machine.execCommandRingEnable ring v s
  | .doorbell ring v => Sys2Proof.Machine.execDoorbell ring v s
  | .commandTake => Sys2Proof.Machine.execCommandTake s
  | .progloadComplete id => Sys2Proof.Machine.execProgloadComplete id s
  | .copyComplete id => Sys2Proof.Machine.execCopyComplete id s
  | .eventWrite => Sys2Proof.Machine.execEventWrite s
  | .crateWrite off v => Sys2Proof.Machine.execCrateWrite off v s
  | .crateDiscard v => Sys2Proof.Machine.execCrateDiscard v s
  | .conditionCheck => Sys2Proof.Machine.execConditionCheck s
  | .accessionApply => Sys2Proof.Machine.execAccessionApply s
  | .ledgerUpdate v => Sys2Proof.Machine.execLedgerUpdate v s
  | .ledgerUpdateDone readback => Sys2Proof.Machine.execLedgerUpdateDone readback s
  | .faultLogClear v => Sys2Proof.Machine.execFaultLogClear v s
  | .warmLinksDown => Sys2Proof.Machine.execWarmLinksDown s
  | .wipeComplete => Sys2Proof.Machine.execWipeComplete s
  | .warmRetrainDone lanes => Sys2Proof.Machine.execWarmRetrainDone lanes s
  | .coldReset => Sys2Proof.Machine.execColdReset s
  | .traceSyncPeriodic cell => Sys2Proof.Machine.execTraceSyncPeriodic cell s
  | .traceStreamEnable gallery v => Sys2Proof.Machine.execTraceStreamEnable gallery v s
  | .traceStream gallery => Sys2Proof.Machine.execTraceStream gallery s
  | .counterClear v => Sys2Proof.Machine.execCounterClear v s
  | .counterFreeze v => Sys2Proof.Machine.execCounterFreeze v s
  | .dumpDone ok => Sys2Proof.Machine.execDumpDone ok s
  | .powerQuantum p1 p10 => Sys2Proof.Machine.execPowerQuantum p1 p10 s
  | .thermalSensorRead readings => Sys2Proof.Machine.execThermalSensorRead readings s
  | .thermalShutdown => Sys2Proof.Machine.execThermalShutdown s
  | .droopTrip gallery tripped => Sys2Proof.Machine.execDroopTrip gallery tripped s
  | .pllLockLoss die => Sys2Proof.Machine.execPllLockLoss die s
  | .supplyVoltageChange mV pin => Sys2Proof.Machine.execSupplyVoltageChange mV pin s
  | .supplyBandExpiry => Sys2Proof.Machine.execSupplyBandExpiry s
  | .freezeEdgesStop => Sys2Proof.Machine.execFreezeEdgesStop s
  | .freezeLift => Sys2Proof.Machine.execFreezeLift s
  | .railOutOfRegulation die => Sys2Proof.Machine.execRailOutOfRegulation die s
  | .shutdown => Sys2Proof.Machine.execShutdown s
  | .powerOn => Sys2Proof.Machine.execPowerOn s
  | .attest => Sys2Proof.Machine.execAttest s
  | .transition burnt => Sys2Proof.Machine.execTransition burnt s
  | .debugUnlock burnt => Sys2Proof.Machine.execDebugUnlock burnt s
  | .provision burnt => Sys2Proof.Machine.execProvision burnt s
  | .mgmtBusWrite off data => Sys2Proof.Machine.execMgmtBusWrite off data s
  | .flashErase bus => Sys2Proof.Machine.execFlashErase bus s
  | .flashProgram bus => Sys2Proof.Machine.execFlashProgram bus s
  | .flashRead bus => Sys2Proof.Machine.execFlashRead bus s
  | .flashOperationDone ok => Sys2Proof.Machine.execFlashOperationDone ok s
  | .tapInstruction die op => Sys2Proof.Machine.execTapInstruction die op s
  | .linkTrainingDone port ok peer pport lanes => Sys2Proof.Machine.execLinkTrainingDone port ok peer pport lanes s
  | .bootComplete dimms burnt => Sys2Proof.Machine.execBootComplete dimms burnt s
  | .forwardedEventReceive port msg => Sys2Proof.Machine.execForwardedEventReceive port msg s
  | .unknownClassDiscard port msg => Sys2Proof.Machine.execUnknownClassDiscard port msg s
  | .hostLineInvalidate off data => Sys2Proof.Machine.execHostLineInvalidate off data s
  | .modRstNAssert => Sys2Proof.Machine.execModRstNAssert s
  | .tapReset => Sys2Proof.Machine.execTapReset s
  | .stretchDecay wing => Sys2Proof.Machine.execStretchDecay wing s
  | .dynamicAddressAssign addr => Sys2Proof.Machine.execDynamicAddressAssign addr s
  | .converterDone cell => Sys2Proof.Machine.execConverterDone cell s
  | .drainPathDone cell => Sys2Proof.Machine.execDrainPathDone cell s
  | .dwPathDone cell => Sys2Proof.Machine.execDwPathDone cell s
  | .transcendentalPipeFree cell => Sys2Proof.Machine.execTranscendentalPipeFree cell s

end Sys2Proof.Machine
end

