-- ==== Sys2Proof/Machine/Step.lean ====
section
/-! DEFINITION. One step: the command at the front of the queue, or one cycle of the die root when no command waits. -/
namespace Sys2Proof.Machine

/-- A step: the command at the front of the queue takes effect with the rest of the queue left; on an empty queue one root cycle passes.
DESIGN CHOICE (log entry 1). -/
def step (s : State) : Host.Outcome State Fault Refusal :=
  match s.pending with
  | c :: rest => exec c { s with pending := rest }
  | [] => lift s (rootTick s.dev)

/-- The state with the command that a word spells at the front of its queue; unchanged where the word spells none. DESIGN CHOICE (log entry 1). -/
def State.withFetchWord (s : State) (nbits w : Nat) : State :=
  match decodeTableWord nbits w with
  | some c => { s with pending := c :: s.pending }
  | none => s

end Sys2Proof.Machine
end

