-- ==== Sys2Proof/Safety.lean ====
section
/-! DEFINITION. What counts as a safe run: no step of it ends in undefined behaviour or in a refusal, and the memory keeps its canonical form. -/
namespace Sys2Proof.Safety

open Sys2Proof.Machine

/-- The step goes on. -/
def goesOn (s : State) : Prop := ∃ t, step s = .next t

/-- `n` steps from `s` all go on and end in `t`. -/
inductive Run : Nat → State → State → Prop where
  | done (s : State) : Run 0 s s
  | more (n : Nat) (s t u : State) (h : step s = .next t) (r : Run n t u) : Run (n + 1) s u

/-- The machine's memory is in its canonical form (R8, R303; addresses strictly rising, no entry equal to what an unlisted address reads as). -/
abbrev memoryOk (s : State) : Prop := memWf s.dev.mem = true

/-- A safe run of `n` steps from `s`: it can be continued to its end, and memory stays canonical. -/
def Safe (n : Nat) (s : State) : Prop := ∃ t, Run n s t ∧ memoryOk t

/-- Command `c` at `s` answers a next state: the queue as it was, and the device `d`. -/
abbrev Yields (c : Instr) (s : State) (d : Dev) : Prop := exec c s = .next { s with dev := d }

/-! ### When the commands of the unit tree act -/

/-- The host link reaches register `off`: up, after READY, not locked (R466–R468, R477), with no fault waiting, and the management bus has written nothing
there in this NCLK (R626). -/
abbrev Writable (s : State) (off : Nat) : Prop :=
  reached s.dev = true ∧ s.dev.raised = [] ∧ isReady s.dev = true ∧ lockw s.dev = false ∧ okReg off = true ∧ (regAt off).isSome = true ∧ busNow s.dev off = []

/-- `e`, of operation `op`, is at the head of the queue of port `p`, which is in service, and the compute dies run (R27, R30). -/
abbrev HeadOf (s : State) (p op : Nat) (e : PortCmd) : Prop :=
  clocked s.dev = true ∧ s.dev.raised = [] ∧ okPort p = true ∧ portUp s.dev p = true ∧ headCmd s.dev p = some e ∧ cmdOp e.cmd = op

/-- No trace record waits in cell `c`, and its funnel is off (R48). -/
abbrev Untraced (s : State) (c : Nat) : Prop := (cellOf s.dev c).traceOn = false ∧ (cellOf s.dev c).trun = none

/-- START at the head of a cell's queue may begin: the docent has stopped, and no freeze is in force (R32). -/
abbrev StartBegins (s : State) (p : Nat) (e : PortCmd) : Prop :=
  HeadOf s p 1 e ∧ isCell p = true ∧ e.begun = false ∧ docentRuns s.dev (p - 64) = false ∧ s.dev.pwr.freeze = none ∧ Untraced s (p - 64)

/-- Nothing keeps port `p` from a unit reset: it is in service, no compute or warm reset runs, and no dump holds the device (R49, R527, R559). -/
abbrev Resettable (s : State) (p : Nat) : Prop := portUp s.dev p = true ∧ inReset s.dev = false ∧ s.dev.dump = none ∧ stState s.dev ≠ 1

/-- The head of port `p` is to be copied to its members (R33). -/
abbrev FansOut (s : State) (p : Nat) (e : PortCmd) : Prop :=
  clocked s.dev = true ∧ s.dev.raised = [] ∧ okPort p = true ∧ portUp s.dev p = true ∧ isCell p = false ∧ headCmd s.dev p = some e
    ∧ e.out = none ∧ fansOut (cmdOp e.cmd) = true

/-- Does a push find a ground of refusal (R31, R34, R527)? -/
abbrev pushRefused (d : Dev) (p : Nat) (w : W64) : Bool :=
  !portUp d p || decide (8 ≤ cmdOp w) || queueFull d p || resetting d p || (inReset d || d.dump.isSome)

/-! ### When the commands of a cell act -/

/-- The command changes cell `k` alone, which becomes `x`. -/
def ChangesCell (c : Instr) (s : State) (k : Nat) (x : Cell) : Prop :=
  ∃ cells, Yields c s { s.dev with cells := cells } ∧ tabGet (fun _ => cellReset) cells k = x
    ∧ ∀ j, j ≠ k → tabGet (fun _ => cellReset) cells j = cellOf s.dev j

/-- Cell `c` receives edges and owes the one effect `u`, which is due. -/
abbrev OwesOne (s : State) (c : Nat) (u : Due) : Prop :=
  clocked s.dev = true ∧ s.dev.raised = [] ∧ okCell c = true ∧ (cellOf s.dev c).due = [u] ∧ u.edge ≤ cellEdge s.dev c

/-- Nothing that cell `c` reads is under transfer or errs: no transfer is live or uncovered, nothing that a sweep wrote is held to a reader, and no ECC error
and no wrong residue waits (R158, R288, R308, R364). -/
abbrev Readable (s : State) (c : Nat) : Prop :=
  liveXfers s.dev = [] ∧ s.dev.ended = [] ∧ s.dev.sweep = [] ∧ s.dev.upset = [] ∧ (cellOf s.dev c).flips = [] ∧ (cellOf s.dev c).slips = []

/-- Nothing outside the module keeps it busy: no message and no window access waits, every link is down, and no bundle waits. -/
abbrev Undisturbed (d : Dev) : Prop :=
  d.tx = [] ∧ d.host.wait = [] ∧ upPorts d = [] ∧ hostUp d = false ∧ (d.cells.all fun e => e.2.wait.isNone) = true

/-- The events that a command posts can be held: none must be written first (R479). -/
abbrev EventRoom (d : Dev) : Prop := d.host.held.length + 8 ≤ 256

/-- A bundle with nothing but a scalar operation. -/
abbrev scalarBundle (o : ScalarOp) : Bundle := { scalar := o, fwd := .fnop, bwd := .bnop, vec := none, red := none, dma := .dnop, sync := .none }

/-- A running docent that may look at its bundle at edge `e`: nothing under way, outside a loop, no redirect and no WINBASE pending, and no wait. -/
abbrev Looking (x : Cell) (e : Nat) : Prop :=
  x.running = true ∧ x.started = false ∧ x.due = [] ∧ x.wait = none ∧ x.frozen = none ∧ x.gatedNow = false ∧ x.loops = [] ∧ x.redirects = []
    ∧ x.winPend = [] ∧ x.nextEdge = e

/-- The running docent of cell `c` looks at the bundle at its PC, with trace and counters off. -/
abbrev LooksAt (s : State) (c : Nat) : Prop :=
  clocked s.dev = true ∧ s.dev.raised = [] ∧ okCell c = true ∧ portUp s.dev (cellPort c) = true ∧ Readable s c ∧ Untraced s c ∧ counting s.dev = false
    ∧ Looking (cellOf s.dev c) (cellEdge s.dev c)

/-- The bundle of scalar operation `o` issues. -/
abbrev IssuesNow (s : State) (c : Nat) (o : ScalarOp) : Prop := LooksAt s c ∧ (fetch s.dev c).toOption = some (scalarBundle o)

/-! ### When the device takes a command from a ring -/

/-- The device takes command `ws` from ring `r` next, and only its own share is to be executed (R471–R473). -/
abbrev TakesFromRing (s : State) (r : Nat) (ws : List W64) : Prop :=
  live s.dev = true ∧ s.dev.raised = [] ∧ nextRing s.dev = some (r, ws) ∧ opBad s.dev r ws = false ∧ othersOf s.dev ws = []
    ∧ bitAt (setOf s.dev ws) (myDev s.dev) = true

/-- CONS of ring `r` has advanced by one. -/
abbrev ConsAdvanced (d e : Dev) (r : Nat) : Prop := rgf e (cqReg r 0x18) 63 32 = (rgf d (cqReg r 0x18) 63 32 + 1) % 2 ^ 32

/-- The device runs outside any dump, and no fault waits. -/
abbrev Ready (s : State) : Prop := running s.dev = true ∧ s.dev.raised = []

/-- A message may arrive on port `p`, which is up. -/
abbrev Arrives (s : State) (p : Nat) : Prop := live s.dev = true ∧ s.dev.raised = [] ∧ okFab p = true ∧ fabUp s.dev p = true

/-- Fault class `b` shows at port `p` from now on, and no other fault bit of that port has changed. -/
abbrev FaultShown (d e : Dev) (p b : Nat) : Prop := (portOf e p).own = (portOf d p).own ||| 2 ^ b

/-- The pieces of a transfer may be read or written now: none lies where R304 or R305 forbid, every cell that they touch is settled, and no ECC error waits. -/
abbrev Movable (s : State) (ps : List (Nat × Nat)) : Prop :=
  badPiece s.dev ps = none ∧ rangePiece s.dev ps = false ∧ (settlePieces s.dev ps).toOption = some s.dev ∧ s.dev.upset = []

end Sys2Proof.Safety
end

