-- ==== Sys2Proof/Certificates/Slice0/Obligations.lean ====
section
/-! DEFINITION. The statements for the provers, from the numbered rules of the spec. Every statement of a command's effect concludes that `exec` answers
a next state, written out as the state before with the named changes: what is not named is unchanged. `s.dev.raised = []` says that no fault
waits to be taken up, which holds after every step (FaultsTakenUp). -/

open Sys2Proof Sys2Proof.Machine Sys2Proof.Safety

/-! ### The machine -/

/-- A step runs the command at the front of the queue on the state with the rest of the queue. Rests on choices of the model: log entry 1. -/
def Obligations.StepRunsFrontCommand : Prop :=
  ∀ (c : Instr) (rest : List Instr) (s : State), step { s with pending := c :: rest } = exec c { s with pending := rest }

/-- R564, R565, R569: on an empty queue one cycle of the die root passes. With links idle and no edge for the compute dies only the root counts, and the wall tick in
every 84th cycle, by one unless it slews (R450). While the dies are clocked and no wing is at its edge, each wing's period runs down by one. An unpowered
module stands still. Rests on choices of the model: log entry 1. -/
def Obligations.IdleStepIsOneRootCycle : Prop :=
  ∀ s : State, s.pending = [] → s.dev.raised = [] →
    (live s.dev = false → step s = .next s) ∧
    (live s.dev = true → halted s.dev = true → s.dev.tx = [] → (s.dev.root + 1) % 84 ≠ 0 →
      step s = .next { s with dev := { s.dev with root := s.dev.root + 1 } }) ∧
    (live s.dev = true → halted s.dev = true → Undisturbed s.dev → (s.dev.root + 1) % 84 = 0 → s.dev.fab.sync.slew = 0 →
      step s = .next { s with dev := { s.dev with root := s.dev.root + 1, wt := s.dev.wt + 1 } }) ∧
    (clocked s.dev = true → s.dev.tx = [] → (s.dev.root + 1) % 84 ≠ 0 → (∀ w, w < 4 → 1 < (wingOf s.dev w).left) →
      let count (d : Dev) (w : Nat) : Dev := putWing d w { wingOf d w with left := (wingOf d w).left - 1 }
      step s = .next { s with dev := (List.range 4).foldl count { s.dev with root := s.dev.root + 1 } })

/-- A command that names a unit, port, ring or register that does not exist changes nothing. Rests on choices of the model: log entry 2. -/
def Obligations.IllFormedCommandChangesNothing : Prop :=
  ∀ (c : Instr) (s : State), c.wf = false → exec c s = .next s

/-- No command is refused, and none touches the queue: what waits behind it waits on. Rests on choices of the model: log entry 1. -/
def Obligations.NoCommandIsRefusedOrQueued : Prop :=
  ∀ (c : Instr) (s : State), (∀ r, exec c s ≠ .refused r) ∧ ∀ t, exec c s = .next t → t.pending = s.pending

/-- R515, R518: every fault that a command raises is taken up before the next command: no request waits after any step.
Rests on choices of the model: log entry 23. -/
def Obligations.FaultsTakenUp : Prop :=
  ∀ s t : State, s.dev.raised = [] → step s = .next t → t.dev.raised = []

/-- R8, R303: every step keeps memory in its canonical form: addresses strictly rising, and no entry equal to what an unlisted byte reads as. -/
def Obligations.MemoryStaysCanonical : Prop :=
  ∀ s t : State, memoryOk s → step s = .next t → memoryOk t

/-- The state at reset meets both invariants: no fault waits, and memory is in its canonical form, with nothing listed (R522).
Rests on choices of the model: log entries 3, 4. -/
def Obligations.ResetMeetsTheInvariants : Prop := State.reset.dev.raised = [] ∧ memoryOk State.reset ∧ State.reset.dev.mem = []

/-- R590: without power nothing changes the module but what the board itself does: the input, a cable, host memory and power-on (R573, R577, R621).
Rests on choices of the model: log entry 7. -/
def Obligations.NothingHappensWithoutPower : Prop :=
  ∀ (c : Instr) (s : State), s.dev.pwr.on = false → s.dev.raised = [] →
    (∀ cage b, c ≠ .cableMate cage b) → (∀ mV pin, c ≠ .supplyVoltageChange mV pin) → (∀ off data, c ≠ .hostLineInvalidate off data) → c ≠ .powerOn →
    exec c s = .next s

/-! ### The unit tree -/

/-- R14, R466: a write of a register by its access codes: W1C bits written as 1 clear, RW bits take the value written, all others stay. A write of a reserved
offset, or before READY, is discarded and counted. Rests on choices of the model: log entry 31. -/
def Obligations.RegisterWriteFollowsAccessCodes : Prop :=
  ∀ (s : State) (off : Nat) (v : W64),
    (∀ r, Writable s off → regAt off = some r → r.st = 0 → (off < 0x200_0000 ∨ 0x240_0000 ≤ off) → writeOwn s.dev .link off v = none →
      Yields (.registerWrite off v) s
        (putRg s.dev off (((rg s.dev off &&& ~~~(v &&& BitVec.ofNat 64 r.w1c)) &&& ~~~BitVec.ofNat 64 r.rw) ||| (v &&& BitVec.ofNat 64 r.rw)))) ∧
    (reached s.dev = true → s.dev.raised = [] → okReg off = true → ((regAt off).isNone || (!isReady s.dev && off != 0)) = true →
      Yields (.registerWrite off v) s (putRgf s.dev 0x20_1018 31 0 (satAdd 32 (rgf s.dev 0x20_1018 31 0) 1)))

/-- R30, R32, R36: NOP, HSET, HINC and HWAIT at the head of a cell's queue: each completes with its effect on the counter named, HWAIT once that counter is
complete. -/
def Obligations.CellCounterCommandsComplete : Prop :=
  ∀ (s : State) (p : Nat) (e : PortCmd), isCell p = true →
    (HeadOf s p 0 e → Yields (.unitPortNop p) s (complete s.dev p e.id)) ∧
    (HeadOf s p 3 e → Yields (.hset p) s (complete (modCell s.dev (p - 64) fun x => holdStart x (cmdH e.cmd) 0 (cmdArg e.cmd % 2 ^ 32) fun _ => false) p e.id)) ∧
    (HeadOf s p 4 e → Yields (.hinc p) s
      (complete (modCell s.dev (p - 64) fun x => holdCredit x { h := cmdH e.cmd, n := cmdArg e.cmd % 2 ^ 32, know := e.know, nclk := none }) p e.id)) ∧
    (HeadOf s p 5 e → Yields (.hwait p) s (if holdDone (cellOf s.dev (p - 64)) (cmdH e.cmd) then complete s.dev p e.id else s.dev))

/-- R30, R33: completion: the entry leaves its queue; a copy is one less to wait for at the entry it was copied from, which completes with the last one. -/
def Obligations.CompletionLeavesTheQueue : Prop :=
  ∀ (d : Dev) (p i : Nat) (e : PortCmd), (portOf d p).q.find? (fun u => u.id == i) = some e →
    (e.parent = none → complete d p i = modPort d p fun x => { x with q := x.q.filter fun u => u.id != i }) ∧
    (∀ pp pi u n, e.parent = some (pp, pi) → pp ≠ p → (portOf d pp).q.find? (fun v => v.id == pi) = some u → u.out = some (n + 2) →
      complete d p i = modPort (modPort d p fun x => { x with q := x.q.filter fun v => v.id != i }) pp
        fun x => { x with q := x.q.map fun v => if v.id == pi then { v with out := some (n + 1) } else v })

/-- R32, R253: STOP stops the docent, and the command completes; START begins at the bundle that its ARG names with empty loop stack and redirect queue.
Rests on choices of the model: log entry 10. -/
def Obligations.StartAndStop : Prop :=
  ∀ (s : State) (p : Nat) (e : PortCmd), isCell p = true →
    (HeadOf s p 2 e → Untraced s (p - 64) →
      Yields (.stop p) s (complete (if docentRuns s.dev (p - 64) then stopDocent s.dev (p - 64) else s.dev) p e.id)) ∧
    (StartBegins s p e → Yields (.start p) s
      (modCell (modPort s.dev p fun x => { x with q := x.q.map fun u => if u.id == e.id then { u with begun := true } else u }) (p - 64) fun x =>
        { x with running := true, started := true, loops := [], redirects := [], pc := cmdArg e.cmd % 4096, visiting := false, wait := none
                 nextEdge := max (if x.frozen.isSome then cellEdge s.dev (p - 64) + 1 else cellEdge s.dev (p - 64)) x.nextEdge }))

/-- R49, R50, R51: a unit reset of a cell, outside a step: its queue is empty, its registers are as after cold reset but for what R50 keeps, its folio store
reads as zero, and every other byte of memory keeps its value; once the wipe is
complete the port no longer shows a unit reset. -/
def Obligations.UnitResetBeginsAndEnds : Prop :=
  (∀ (s : State) (p : Nat), isCell p = true → Resettable s p → memoryOk s → (cellOf s.dev (p - 64)).trun = none →
    let after (t : State) : Prop :=
      (portOf t.dev p).wiping = true ∧ (portOf t.dev p).q = [] ∧ t.dev.reg = s.dev.reg ∧
      cellOf t.dev (p - 64) = unitResetCell (wingOf s.dev (wingOfCell (p - 64))).edges (s.dev.ended.map (·.id)) (cellOf s.dev (p - 64)) ∧
      (∀ c, c ≠ p - 64 → cellOf t.dev c = cellOf s.dev c) ∧
      ∀ a, rdB t.dev a = if inStores [p - 64] [] a then 0 else rdB s.dev a
    (∀ v : W64, v.getLsbD 0 = true → Writable s (upReg p 0x30) → ∃ t, exec (.upReset p v) s = .next t ∧ after t) ∧
    (∀ e, HeadOf s p 6 e → ∃ t, exec (.unitPortReset p) s = .next t ∧ after t)) ∧
  ∀ (s : State) (p : Nat), running s.dev = true → s.dev.raised = [] → okPort p = true → (portOf s.dev p).wiping = true →
    Yields (.unitResetWipeDone p) s (modPort s.dev p fun x => { x with wiping := false })

/-- R15, R33, R45: a write of 1 bits to UP_FAULT_SUM, and FCLR with the bits in its ARG, clear those bits in every port of the subtree and in no other, but for the
bits that an event has set in the same NCLK; memory stays. -/
def Obligations.FaultSummariesClear : Prop :=
  ∀ (s : State) (p : Nat),
    (∀ v : W64, portUp s.dev p = true → Writable s (upReg p 0x20) → okPort p = true →
      ∃ t, exec (.faultSumClear p v) s = .next t ∧ t.dev.mem = s.dev.mem ∧
        (∀ q ∈ subtree s.dev p, (portOf t.dev q).own = (portOf s.dev q).own &&& ((2 ^ 64 - 1) ^^^ ((v.toNat % 2 ^ 11) &&& ((2 ^ 64 - 1) ^^^ newBits s.dev q)))) ∧
        ∀ q, q ∉ subtree s.dev p → portOf t.dev q = portOf s.dev q) ∧
    (∀ e, HeadOf s p 7 e → Yields (.fclr p) s (complete (clearSummary s.dev p (cmdArg e.cmd % 2 ^ 16)) p e.id))

/-- R28, R31, R34: a command pushed to a port enters its queue, unless it is refused: then REFUSED is set, at the device port for a port that is not in
service. The driver's command depends on every transfer that has completed (R288). -/
def Obligations.PushEntersOrIsRefused : Prop :=
  ∀ (s : State) (p : Nat) (w : W64), okPort p = true → Writable s (upReg p 0x10) →
    (pushRefused s.dev p w = false → Yields (.unitPortPush p w) s (enqueue s.dev p w none (s.dev.ended.map (·.id)))) ∧
    (pushRefused s.dev p w = true →
      let q := if portUp s.dev p then p else 0
      Yields (.unitPortPush p w) s (modPort (markNew s.dev q (2 ^ 11)) q fun x => { x with refused := true }))

/-- R33: the head of a port other than a cell's is copied to every member at once when each has room; it waits when one has none; with no member it completes. -/
def Obligations.FanOutCopiesToEveryMember : Prop :=
  ∀ (s : State) (p : Nat) (e : PortCmd), FansOut s p e →
    ((members s.dev p).any (fun q => queueFull s.dev q || resetting s.dev q) = true → Yields (.commandFanOut p) s s.dev) ∧
    ((members s.dev p).any (fun q => queueFull s.dev q || resetting s.dev q) = false → members s.dev p = [] →
      Yields (.commandFanOut p) s (complete s.dev p e.id)) ∧
    ((members s.dev p).any (fun q => queueFull s.dev q || resetting s.dev q) = false → members s.dev p ≠ [] →
      Yields (.commandFanOut p) s ((members s.dev p).foldl (fun d q => enqueue d q e.cmd (some (p, e.id)) e.know)
        (modPort s.dev p fun x => { x with q := x.q.map fun u => if u.id == e.id then { u with out := some (members s.dev p).length } else u })))

/-- R38, R39, R48: a write of UP_HOLD[i] sets count and target at a cell, to which the DMA completions of the same NCLK are added, and nothing elsewhere; a write of UP_TRACE that turns no funnel on or off changes
that register alone. -/
def Obligations.HoldAndTraceWrites : Prop :=
  ∀ (s : State) (p : Nat) (v : W64), okPort p = true → portUp s.dev p = true →
    (∀ i, i < 32 → Writable s (upReg p (0x100 + 8 * i)) →
      Yields (.holdCounterWrite p i v) s
        (if isCell p then modCell s.dev (p - 64) fun x =>
          holdStart x i (fld v.toNat 31 0) (fld v.toNat 63 32) fun q => q.nclk == some (nclkAt s.dev (p - 64)) else s.dev)) ∧
    (Writable s (upReg p 0x28) → (isCell p = true → (cellOf s.dev (p - 64)).trun = none) →
      (∀ c ∈ cellsUnder s.dev p, funnelOn (putRg s.dev (upReg p 0x28) (v &&& 7)) c = (cellOf s.dev c).traceOn) →
      Yields (.traceFunnelWrite p v) s (putRg s.dev (upReg p 0x28) (v &&& 7)))

/-! ### Cells -/

/-- R240, R246, R249, R253, R275: a bundle with a scalar operation alone: it reads its registers at the issue edge `e`, its result becomes visible at
`e` plus its latency, a taken branch redirects after its delay slots, HALT stops the docent; every other bundle goes on at the next address and the
next edge. -/
def Obligations.ScalarBundleIssues : Prop :=
  ∀ (s : State) (c : Nat),
    let x := cellOf s.dev c
    let e := cellEdge s.dev c
    let next : Cell := { x with pc := (x.pc + 1) % 4096, nextEdge := e + 1 }
    (IssuesNow s c .snop → ChangesCell (.bundleIssue c) s c next) ∧
    (∀ op r a b, IssuesNow s c (.alu op r a b) → ChangesCell (.bundleIssue c) s c
      { next with due := [{ edge := e + saluLatency op, phase := 0, iss := e, op := .sreg r (saluOp op (sGet x a) (sGet x b)) }] }) ∧
    (∀ op r a imm, IssuesNow s c (.aluImm op r a imm) → ChangesCell (.bundleIssue c) s c
      { next with due := [{ edge := e + 1, phase := 0, iss := e, op := .sreg r (saluOp op (sGet x a) imm) }] }) ∧
    (∀ r imm, IssuesNow s c (.li r imm) → ChangesCell (.bundleIssue c) s c
      { next with due := [{ edge := e + 1, phase := 0, iss := e, op := .sreg r imm }] }) ∧
    (∀ k a target, IssuesNow s c (.br k a target) → ChangesCell (.bundleIssue c) s c
      { next with redirects := if brTaken k (sGet x a) then [{ value := target, left := 1 }] else [] }) ∧
    (IssuesNow s c .halt → ChangesCell (.bundleIssue c) s c { next with running := false })

/-- R234, R244, R280, R283, R284, R364: an illegal bundle does not issue: the docent stops, DCT_ILL names the slot and the bundle, and an ILLEGAL fault is taken up.
A bundle whose awaited hold counter was not complete at the edge is held: the cell stops receiving edges before the bundle's edge, and its wait begins in
this wall tick; with the counter complete the bundle issues, and every version slot whose sweep is over is retained again.
Rests on choices of the model: log entry 10. -/
def Obligations.BundlesWaitOrStop : Prop :=
  ∀ (s : State) (c : Nat), LooksAt s c →
    (∀ k, fetch s.dev c = .error k →
      exec (.bundleIssue c) s = .next { s with dev := takeFaults (illegalBundle s.dev c k) } ∧
      (cellOf (illegalBundle s.dev c k) c).running = false ∧ (cellOf (illegalBundle s.dev c k) c).ill = some (k, (cellOf s.dev c).pc)) ∧
    (∀ h, (fetch s.dev c).toOption = some { scalarBundle .snop with sync := .waith h } →
      (holdSeen (cellOf s.dev c) h = false → ChangesCell (.bundleIssue c) s c
        { cellOf s.dev c with frozen := some (cellEdge s.dev c - 1)
                              wait := some { sub := 1, h := h, port := 0, since := ticks s.dev, gated := 0 } }) ∧
      (holdSeen (cellOf s.dev c) h = true → ChangesCell (.bundleIssue c) s c
        { cellOf s.dev c with pc := ((cellOf s.dev c).pc + 1) % 4096, nextEdge := cellEdge s.dev c + 1
                              stale := (cellOf s.dev c).stale.filter fun _ => sweeping s.dev }))

/-- R157, R165, R188, R192, R194, R211: the end of an operation frees its unit: the converter, the drain path, the dW path, the transcendental pipe; the pair
scan's end fills the inactive exponent table from the inactive buffers, and the pair is ready. Nothing else changes. -/
def Obligations.UnitsBecomeFree : Prop :=
  ∀ (s : State) (c e : Nat),
    let done : Cell := { cellOf s.dev c with due := [] }
    (∀ ph i, OwesOne s c ⟨e, ph, i, .convDone⟩ → ChangesCell (.converterDone c) s c { done with conv := none }) ∧
    (∀ ph i, OwesOne s c ⟨e, ph, i, .drainDone⟩ → ChangesCell (.drainPathDone c) s c { done with drain := none }) ∧
    (∀ ph i, OwesOne s c ⟨e, ph, i, .dwDone⟩ → ChangesCell (.dwPathDone c) s c { done with dw := none }) ∧
    (∀ ph i, OwesOne s c ⟨e, ph, i, .transFree⟩ → ChangesCell (.transcendentalPipeFree c) s c { done with transBusy := false }) ∧
    (∀ ph i, OwesOne s c ⟨e, ph, i, .pairScan⟩ → (cellOf s.dev c).flips = [] → ChangesCell (.pairScan c) s c
      { scanTable done (if (cellOf s.dev c).xyAct then 0 else 1) with pairReady := true })

/-- R132, R133, R185: at the end of a PLOAD the inactive plinth takes what was loaded, the active one stays, and the load path is free. At the end of a BLDW
the rows of the inactive weight buffer hold the loaded image, the rows of the active one stay, and the load is over. What is loaded carries valid ECC (R160,
R166). Nothing else changes. -/
def Obligations.LoadsFillTheInactiveBuffers : Prop :=
  ∀ (s : State) (c e ph i : Nat),
    (∀ r, OwesOne s c ⟨e, ph, i, .ploadDone⟩ → (cellOf s.dev c).pload = some r → ChangesCell (.plinthReady c) s c
      (if (cellOf s.dev c).plAct then { stateClean (cellOf s.dev c) .plinth 0 fun _ => true with due := [], pload := none, plA := plinthOf r }
       else { stateClean (cellOf s.dev c) .plinth 1 fun _ => true with due := [], pload := none, plB := plinthOf r })) ∧
    (∀ r x f, OwesOne s c ⟨e, ph, i, .bldDone false⟩ → (cellOf s.dev c).bldw = some r → r.d = some x → imageFmt x = .ok f →
      (imageOf false f r).length ≤ 64 →
      let act := if (cellOf s.dev c).lwAct then 1 else 0
      ∃ lw, ChangesCell (.backwardBufferReady c 0) s c
          { stateClean (cellOf s.dev c) .lw (1 - act) fun _ => true with due := [], bldw := none, lw := lw } ∧
        (∀ k row, (imageOf false f r)[k]? = some row → lwRow { cellOf s.dev c with lw := lw } (1 - act) k = row) ∧
        ∀ k, k < 64 → lwRow { cellOf s.dev c with lw := lw } act k = lwRow (cellOf s.dev c) act k)

/-- R137, R148, R190: after its last vector the current FWD is gone. With none pending the array is idle; a pending one whose annex pre-pass is not over
waits for its end; any other enters its first vector in this edge. After its last row the current BWD is gone; a pending one streams from this edge on.
Rests on choices of the model: log entry 2. -/
def Obligations.PendingStreamsStart : Prop :=
  ∀ (s : State) (c e ph i : Nat),
    let x := cellOf s.dev c
    (OwesOne s c ⟨e, ph, i, .fwdPendStart⟩ →
      (x.fwdPend = none → ChangesCell (.fwdPendingStart c) s c { x with due := [], fwdCur := none }) ∧
      (∀ r, x.fwdPend = some r → r.aanx = true → e ≤ r.preEnd → ChangesCell (.fwdPendingStart c) s c
        { x with due := [⟨r.preEnd + 1, 0, 0, .fwdPendStart⟩], fwdCur := none }) ∧
      (∀ r, x.fwdPend = some r → ¬(r.aanx = true ∧ e ≤ r.preEnd) → r.d.isSome = true → Readable s c → x.portEdge ≠ e → r.r = 1 ∨ r.r = 2 →
        ∃ y, ChangesCell (.fwdPendingStart c) s c y ∧ y.fwdPend = none ∧ y.fwdCur = some { r with start := some e, next := 1 } ∧ y.acc = x.acc ∧
          y.plA = x.plA ∧ y.plB = x.plB ∧ y.pc = x.pc ∧ y.hold = x.hold)) ∧
    (OwesOne s c ⟨e, ph, i, .bwdPendStart⟩ →
      (x.bwdPend = none → ChangesCell (.bwdPendingStart c) s c { x with due := [], bwdCur := none }) ∧
      (∀ r, x.bwdPend = some r →
        ∃ y, ChangesCell (.bwdPendingStart c) s c y ∧ y.bwdPend = none ∧ y.bwdCur = some { r with start := some e } ∧ y.lacc = x.lacc ∧
          y.racc = x.racc ∧ y.lw = x.lw ∧ y.dy = x.dy ∧ y.rx = x.rx ∧ y.pc = x.pc ∧ y.hold = x.hold))

/-- R230, R231: at the end of a VSOLVE its solution is in its destination lanes, the count of singular systems is in its scalar register, and the engine
is free. -/
def Obligations.SolveWritesItsResult : Prop :=
  ∀ (s : State) (c e ph i n : Nat) (xs : List (Nat × W32)) (r : SolveRun), OwesOne s c ⟨e, ph, i, .solveDone xs n⟩ → (cellOf s.dev c).solve = some r →
    let y := sPut (vPutL { cellOf s.dev c with due := [], solve := none } r.b xs) r.d (BitVec.ofNat 64 n)
    ChangesCell (.vsolveComplete c) s c
      (if n = 0 ∨ (cellOf s.dev c).visiting = true then y else { y with vx := { y.vx with sing := satAdd 32 y.vx.sing n, flag := true } })

/-- R196, R197, R304, R332: the memory side of a DWACC with LAST = 0 waits while its gallery has no class for its bytes, and is a DMA fault of the gallery on bytes that no
DMA may touch. Else it ends: it leaves the cell, its hold counter counts one, the blocks and side words that it has made are in memory and no byte outside them
has changed; of the cell only the partial gauges may count besides, of the registers only CNT_DMA of the gallery. -/
def Obligations.DwaccStoresAndCounts : Prop :=
  ∀ (s : State) (c : Nat) (r : DwRun) (x : Desc), clocked s.dev = true → s.dev.raised = [] → okCell c = true → portUp s.dev (cellPort c) = true →
    (cellOf s.dev c).due = [] → (cellOf s.dev c).dwMem = [r] → r.last = false → r.d = some x → s.dev.upset = [] →
    let g := galleryOfCell c
    let old := (dwRead s.dev c r x).1
    (dwBad s.dev r x = none → dwMay s.dev g r x = false → Yields (.dwaccComplete c) s s.dev) ∧
    (∀ a, dwBad s.dev r x = some a → stState s.dev ≠ 1 → ∃ t, exec (.dwaccComplete c) s = .next t ∧ FaultShown s.dev t.dev (galleryPort g) 5 ∧
      cellOf t.dev c = { cellOf s.dev c with dwMem := [] }) ∧
    (dwBad s.dev r x = none → dwMay s.dev g r x = true → (dwBlocks r old).any (·.bad) = false → sweeping s.dev = false →
      ∃ t, exec (.dwaccComplete c) s = .next t ∧ t.pending = s.pending ∧ t.dev.ports = s.dev.ports ∧
        (∀ o, o ≠ 0x307_0100 + 8 * g → rg t.dev o = rg s.dev o) ∧
        (dwStore s.dev c r x (dwBlocks r old)).toOption.map (·.mem) = some t.dev.mem ∧
        (∀ a, (∀ p ∈ dwRanges r x, a < p.1 ∨ p.1 + p.2 ≤ a) → rdB t.dev a = rdB s.dev a) ∧
        cellOf t.dev c = holdCredit { cellOf s.dev c with dwMem := [], gauge := (cellOf t.dev c).gauge } { h := r.h, n := 1, know := r.know, nclk := none } ∧
        ∀ k, k ≠ c → cellOf t.dev k = cellOf s.dev k)

/-- R285, R520: a wait longer than the effective hold limit stops the docent, with a HOLD fault of its own kind of wait in the cell's port and a record in
the log. The dump's trigger is off, no step runs, and the event can be held. -/
def Obligations.HoldOverrunStopsTheDocent : Prop :=
  ∀ (s : State) (c : Nat), live s.dev = true → s.dev.raised = [] → okCell c = true → portUp s.dev (cellPort c) = true → s.dev.dump = none →
    rgf s.dev 0x305_0000 0 0 = 0 → stState s.dev ≠ 1 → EventRoom s.dev → overdue s.dev c = true →
    ∃ t, exec (.holdOverrun c) s = .next t ∧ (cellOf t.dev c).running = false ∧ (cellOf t.dev c).wait = none ∧
      (portOf t.dev (cellPort c)).own = (portOf s.dev (cellPort c)).own ||| 4 ∧ t.dev.mem = s.dev.mem ∧
      (∃ rec, t.dev.flog = (insRec rec s.dev.flog).take 64 ∧ fld (rec.getD 0 0).toNat 63 56 = 2 ∧ fld (rec.getD 0 0).toNat 41 32 = cellPort c) ∧
      ∀ k, k ≠ c → cellOf t.dev k = cellOf s.dev k

/-! ### DMA engines -/

/-- R324, R327: the engine takes the head transfer of the queue that its round serves: it leaves the cell's queue and becomes the last active transfer, and
the round goes on behind that cell. Rests on choices of the model: log entry 2. -/
def Obligations.DmaTakesInRound : Prop :=
  ∀ (s : State) (g c : Nat) (q : DmaEntry) (x : Xfer), clocked s.dev = true → s.dev.raised = [] → okGallery g = true →
    portUp s.dev (galleryPort g) = true → (galOf s.dev g).xs.length < 16 → (∀ j, j < 8 → (cellOf s.dev (8 * g + j)).due = []) →
    nextQueue s.dev g = some (c, q, x) → xferCheck s.dev x = none →
    Yields (.dmaTake g) s (modGal (modCell s.dev c fun y => { y with dmaq := y.dmaq.tail }) g fun y => { y with xs := y.xs ++ [x], next := (c + 1) % 8 })

/-- R289, R323, R326, R332: one piece of an active transfer: between folio stores a read piece appends the bytes at its address, and a write piece stores the
transfer's next bytes there, once the store is settled and not blocked, but for the bytes that a later transfer of the same queue has written. A piece in HBM
moves in a slot of its class that is at hand, which it uses; while none is at hand, or an earlier transfer waits for it, nothing moves. A piece that meets a
transfer uncovered for the queuing cell (R288) is case 1 of R297. Rests on choices of the model: log entries 10, 12. -/
def Obligations.DmaPieceMoves : Prop :=
  ∀ (s : State) (g k a n : Nat) (x : Xfer), clocked s.dev = true → s.dev.raised = [] → okGallery g = true → (galOf s.dev g).xs[k]? = some x →
    s.dev.upset = [] → blockedPlace s.dev (place s.dev a) = false →
    (∀ c o, place s.dev a = .folio c o → (cellOf s.dev c).due = [] →
      (x.prog = false → x.dstash = false → nextPiece s.dev x true = some (a, n) → othersMeet s.dev x true a n = false →
        (coefGuard s.dev a (writeBytes x n)).toOption.isSome = true →
        ((∀ i, i < n → laterHolds s.dev x (a + i) = false) →
          Yields (.dmaPieceTransfer g k true) s (putXfer (countDma (wrBytes s.dev a (writeBytes x n)) g n) g (gotWrite x n))) ∧
        ∃ t, exec (.dmaPieceTransfer g k true) s = .next t ∧ t.dev.cells = s.dev.cells ∧ t.dev.gals = (putXfer s.dev g (gotWrite x n)).gals ∧
          ∀ b, rdB t.dev b =
            if a ≤ b ∧ b < a + (writeBytes x n).length ∧ laterHolds s.dev x b = false then (writeBytes x n).getD (b - a) 0 else rdB s.dev b) ∧
      (x.sstash = false → nextPiece s.dev x false = some (a, n) → othersMeet s.dev x false a n = false →
        Yields (.dmaPieceTransfer g k false) s (putXfer s.dev g (gotRead x (rdBytes s.dev a n)))) ∧
      (x.sstash = false → nextPiece s.dev x false = some (a, n) → othersMeet s.dev x false a n = true →
        exec (.dmaPieceTransfer g k false) s = .fault .uncoveredDma)) ∧
    (∀ o e p, place s.dev a = .hbm o → x.prog = false → x.dstash = false → nextPiece s.dev x true = some (a, n) →
      slotNeed s.dev g x a = .cls e p → classGranted s.dev e g true p = true → othersMeet s.dev x true a n = false → x.h.isSome = true →
      paid s.dev x true a = false → (coefGuard s.dev a (writeBytes x n)).toOption.isSome = true → (∀ i, i < n → laterHolds s.dev x (a + i) = false) →
      Yields (.dmaPieceTransfer g k true) s
        (if slotFree s.dev e p && !earlierWaits s.dev g ((galOf s.dev g).xs.take k) true (.cls e p) then
          putXfer (countDma (wrBytes (takeSlot s.dev p) a (writeBytes x n)) g n) g (gotWrite (pay s.dev x true a) n)
        else s.dev))

/-- R325, R288, R342: a transfer that has read and written every byte leaves the engine and counts one at its hold counter; its bytes wait for a hold point that
depends on it, and its rows are in the stash when it wrote one. Rests on choices of the model: log entry 10. -/
def Obligations.DmaCompletionCounts : Prop :=
  ∀ (s : State) (g k h : Nat) (x : Xfer), clocked s.dev = true → s.dev.raised = [] → okGallery g = true → (galOf s.dev g).xs[k]? = some x →
    x.h = some h → x.overflow = false →
    (xferDone x = true → portUp s.dev (cellPort x.cell) = true → Yields (.dmaComplete g k) s
      (modCell { modGal s.dev g fun y => { y with xs := y.xs.filter fun u => u.id != x.id } with
                 stash := s.dev.stash ++ stashRows x, ended := s.dev.ended ++ [{ x with buf := [] }] } x.cell fun y =>
        holdCredit y { h := h, n := 1, know := x.id :: x.cover, nclk := some (nclkAt s.dev x.cell) })) ∧
    (xferDone x = false → Yields (.dmaComplete g k) s s.dev)

/-! ### The training step -/

/-- R346, R353, R354, R471: an accepted LAUNCH: the step runs with its stamp, gate closed and not flipped, every in-map cell has its gauges, records and
wait statistics cleared and its counters GH, FH and DH set to 0 of 1, and the ring's CONS has advanced. Rests on choices of the model: log entry 2. -/
def Obligations.LaunchBeginsTheStep : Prop :=
  ∀ (s : State) (r : Nat) (ws : List W64), TakesFromRing s r ws → opOf ws = 5 → s.dev.upset = [] →
    launchReason s.dev (fld (argOf ws 0) 47 0) (accPending s.dev) = none →
    ∃ t, exec .launch s = .next t ∧ t.pending = s.pending ∧ stState t.dev = 1 ∧ stStamp t.dev = fld (argOf ws 0) 47 0 ∧ stGate t.dev = false ∧
      stFlipped t.dev = false ∧ t.dev.stp.launchWt = s.dev.wt ∧ ConsAdvanced s.dev t.dev r ∧
      ∀ c, cellOf t.dev c = if c ∈ mapCells s.dev then launchCell (cfgGh s.dev) (cfgFh s.dev) (cfgDh s.dev) (cellOf s.dev c) else cellOf s.dev c

/-- R105, R106, R331: the scales of a launched step are computed from the barometer table as it stands, once no record that they need waits to be written and owner 51 has
a class to read it; behind a closed gate memory changes but in the learning rates of the coefficient entries that wait for them. A committed record is
written into its place of HIST once owner 51 has a class. Rests on choices of the model: log entry 12. -/
def Obligations.ScalesAndHistory : Prop :=
  ∀ s : State, Ready s →
    (inStep s.dev = true → s.dev.scl.ready = false →
      (histAwaited s.dev (stStamp s.dev) = true ∨ ownerMay s.dev 51 false s.dev.scl.base 64 = false → Yields .baroScalesReady s s.dev) ∧
      (histAwaited s.dev (stStamp s.dev) = false → ownerMay s.dev 51 false s.dev.scl.base 64 = true → s.dev.upset = [] →
        ∃ t, exec .baroScalesReady s = .next t ∧
        t.dev.scl = (snapScalesNow s.dev s.dev.scl.base (stStamp s.dev)).scl ∧ t.dev.reg = s.dev.reg ∧ t.dev.cells = s.dev.cells ∧
        (stGate s.dev = false →
          ∀ a, (∀ e ∈ s.dev.scl.lrs, a < coefAddr s.dev e.1 + 0x50 ∨ coefAddr s.dev e.1 + 0x54 ≤ a) → rdB t.dev a = rdB s.dev a))) ∧
    (∀ n b st m, s.dev.histPend[n]? = some (b, st, m) → ownerMay s.dev 51 true (baroAddr s.dev b + 0x40) 128 = true →
      blockedPlace s.dev (.hbm 0) = false → Yields (.baroHistWrite n) s
      (wrN { s.dev with histPend := s.dev.histPend.eraseIdx n } (baroAddr s.dev b + 0x40 + 8 * (st % 16)) 8
        (2 ^ 48 + st % 2 ^ 16 * 2 ^ 32 + m.toNat)))

/-- R356, R357: a step flips when FLIPEN is 1, FLIPPED 0 and counter FH of the device port complete, and at no other time: PUB toggles, FLIPPED is set, and no other
register changes. The gate opens once NBUCK buckets are complete and the flip, if there is one, is done: GATE is set, every in-map cell's counter GH counts one
and version slot 1 - PUB stops being retained there (R364), and only BARO_SNAP bytes of memory change; before that nothing happens. With no loan still
reading, nothing else changes in registers and fabric. -/
def Obligations.FlipAndGate : Prop :=
  ∀ s : State, Ready s → stState s.dev = 1 →
    (cfgFlipEn s.dev = true → stFlipped s.dev = false → portDone s.dev 0 (cfgFh s.dev) = true →
      ∃ reg, Yields .flip s { s.dev with reg := reg } ∧ stPub { s.dev with reg := reg } = 1 - stPub s.dev ∧ stFlipped { s.dev with reg := reg } = true ∧
        stState { s.dev with reg := reg } = 1 ∧ stStamp { s.dev with reg := reg } = stStamp s.dev ∧
        ∀ o, o ≠ 0x30B_0000 → o ≠ 0x30B_0010 → tabGet regReset reg o = rg s.dev o) ∧
    (cfgFlipEn s.dev = false ∨ stFlipped s.dev = true ∨ portDone s.dev 0 (cfgFh s.dev) = false → Yields .flip s s.dev) ∧
    (stGate s.dev = false → (s.dev.ring.done < cfgNbuck s.dev ∨ (cfgFlipEn s.dev = true ∧ stFlipped s.dev = false)) → Yields .gateOpen s s.dev) ∧
    (stGate s.dev = false → cfgNbuck s.dev ≤ s.dev.ring.done → (cfgFlipEn s.dev = false ∨ stFlipped s.dev = true) → s.dev.upset = [] →
      EventRoom s.dev → (s.dev.fab.xs.any fun x => x.loan && !x.read && decide (x.pos < x.len)) = false →
      ∃ t, exec .gateOpen s = .next t ∧ stGate t.dev = true ∧ stState t.dev = 1 ∧ t.dev.stp.gateWt = s.dev.wt ∧
        t.dev.reg = (putRgf s.dev 0x30B_0000 2 2 1).reg ∧ t.dev.fab = s.dev.fab ∧
        (∀ c, cellOf t.dev c =
          if c ∈ mapCells s.dev then
            { holdCredit (cellOf s.dev c) (plainCredit (cfgGh s.dev)) with
              stale := (1 - stPub s.dev) :: (cellOf s.dev c).stale.filter (· != 1 - stPub s.dev) }
          else cellOf s.dev c) ∧
        ∀ a, (∀ b ∈ barosWith s.dev (fun v => bitAt v 4), a < baroAddr s.dev b + 0xE0 ∨ baroAddr s.dev b + 0xE4 ≤ a) → rdB t.dev a = rdB s.dev a)

/-- R346, R358, R361: a step commits once the gate is open, DH complete and the maxima combined: STATE returns to 0 and LAST is its stamp; an abandoned step
ends once its operations, transfers and flushes have, and LAST stays. Both clear the partial gauges and maxima of every cell and nothing else there.
Rests on choices of the model: log entries 2, 24. -/
def Obligations.StepEnds : Prop :=
  ∀ s : State, Ready s → s.dev.upset = [] →
    let cleared (t : State) : Prop := ∀ c, cellOf t.dev c = { cellOf s.dev c with gauge := [], maxima := [] }
    (stState s.dev = 1 → stGate s.dev = true → dhDone s.dev = true → maximaReady s.dev = true →
      (s.dev.ring.buckets.any (·.stamp == stStamp s.dev)) = false →
      ∃ t, exec .commit s = .next t ∧ stState t.dev = 0 ∧ stLast t.dev = stStamp s.dev ∧ t.dev.ring.done = 0 ∧ t.dev.ring.handed = [] ∧
        t.dev.ports = s.dev.ports ∧ cleared t) ∧
    (stState s.dev = 1 → (stGate s.dev = false ∨ dhDone s.dev = false) → Yields .commit s s.dev) ∧
    (stState s.dev = 2 → opsDone s.dev = true → (s.dev.gals.all fun g => g.2.xs.isEmpty) = true → flushed s.dev = true →
      s.dev.fab.xs.all (·.loan) = true →
      ∃ t, exec .abandonComplete s = .next t ∧ stState t.dev = 0 ∧ stLast t.dev = stLast s.dev ∧ t.dev.ports = s.dev.ports ∧ cleared t)

/-- R295, R360, R361, R473: ABANDON in a running step: STATE becomes 2 and GATE and FLIPPED 0, PUB returns to its value at launch unless the gate was open, every
docent stops and every queued DMA is discarded, and the ring's open buckets and contribution store are dropped. -/
def Obligations.AbandonStopsTheStep : Prop :=
  ∀ (s : State) (r : Nat) (ws : List W64), TakesFromRing s r ws → opOf ws = 6 → stState s.dev = 1 →
    ∃ t, exec .abandon s = .next t ∧ t.pending = s.pending ∧ stState t.dev = 2 ∧ stGate t.dev = false ∧ stFlipped t.dev = false ∧
      stPub t.dev = (if stGate s.dev then stPub s.dev else stPub0 s.dev) ∧ stStamp t.dev = stStamp s.dev ∧ ConsAdvanced s.dev t.dev r ∧
      (∀ c, c < nCells → (cellOf t.dev c).running = false ∧ (cellOf t.dev c).dmaq = []) ∧ t.dev.ring.buckets = [] ∧ t.dev.ring.store = []

/-! ### The ring reducer -/

/-- R385, R386, R390, R398: the hand-over of a DWACC with LAST = 1: its tile enters the contribution store with its side words and counts as handed over, its hold
counter counts, and memory stays, of the registers all but CNT_DMA of the gallery; in STATE 2 it is dropped and counts all the same; while 16 buckets are open
and its own is not, or its gallery has no class for the bytes (R332), it waits. Rests on choices of the model: log entry 32. -/
def Obligations.HandoverFillsTheStore : Prop :=
  ∀ (s : State) (c : Nat) (r : DwRun) (x : Desc), clocked s.dev = true → s.dev.raised = [] → okCell c = true → portUp s.dev (cellPort c) = true →
    (cellOf s.dev c).due = [] → (cellOf s.dev c).dwMem = [r] → r.last = true → r.d = some x → s.dev.upset = [] →
    let at_ := dwPos x r.addr
    (stState s.dev = 2 → Yields (.ringHandover c) s (dwLeave s.dev c r true)) ∧
    (stState s.dev ≠ 2 → dwBad s.dev r x = none → x.base ≤ r.addr → x.pitch ≠ 0 → x.base + at_.1 * x.pitch + 2 * at_.2 = r.addr → at_.1 % 64 = 0 →
      at_.2 % 64 = 0 →
      let bs := dwBlocks r (dwRead s.dev c r x).1
      let g := galleryOfCell c
      (dwMay s.dev g r x = false → Yields (.ringHandover c) s s.dev) ∧
      (∀ b j, openBucket s.dev r.bucket = some b → at_.1 / 64 * tilesAcross x.cols + at_.2 / 64 = bkT0 b + j → j < bkTiles b →
        s.dev.ring.handed.contains (r.bucket, j) = false → s.dev.ring.store.length < 1024 → dwMay s.dev g r x = true → bs.any (·.bad) = false →
        ∃ t, exec (.ringHandover c) s = .next t ∧ t.dev.ring.handed = s.dev.ring.handed ++ [(r.bucket, j)] ∧
          t.dev.ring.store = s.dev.ring.store
            ++ [{ bucket := r.bucket, tile := j, e16 := r.e16, rows := (chunksOf 2 bs.length bs).map fun p => p.flatMap (·.codes)
                  sides := (chunksOf 2 bs.length bs).map fun p => p.map (·.side) }] ∧
          cellOf t.dev c = holdCredit { cellOf s.dev c with dwMem := [], gauge := (cellOf t.dev c).gauge } { h := r.h, n := 1, know := r.know, nclk := none } ∧
          t.dev.mem = s.dev.mem ∧ (∀ o, o ≠ 0x307_0100 + 8 * g → rg t.dev o = rg s.dev o) ∧ t.dev.tx = s.dev.tx) ∧
      (openBucket s.dev r.bucket = none → entryBad s.dev (readBucket s.dev r.bucket (workStamp s.dev)).1 = false → 16 ≤ s.dev.ring.buckets.length →
        Yields (.ringHandover c) s s.dev))

/-- R387–R391, R393, R395, R396: a sound partial of the next step's stamp enters the open bucket's tile-quarter, one of the step after that stays in the receive buffer,
which has room; the first position sends its own quarter on, and the owner keeps the sum of partial and own quarter for delivery. A quarter whose residues or
exponents do not match is a ring fault instead. Rests on choices of the model: log entry 7. -/
def Obligations.PartialsAreTakenAndSummed : Prop :=
  ∀ s : State, Ready s → s.dev.upset = [] →
    (∀ r m b, r < 4 → fabUp s.dev (ringRx s.dev r) = true → (ringsRunning s.dev).contains r = true → s.dev.ring.discard.contains r = false →
      tabGet (fun _ => []) s.dev.ring.rx r = [] → rmType m = 1 → rxBytes s.dev r + m.length ≤ 65536 →
      (rmStamp m = (stLast s.dev + 2) % 2 ^ 48 → Yields (.ringPartialReceive r (some m)) s
        { s.dev with ring := { s.dev.ring with rx := tabPut (fun _ => []) s.dev.ring.rx r [m] } }) ∧
      (rmStamp m = (stLast s.dev + 1) % 2 ^ 48 → arrivalBad (rmPart m) = none → openBucket s.dev (fld (rmWord m 0) 31 16) = some b →
        fld (rmWord m 0) 51 46 = bkOwn b → fld (rmWord m 0) 15 4 < bkTiles b → qState b (fld (rmWord m 0) 15 4) (fld (rmWord m 0) 3 2) = .wait →
        Yields (.ringPartialReceive r (some m)) s
          { putBucket s.dev (setQ b (fld (rmWord m 0) 15 4) (fld (rmWord m 0) 3 2) (.part (rmPart m))) with
            ring := { (putBucket s.dev (setQ b (fld (rmWord m 0) 15 4) (fld (rmWord m 0) 3 2) (.part (rmPart m)))).ring with
                      rx := tabPut (fun _ => []) s.dev.ring.rx r [] } })) ∧
    (∀ n j q b t, n < 65536 → q < 4 → openBucket s.dev n = some b → s.dev.ring.store.find? (fun t => t.bucket == n && t.tile == j) = some t →
      (∀ p, qState b j q = .add p → addFault p (ownBlocks t q) (ownSides t q) ≠ none → stState s.dev ≠ 1 → EventRoom s.dev →
        ∃ u, exec (.ringAdd n j q) s = .next u ∧ FaultShown s.dev u.dev 0 6 ∧ u.dev.mem = s.dev.mem ∧ u.dev.tx = s.dev.tx) ∧
      (qState b j q = .add none → isOwner s.dev b = false → addFault none (ownBlocks t q) (ownSides t q) = none →
        ∃ u, exec (.ringAdd n j q) s = .next u ∧ (∃ b', openBucket u.dev n = some b' ∧ qState b' j q = .sent) ∧ u.dev.mem = s.dev.mem ∧
          u.dev.cells = s.dev.cells ∧ u.dev.reg = s.dev.reg ∧
          u.dev.tx = s.dev.tx ++ [(ringTx s.dev (quarterRing s.dev q), ownMsg s.dev 2 0 0 0
            (ringHeader s.dev 1 (quarterRing s.dev q) (bkOwn b) n j q b.stamp (fnAfter s.dev b j q none (ownBlocks t q)) 0
              ++ ((ownBlocks t q).map fun x => sideWord t.e16 (b16Residue x)).flatMap (leBytes 2) ++ (ownBlocks t q).flatMap (packCodes 16)))]) ∧
      (∀ p, qState b j q = .add (some p) → isOwner s.dev b = true → addFault (some p) (ownBlocks t q) (ownSides t q) = none →
        ∃ u b' out, exec (.ringAdd n j q) s = .next u ∧ openBucket u.dev n = some b' ∧ qState b' j q = .deliver out ∧
          out.blocks = ((p.blocks.zip (ownBlocks t q)).map fun x => (x.1.zip x.2).map fun y => (b16Add y.1 y.2).1) ∧ u.dev.tx = s.dev.tx ∧
          u.dev.mem = s.dev.mem ∧ u.dev.reg = s.dev.reg))

/-- R392, R395, R398, R399: the owner delivers a sound tile-quarter, outside a sweep of the coefficient table and once owner 48 has its classes (it waits until then): it
writes the gradient bytes and scales of the quarter's 32 blocks and no other memory, and the quarter is done. A bucket whose quarters are all in their last state counts as complete and frees its slot.
Rests on choices of the model: log entry 12. -/
def Obligations.DeliveryAndBucketCompletion : Prop :=
  ∀ (s : State) (n : Nat) (b : Bucket), Ready s → n < 65536 → openBucket s.dev n = some b →
    (∀ j q p, q < 4 → qState b j q = .deliver p → deliverBad p = none → deliverMay s.dev b j q = false → Yields (.ringDeliver n j q) s s.dev) ∧
    (∀ j q p, q < 4 → qState b j q = .deliver p → (∀ l ∈ p.blocks, l.length = 32) → deliverBad p = none → deliverMay s.dev b j q = true →
      sweeping s.dev = false → s.dev.upset = [] →
      ∃ t b', exec (.ringDeliver n j q) s = .next t ∧ openBucket t.dev n = some b' ∧ qState b' j q = .done ∧ t.dev.cells = s.dev.cells ∧
        t.dev.ports = s.dev.ports ∧ t.dev.reg = s.dev.reg ∧
        ∀ a, (∀ k, k < 32 →
            let row := (tileOrigin b j).1 + 16 * q + k / 2
            let col := (tileOrigin b j).2 + 32 * (k % 2)
            let g := (fld (bkWord b 4) 47 0 + row * fld (bkWord b 5) 31 0 + col) % 2 ^ 48
            (a < g ∨ g + 32 ≤ a) ∧ a ≠ (fld (bkWord b 6) 47 0 + row * fld (bkWord b 5) 63 32 + col / 32) % 2 ^ 48) →
          rdB t.dev a = rdB s.dev a) ∧
    Yields (.bucketComplete n) s
      (if bucketDone s.dev b then
        { s.dev with ring := { s.dev.ring with buckets := s.dev.ring.buckets.filter (·.num != n), done := s.dev.ring.done + 1 } }
      else s.dev)

/-- R401: once DH is complete position 0 sends its list of maxima; it sends the final list once that has come back. The last position adopts a final list and
sends nothing on. Rests on choices of the model: log entry 24. -/
def Obligations.MaximaPasses : Prop :=
  ∀ s : State, Ready s → ringP s.dev ≠ 1 → (s.dev.ring.rx.all fun e => e.1 != 0) = true →
    (ringPos s.dev = 0 → dhDone s.dev = true → s.dev.ring.firstSent = false → Yields (.maximaFirstPass none) s
      { sendMaxima s.dev 3 (ownMaxima s.dev) with ring := { s.dev.ring with firstSent := true } }) ∧
    (∀ l, ringPos s.dev = 0 → s.dev.ring.final = some l → s.dev.ring.secondSent = false → Yields (.maximaSecondPass none) s
      { sendMaxima s.dev 4 l with ring := { s.dev.ring with secondSent := true } }) ∧
    (∀ m, ringPos s.dev ≠ 0 → ringPos s.dev + 1 = ringP s.dev → fabUp s.dev (ringRx s.dev 0) = true → rmType m = 4 →
      s.dev.ring.discard.contains 0 = false → stState s.dev = 1 → rmStamp m = (stLast s.dev + 1) % 2 ^ 48 → rxBytes s.dev 0 + m.length ≤ 65536 → Yields (.maximaSecondPass (some m)) s
      { s.dev with ring := { s.dev.ring with final := some (rmPairs m), secondSent := true } })

/-! ### The fabric and the host link -/

/-- R428, R429, R460, R621: an up port that loses its link shows a LINK fault and retrains; so does the host link. A successful attempt brings the port up with
its peer. A cable that comes or goes leaves an up port as it is and takes a training or failed one to STATE 0.
Rests on choices of the model: log entries 20, 21, 28. -/
def Obligations.LinksComeAndGo : Prop :=
  ∀ (s : State) (p : Nat), s.dev.raised = [] → okFab p = true →
    (live s.dev = true → fabUp s.dev p = true → s.dev.fab.cables.contains p = true →
      ∃ t, exec (.linkLoss p) s = .next t ∧ fabState t.dev p = 1 ∧ FaultShown s.dev t.dev 0 7) ∧
    (live s.dev = true → hostUp s.dev = true → EventRoom s.dev → ∃ t, exec .hostLinkLoss s = .next t ∧ rgf t.dev 0x20_1000 9 8 = 1 ∧ FaultShown s.dev t.dev 0 7 ∧
      stState t.dev = stState s.dev ∧ t.dev.mem = s.dev.mem) ∧
    (∀ peer pport lanes, live s.dev = true → fabState s.dev p = 1 → s.dev.fab.cables.contains p = true → peer < 64 → pport < 12 → EventRoom s.dev →
      ∃ t, exec (.linkTrainingDone p true peer pport lanes) s = .next t ∧ fabUp t.dev p = true ∧ rgf t.dev (fabPort p) 47 42 = peer ∧
        rgf t.dev (fabPort p) 41 38 = pport ∧ t.dev.mem = s.dev.mem ∧ t.dev.cells = s.dev.cells) ∧
    Yields (.cableMate p true) s { s.dev with fab := { s.dev.fab with cables := (s.dev.fab.cables.filter (· != p)) ++ [p] } } ∧
    Yields (.cableMate p false) s
      (if fabState s.dev p = 1 ∨ fabState s.dev p = 3 then
        linkEvent (putRgf { s.dev with fab := { s.dev.fab with cables := s.dev.fab.cables.filter (· != p) } } (fabPort p) 33 32 0) p 0
      else { s.dev with fab := { s.dev.fab with cables := s.dev.fab.cables.filter (· != p) } })

/-- R433, R434, R437, R443, R528: a routed message for another device leaves on the port of its route with one hop more, or, with 15 hops behind it, is discarded
with a LINK fault; so is a message of unknown class; a data marker ends its port's discard, or is recorded. -/
def Obligations.MessagesAreRoutedOrDiscarded : Prop :=
  ∀ (s : State) (p : Nat) (m : FabMsg), Arrives s p → okMsg m = true →
    (∀ q, routed m.cls = true → m.dst ≠ myDev s.dev → ¬(m.cls = 1 ∧ m.kind = 15) → flushed_ s.dev p m = false → m.hops ≠ 15 →
      (if m.cls = 3 then relayPort s.dev m.dst else letterPort s.dev m.dst p) = some q →
      Yields (.routedMessageForward p m) s (sendMsg s.dev q { m with hops := m.hops + 1 })) ∧
    (routed m.cls = true → m.dst ≠ myDev s.dev → ¬(m.cls = 1 ∧ m.kind = 15) → flushed_ s.dev p m = false → m.hops = 15 →
      ∃ t, exec (.routedMessageForward p m) s = .next t ∧ FaultShown s.dev t.dev 0 7 ∧ (∀ x ∈ t.dev.tx, x ∈ s.dev.tx ∨ x.2 ≠ { m with hops := m.hops + 1 })) ∧
    (m.cls = 0 ∨ 6 < m.cls → ∃ t, exec (.unknownClassDiscard p m) s = .next t ∧ FaultShown s.dev t.dev 0 7) ∧
    (m.cls = 1 → m.kind = 15 → s.dev.fab.discard.contains p = false → Yields (.flushMarkerReceive p m) s
      { s.dev with fab := { s.dev.fab with marks := putMark s.dev.fab.marks p (fld m.w1.toNat 47 0) } }) ∧
    (m.cls = 1 → m.kind = 15 → s.dev.fab.discard.contains p = true → stState s.dev ≠ 0 → Yields (.flushMarkerReceive p m) s
      (fabFlushEnd { s.dev with fab := { s.dev.fab with discard := s.dev.fab.discard.filter (· != p) } }))

/-- R439–R441, R458: while owner 50 has its almanac classes (R332) the engine polls PROD of a transfer ring, takes the next entry of the ring that its round serves (CONS advances in memory, and the transfer becomes
the last active one), sends its next message, and counts at LCELL once its source is read. Rests on choices of the model: log entries 10, 12, 21. -/
def Obligations.FabricTransfersMove : Prop :=
  ∀ s : State, Ready s → s.dev.upset = [] →
    (∀ r, r < 49 → bitAt (xring s.dev r) 63 = true → s.dev.fab.overrun.contains r = false → ownerMay s.dev 50 false (xringBase s.dev r) 4 = true →
      let b := engRead s.dev (xringBase s.dev r) 4
      (leNat b.1 + 2 ^ 32 - xringCons b.2 r) % 2 ^ 32 ≤ 2 ^ fld (xring b.2 r) 51 48 →
      Yields (.fabRingPoll r) s { b.2 with fab := { b.2.fab with prod := tabPut (fun _ => 0) b.2.fab.prod r (leNat b.1) } }) ∧
    (∀ r o o', s.dev.fab.xs.length < 32 → nextXring s.dev = some r →
      let e := xringEntry s.dev r (xringCons s.dev r)
      let x := xferOfEntry s.dev.nextId r (xringCons s.dev r) fun k => leNat (((rdBytes s.dev e 32).drop (8 * k)).take 8)
      place s.dev e = .hbm o → place s.dev (xringBase s.dev r + 32) = .hbm o' → blockedPlace s.dev (.hbm o) = false → entryFault s.dev x = none →
      beingWritten s.dev e 32 = false → ownerMay s.dev 50 false e 32 = true → ownerMay s.dev 50 true (xringBase s.dev r + 32) 4 = true →
      Yields (.fabTransferTake none) s
        { wrBytes s.dev (xringBase s.dev r + 32) (leBytes 4 ((xringCons s.dev r + 1) % 2 ^ 32)) with
          nextId := s.dev.nextId + 1, fab := { s.dev.fab with next := (r + 1) % 49, xs := s.dev.fab.xs ++ [x] } }) ∧
    (∀ k x p, s.dev.fab.xs[k]? = some x → x.pos < x.len → letterPort s.dev x.ddev x.idx = some p →
      let n := min 4096 (x.len - x.pos)
      let r := readPieces s.dev (pieces64 (x.src + x.pos) n)
      Movable s (pieces64 (x.src + x.pos) n) → beingWritten s.dev (x.src + x.pos) n = false → linkServes s.dev (pieces64 (x.src + x.pos) n) = true →
      ownerMay s.dev 50 false (x.src + x.pos) n = true →
      ∃ t m, exec (.fabTransferTake (some k)) s = .next t ∧ t.dev.tx = s.dev.tx ++ [(p, m)] ∧ m.body = r.1 ∧ m.dst = x.ddev ∧ m.idx = (if x.loan then x.idx else 0) ∧
        m.cls = (if x.loan then 5 else 1) ∧ m.kind = (if x.pos + n = x.len then 2 else 1) ∧ t.dev.mem = s.dev.mem ∧
        t.dev.fab.xs = s.dev.fab.xs.map fun y => if y.id = x.id then { x with pos := x.pos + n } else y) ∧
    (∀ k x, s.dev.fab.xs[k]? = some x → x.read = false → x.len ≤ x.pos →
      (x.loan = true → Yields (.fabSourceReadDone k) s
        (putFab (if x.lval then engineCount s.dev x.lcell x.lh [] else s.dev) { x with read := true })) ∧
      (x.loan = false → s.dev.fab.flushing = false → stState s.dev ≠ 0 → Yields (.fabSourceReadDone k) s
        { (if x.lval then engineCount s.dev x.lcell x.lh [] else s.dev) with
          fab := { s.dev.fab with xs := s.dev.fab.xs.filter fun y => y.id != x.id } }))

/-- R364, R441, R442, R457, R458: a data message for this device is written at its destination, and the last one counts at RCELL; a loan message does so too, unless its
loan was stopped here; a loan's acknowledgement ends the loan, which is counted and announced. Rests on choices of the model: log entry 19. -/
def Obligations.FabricDataArrives : Prop :=
  ∀ (s : State) (p : Nat) (m : FabMsg), Arrives s p → okMsg m = true → m.dst = myDev s.dev →
    (let ps := pieces64 (fld m.w1.toNat 47 0) m.body.length
     let last := bitAt m.w1.toNat 63
     let d := writePieces s.dev ps m.body
     s.dev.dump = none → m.kind = 1 ∨ m.kind = 2 →
     (m.cls = 5 → s.dev.fab.cut.contains (m.src, m.idx) = true → Yields (.fabDataReceive p m) s (noteLoan s.dev m last)) ∧
     (flushed_ s.dev p m = false → Movable s ps → (ps.any fun q => resetBlocks s.dev (place s.dev q.1)) = false → linkServes s.dev ps = true →
       ownerMay s.dev 50 true (fld m.w1.toNat 47 0) m.body.length = true → (guardPieces s.dev ps m.body).toOption.isSome = true →
       (m.cls = 1 → Yields (.fabDataReceive p m) s (if last && bitAt m.w1.toNat 48 then dataCounted d m.w1.toNat else d)) ∧
       (m.cls = 5 → s.dev.fab.cut.contains (m.src, m.idx) = false → last = false → Yields (.fabDataReceive p m) s (noteLoan d m false)))) ∧
    (∀ x, m.cls = 5 → m.kind = 3 → (s.dev.fab.xs.find? fun x => x.loan && x.idx == m.w1.toNat && x.ddev == m.src && decide (x.len ≤ x.pos)) = some x →
      Yields (.loanAckReceive p m) s
        (postEvent (putRgf { s.dev with fab := { s.dev.fab with xs := s.dev.fab.xs.filter fun y => y.id != x.id } } 0x100_0030 31 16
          (satAdd 16 (rgf s.dev 0x100_0030 31 16) 1)) 4 (w64 x.idx) 0))

/-- R444–R447: a relayed NOP is answered to its root; a member's answer is taken off those that its command waits for; TIMEOUT after its last request has left, a relayed command completes with a record that names
the members that have not replied, also while the root's own share goes on. Rests on choices of the model: log entry 19. -/
def Obligations.RelayedCommandsAreAnswered : Prop :=
  ∀ s : State, live s.dev = true → s.dev.raised = [] →
    (∀ p q m, (Instr.relayRequestReceive p m).wf = true → fabUp s.dev p = true → m.dst = myDev s.dev → isReady s.dev = true → opOf (cmdWords m.body) = 0 → s.dev.host.tasks = [] →
      relayPort s.dev m.src = some q → Yields (.relayRequestReceive p m) s
        (sendReply { s.dev with nextId := s.dev.nextId + 1 } m.src (fld m.w1.toNat 63 48) (portIn (cmdWords m.body)) shareOk)) ∧
    (∀ p m t k, (Instr.relayReplyReceive p m).wf = true → fabUp s.dev p = true → m.dst = myDev s.dev →
      (s.dev.host.tasks.find? fun t => t.root.isNone && tagOf t.words == fld m.w1.toNat 63 48 && t.waiting.contains m.src) = some t →
      k ∈ t.waiting → k ≠ m.src →
      ∃ u t', exec (.relayReplyReceive p m) s = .next u ∧ taskOf u.dev t.id = some t' ∧ t'.waiting = t.waiting.filter (· != m.src) ∧
        t'.words = t.words ∧ u.dev.mem = s.dev.mem ∧ u.dev.reg = s.dev.reg ∧ u.dev.cells = s.dev.cells) ∧
    (∀ i t, taskOf s.dev i = some t → t.waiting ≠ [] → requestHeld s.dev t = false → t.sent + rgf s.dev 0x100_0020 31 0 ≤ ticks s.dev →
      (t.ownDone = true ∨ t.accepted = false → Yields (.relayTimeout i) s (writeRecord s.dev t)) ∧
      (t.ownDone = false → t.accepted = true → Yields (.relayTimeout i) s
        (markBusy (putTask (writeRecord s.dev t) { t with waiting := [], closed := true }) t.ring)))

/-- R449, R450: every 4,096 wt a device other than TMASTER asks its sync parent; the parent's reply gives the times; the asker takes the offset in, which steps
the count only while it is not locked and the offset exceeds 8 wt. Rests on choices of the model: log entries 8, 35. -/
def Obligations.WallTicksAreExchanged : Prop :=
  ∀ (s : State) (p : Nat), live s.dev = true → s.dev.raised = [] →
    (rgf s.dev 0x100_0000 38 33 ≠ myDev s.dev → (∀ t, s.dev.fab.sync.lastReq = some t → t + 4096 ≤ ticks s.dev) → s.dev.fab.sync.open1 = none →
      syncParent s.dev = some p → Yields .wallTickExchange s
        (sendMsg { s.dev with fab := { s.dev.fab with sync := { s.dev.fab.sync with lastReq := some (ticks s.dev), open1 := some (wt16 s.dev) } } } p
          (ownMsg s.dev 4 (rgf s.dev (fabPort p) 47 42) 1 0 (leBytes 8 (wt16 s.dev))))) ∧
    (∀ m, (Instr.wallTickRequestReceive p m).wf = true → fabUp s.dev p = true → Yields (.wallTickRequestReceive p m) s
      (sendMsg s.dev p (ownMsg s.dev 4 m.src 2 0 (m.body.take 8 ++ leBytes 8 (wt16 s.dev) ++ leBytes 8 (wt16 s.dev))))) ∧
    (∀ m t1, (Instr.wallTickReplyReceive p m).wf = true → fabUp s.dev p = true → s.dev.fab.sync.open1 = some t1 → leNat (m.body.take 8) = t1 →
      let t (k : Nat) : Int := leNat ((m.body.drop (8 * k)).take 8)
      let o := Int.tdiv ((t 1 - t 0) + (t 2 - (wt16 s.dev : Int))) 2
      ∃ u, exec (.wallTickReplyReceive p m) s = .next u ∧ u.dev.fab.sync.open1 = none ∧ u.dev.fab.sync.missed = 0 ∧
        rgf u.dev 0x100_0010 15 0 = (o % 65536).toNat ∧ u.dev.mem = s.dev.mem ∧ u.dev.cells = s.dev.cells ∧
        (rgf s.dev 0x100_0010 63 63 = 1 ∨ o.natAbs ≤ 128 → u.dev.wt = s.dev.wt) ∧
        (rgf s.dev 0x100_0010 63 63 ≠ 1 → 128 < o.natAbs → u.dev.wt = ((16 * (s.dev.wt : Int) + o) / 16).toNat))

/-- R453, R454: a squall that has not been seen lately is recorded, is held in the squall register unless that holds one, and stops a running step whose docents
all stand; one that has been seen changes nothing. Rests on choices of the model: log entry 30. -/
def Obligations.SquallsStopTheStep : Prop :=
  ∀ (s : State) (p : Nat) (m : FabMsg), Arrives s p → (Instr.squallReceive p m).wf = true →
    let seq := fld (leNat (m.body.take 8)) 63 48
    (squallSeen s.dev m.src seq = true → Yields (.squallReceive p m) s s.dev) ∧
    (squallSeen s.dev m.src seq = false →
      (stState s.dev = 1 → (mapCells s.dev).any (docentRuns s.dev) = false →
        ∃ t, exec (.squallReceive p m) s = .next t ∧ stState t.dev = 2 ∧ (m.src, seq, ticks s.dev) ∈ t.dev.fab.seen ∧
          bitAt (rg t.dev 0x100_0028).toNat 63 = true) ∧
      (stState s.dev = 2 → m.hops ≤ 1 → (s.dev.cells.all fun e => e.2.wait.isNone) = true → EventRoom s.dev →
        ∃ t, exec (.squallReceive p m) s = .next t ∧ (m.src, seq, ticks s.dev) ∈ t.dev.fab.seen ∧
          bitAt (rg t.dev 0x100_0028).toNat 63 = true ∧ t.dev.tx = s.dev.tx ∧ t.dev.cells = s.dev.cells ∧ t.dev.mem = s.dev.mem))

/-- R462, R463, R466: an access of the host through windows 1 to 3 that may be made moves its bytes at once when its class is granted, and else waits; one to bytes that are not
there ends with 0xFF or is discarded, and is counted; one that has waited 100 µs ends so too. The host's own writes drop the device's copies of the lines.
Rests on choices of the model: log entry 29. -/
def Obligations.HostWindowsMoveBytes : Prop :=
  ∀ s : State, s.dev.raised = [] →
    (∀ w off len data, reached s.dev = true → w = 1 ∨ w = 2 ∨ w = 3 →
      let n := match data with | some bs => List.length bs | none => len
      let ps := winPieces w off n
      let granted := grantedAll s.dev (if data.isSome then rgf s.dev 0x20_1010 7 0 else rgf s.dev 0x20_1010 15 8) 49 data.isSome ps
      (isReady s.dev = true → n ≠ 0 → (winBytes w off n).all (winByteOk s.dev) = true → granted = false → Yields (.hostWindowAccess w off len data) s
        { s.dev with host := { s.dev.host with wait := s.dev.host.wait ++ [{ window := w, off := off, len := n, data := data, wt := ticks s.dev }] } }) ∧
      (isReady s.dev = true → n ≠ 0 → (winBytes w off n).all (winByteOk s.dev) = true → granted = true → Movable s ps →
        (∀ bs, data = some bs → (guardPieces s.dev ps bs).toOption.isSome = true → Yields (.hostWindowAccess w off len data) s (writePieces s.dev ps bs)) ∧
        (data = none → Yields (.hostWindowAccess w off len data) s
          { (readPieces s.dev ps).2 with hostResp := s.dev.hostResp ++ [(readPieces s.dev ps).1] })) ∧
      (isReady s.dev = true → (winBytes w off n).all (winByteOk s.dev) = false → Yields (.hostWindowAccess w off len data) s
        { countInvalid s.dev with hostResp := if data.isSome then s.dev.hostResp else s.dev.hostResp ++ [List.replicate n 0xFF#8] })) ∧
    (∀ a rest, live s.dev = true → s.dev.host.wait = a :: rest → a.wt + 10000 ≤ ticks s.dev → Yields .hostAccessTimeout s
      { putRgf { s.dev with host := { s.dev.host with wait := rest } } 0x20_1018 63 32 (satAdd 32 (rgf s.dev 0x20_1018 63 32) 1) with
        hostResp := if a.data.isSome then s.dev.hostResp else s.dev.hostResp ++ [List.replicate a.len 0xFF#8] }) ∧
    (∀ off bs, off + bs.length ≤ 2 ^ 44 → Yields (.hostLineInvalidate off bs) s
      (wrBytes { s.dev with hostLines := s.dev.hostLines.filter fun l => !decide ((hostBase + off) / 64 ≤ l ∧ l * 64 < hostBase + off + bs.length) }
        (hostBase + off) bs))

/-- R469–R471, R475: enabling a command ring sets CONS to DB; disabling clears ERR, and a size out of range is a ring error; a doorbell within the ring sets DB alone, one
beyond it is a ring error too. A NOP that is taken advances CONS,
and its completion record with STATUS 0 and its TAG is in the command's completion slot. -/
def Obligations.CommandRingsServe : Prop :=
  ∀ (s : State) (r : Nat), r < 4 →
    (∀ v : W64, Writable s (cqReg r 0) →
      let d := putRg s.dev (cqReg r 0) (v &&& 0xCF00_0FFF_FFFF_FFC0#64)
      (v.getLsbD 63 = false → 4 ≤ fld v.toNat 59 56 → fld v.toNat 59 56 ≤ 12 → Yields (.commandRingEnable r v) s (putRgf d (cqReg r 0x18) 1 1 0)) ∧
      (v.getLsbD 63 = false → fld v.toNat 59 56 < 4 ∨ 12 < fld v.toNat 59 56 →
        Yields (.commandRingEnable r v) s (ringError (putRgf d (cqReg r 0x18) 1 1 0) r)) ∧
      (v.getLsbD 63 = true → (rg s.dev (cqReg r 0)).getLsbD 63 = false → 4 ≤ fld v.toNat 59 56 → fld v.toNat 59 56 ≤ 12 →
        Yields (.commandRingEnable r v) s (putRgf d (cqReg r 0x18) 63 32 (rgf s.dev (cqReg r 0x10) 31 0)))) ∧
    (∀ v : W64, Writable s (cqReg r 0x10) →
      let d := putRg s.dev (cqReg r 0x10) (v &&& 0xFFFF_FFFF#64)
      let gap := (fld v.toNat 31 0 + 2 ^ 32 - rgf s.dev (cqReg r 0x18) 63 32) % 2 ^ 32
      (gap ≤ 2 ^ rgf s.dev (cqReg r 0) 59 56 → Yields (.doorbell r v) s d) ∧
      (2 ^ rgf s.dev (cqReg r 0) 59 56 < gap → rgf s.dev (cqReg r 0x18) 1 1 = 0 → Yields (.doorbell r v) s (ringError d r))) ∧
    (∀ ws, TakesFromRing s r ws → opOf ws = 0 → s.dev.host.tasks = [] →
      let idx := rgf s.dev (cqReg r 0x18) 63 32
      let sz := rgf s.dev (cqReg r 0) 59 56
      let a := hostBase + rgf s.dev (cqReg r 8) 43 6 * 64 + 64 * (idx % 2 ^ sz)
      place s.dev a = .host (a - hostBase) →
      ∃ t, exec .commandTake s = .next t ∧ t.pending = s.pending ∧ ConsAdvanced s.dev t.dev r ∧ t.dev.host.tasks = [] ∧ t.dev.cells = s.dev.cells ∧
        t.dev.ports = s.dev.ports ∧ (∀ b, b < a ∨ a + 64 ≤ b → rdB t.dev b = rdB s.dev b) ∧
        rdN t.dev a 8 = phaseBit idx sz * 2 ^ 63 + tagOf ws)

/-- R480, R482: a PROGLOAD whose source may be read writes its bundles into the program store of every in-map cell below its port; a COPY outside a sweep moves its bytes and counts
at RCELL when asked to; both move host memory only while the link is up. Both commands are then complete. Rests on choices of the model: log entry 14. -/
def Obligations.ProgloadAndCopyComplete : Prop :=
  ∀ (s : State) (i : Nat) (t : HostTask), Ready s → t.waiting = [] → t.accepted = true → t.root = none →
    (pendingTask s.dev i 7 = some t →
      let src := argOf t.words 0 % 2 ^ 48
      let first := fld (argOf t.words 1) 11 0
      let n := fld (argOf t.words 1) 28 16 + 1
      let ps := pieces64 src (32 * n)
      src % 32 = 0 → n ≤ 4096 → Movable s ps → linkServes s.dev ps = true →
      ((galleriesUnder s.dev (portIn t.words)).all fun g => ps.all fun q => match memPort s.dev q.1 with
        | some m => classGranted s.dev (progClass s.dev g (match place s.dev q.1 with | .hbm o => crosses s.dev g o | _ => true)) g false m
        | none => true) = true →
      ∃ u, exec (.progloadComplete i) s = .next u ∧ taskOf u.dev i = none ∧
        ∀ c ∈ cellsUnder s.dev (portIn t.words), resetting s.dev (cellPort c) = false → ∀ k, k < n →
          progWord (cellOf u.dev c) ((first + k) % 4096) = BitVec.ofNat 256 (leNat (((readPieces s.dev ps).1.drop (32 * k)).take 32))) ∧
    (pendingTask s.dev i 8 = some t →
      let n := fld (argOf t.words 2) 31 0
      let from_ := pieces64 (argOf t.words 0 % 2 ^ 48) n
      let to_ := pieces64 (argOf t.words 1 % 2 ^ 48) n
      let a := argOf t.words 3
      Movable s (from_ ++ to_) → linkServes s.dev (from_ ++ to_) = true → sweeping s.dev = false → grantedAll s.dev (rgf s.dev 0x20_1010 15 8) 49 false from_ = true →
      grantedAll s.dev (rgf s.dev 0x20_1010 7 0) 49 true to_ = true →
      ∃ u, exec (.copyComplete i) s = .next u ∧ taskOf u.dev i = none ∧
        (∀ c, cellOf u.dev c = cellOf (if bitAt a 0 then engineCount s.dev (fld a 17 9) (fld a 8 4) [] else s.dev) c) ∧
        ∀ b, b < hostBase → rdB u.dev b = rdB (writePieces s.dev to_ (readPieces s.dev from_).1) b)

/-- R478, R479: the oldest held event is written at PROD of the event queue, which advances, or goes to ROOT by relay. An event forwarded to this device is held
for its queue; forwarded report bytes go to their host address. Rests on choices of the model: log entry 19. -/
def Obligations.EventsReachTheirQueue : Prop :=
  ∀ s : State, live s.dev = true → s.dev.raised = [] →
    (∀ e rest, s.dev.host.held = e :: rest → s.dev.host.dropped = 0 →
      (fwdRoot s.dev = none → bitAt (rg s.dev 0x20_0100).toNat 63 = true → hostUp s.dev = true →
        (rgf s.dev 0x20_0110 63 32 + 2 ^ 32 - rgf s.dev 0x20_0108 31 0) % 2 ^ 32 < 2 ^ rgf s.dev 0x20_0100 59 56 →
        ∃ t, exec .eventWrite s = .next t ∧ t.dev.host = { s.dev.host with held := rest } ∧ t.dev.cells = s.dev.cells ∧
          rgf t.dev 0x20_0110 63 32 = (rgf s.dev 0x20_0110 63 32 + 1) % 2 ^ 32 ∧
          t.dev.mem = (engWrite s.dev
            (hostBase + rgf s.dev 0x20_0100 43 5 * 32 + 32 * (rgf s.dev 0x20_0110 63 32 % 2 ^ rgf s.dev 0x20_0100 59 56))
            (wordBytes (eventWords e (phaseBit (rgf s.dev 0x20_0110 63 32) (rgf s.dev 0x20_0100 59 56))))).mem) ∧
      (∀ root p, fwdRoot s.dev = some root → relayPort s.dev root = some p → Yields .eventWrite s
        { s.dev with tx := s.dev.tx ++ [(p, ownMsg s.dev 3 root 3 0 (wordBytes (eventWords e 0)))], host := { s.dev.host with held := rest } })) ∧
    (∀ p m, (Instr.forwardedEventReceive p m).wf = true → fabUp s.dev p = true → m.dst = myDev s.dev →
      (m.w1.getLsbD 63 = true → Yields (.forwardedEventReceive p m) s (hostWrite s.dev (fld m.w1.toNat 47 0) m.body)) ∧
      (m.w1.getLsbD 63 = false → s.dev.host.held.length < 256 →
        ∃ e, Yields (.forwardedEventReceive p m) s { s.dev with host := { s.dev.host with held := s.dev.host.held ++ [e] } } ∧
          e.type = fld (leNat (m.body.take 8)) 63 56 ∧ e.dev = fld (leNat (m.body.take 8)) 55 50 ∧ e.stamp = fld (leNat (m.body.take 8)) 47 0))

/-! ### Accession and the ledger -/

/-- R488, R491, R495, R499: outside a pending accession a write of a register with ST fields goes into the crate, and a discard empties it. A check that found nothing
lets the accession wait for its apply; one that did, and the apply, end it: STATE returns to 0 with the reason. Rests on choices of the model: log entry 11. -/
def Obligations.CrateAndAccession : Prop :=
  ∀ s : State,
    (∀ off (v : W64), Writable s off → stMask off ≠ 0 → (off < 0x200_0000 ∨ 0x240_0000 ≤ off) → accPending s.dev = false →
      s.dev.acc.crate.length < 8192 → Yields (.crateWrite off v) s
        { s.dev with acc := { s.dev.acc with crate := tabPut (fun _ => none) s.dev.acc.crate off (some (v &&& stMask off)) } }) ∧
    (∀ v : W64, Writable s 0x10_0030 → accPending s.dev = false → Yields (.crateDiscard v) s
      (if v.getLsbD 0 then putRgf { s.dev with acc := { s.dev.acc with crate := [], img := none } } 0x10_0000 2 2 0 else s.dev)) ∧
    (Ready s → accState s.dev = 1 → (s.dev.acc.mode = 1 → s.dev.wt < (rg s.dev 0x10_0010).toNat) → s.dev.acc.fail = none → s.dev.acc.mode ≠ 2 →
      Yields .conditionCheck s (putRgf s.dev 0x10_0000 1 0 2)) ∧
    (∀ k o, Ready s → accState s.dev = 1 → s.dev.acc.mode ≠ 1 → s.dev.acc.fail = some (k, o) → k < 256 →
      ∃ t, exec .conditionCheck s = .next t ∧ accState t.dev = 0 ∧ rgf t.dev 0x10_0000 63 56 = k ∧ t.dev.acc.crate = s.dev.acc.crate ∧
        t.dev.cells = s.dev.cells) ∧
    (Ready s → accState s.dev = 2 → (s.dev.acc.mode = 1 → (rg s.dev 0x10_0010).toNat ≤ s.dev.wt) → pickFail s.dev (stateFails s.dev) = none →
      s.dev.upset = [] → ∃ t, exec .accessionApply s = .next t ∧ accState t.dev = 0 ∧ rgf t.dev 0x10_0000 63 56 = 0 ∧ t.dev.acc.crate = [] ∧
        rg t.dev 0x10_0018 = w64 s.dev.wt)

/-- R508–R510, R512: a write of LDG_UPD with GO starts an update unless one runs or an accession is pending, which gives RESULT 0x40; an update that was refused
ends with its RESULT and leaves the flash; one that read back as programmed has written its target copy, which is selected.
Rests on choices of the model: log entry 16. -/
def Obligations.LedgerUpdates : Prop :=
  ∀ s : State,
    (∀ v : W64, Writable s 0x10_1010 → s.dev.upset = [] →
      (v.getLsbD 0 = false → Yields (.ledgerUpdate v) s (putRg s.dev 0x10_1010 (v &&& 0xFFFF_FFFF_FFC0#64))) ∧
      (v.getLsbD 0 = true → rgf s.dev 0x10_1000 4 4 = 1 ∨ accPending s.dev = true → Yields (.ledgerUpdate v) s
        (putRgf (putRg s.dev 0x10_1010 (v &&& 0xFFFF_FFFF_FFC0#64)) 0x10_1000 15 8 0x40)) ∧
      (v.getLsbD 0 = true → rgf s.dev 0x10_1000 4 4 = 0 → accPending s.dev = false →
        ∃ t u, exec (.ledgerUpdate v) s = .next t ∧ rgf t.dev 0x10_1000 4 4 = 1 ∧ t.dev.sec.upd = some u ∧ u.target = updTarget s.dev ∧
          t.dev.mem = s.dev.mem ∧ t.dev.sec.flash = s.dev.sec.flash)) ∧
    (∀ u rb, live s.dev = true → s.dev.raised = [] → s.dev.sec.upd = some u → updateWaits s.dev = false →
      (∀ k, u.fail = some k → k < 256 → k ≠ 0 → EventRoom s.dev → ∃ t, exec (.ledgerUpdateDone rb) s = .next t ∧ t.dev.sec.upd = none ∧ rgf t.dev 0x10_1000 4 4 = 0 ∧
        rgf t.dev 0x10_1000 15 8 = k ∧ t.dev.sec.flash = s.dev.sec.flash ∧ t.dev.mem = s.dev.mem) ∧
      (u.fail = none → rb = true → u.target = 1 ∨ u.target = 2 → ∃ t, exec (.ledgerUpdateDone rb) s = .next t ∧ t.dev.sec.upd = none ∧
        rgf t.dev 0x10_1000 4 4 = 0 ∧ rgf t.dev 0x10_1000 15 8 = 0 ∧ rgf t.dev 0x10_1000 1 0 = u.target ∧
        t.dev.sec.flash = (programCopy s.dev u.target u.bytes).sec.flash))

/-! ### Fault log, counters, trace, resets -/

/-- R519, R556: a write of FLT_CTL with its bit 0 empties the log and clears OVF; one of CNT_CTL with CLEAR sets every counter to 0, and FREEZE follows its bit 0. -/
def Obligations.LogAndCountersClear : Prop :=
  ∀ (s : State) (v : W64),
    (Writable s 0x40_0008 → Yields (.faultLogClear v) s
      (if v.getLsbD 0 then putRgf (putRgf { s.dev with flog := [] } 0x40_0000 7 7 0) 0x40_0000 6 0 0 else s.dev)) ∧
    (Writable s 0x307_0008 → v.getLsbD 1 = false → Yields (.counterFreeze v) s (putRg s.dev 0x307_0008 (v &&& 1))) ∧
    (Writable s 0x307_0008 → v.getLsbD 1 = true → ∃ t, exec (.counterClear v) s = .next t ∧ (∀ c, cellOf t.dev c = clearCounts (cellOf s.dev c)) ∧
      rg t.dev 0x307_0008 = v &&& 1 ∧ rg t.dev 0x307_0000 = 0 ∧ (∀ g, g < 48 → rg t.dev (0x307_0100 + 8 * g) = 0) ∧ t.dev.mem = s.dev.mem ∧
      t.dev.ports = s.dev.ports)

/-- R544, R547, R548: a SYNC that is due enters the gallery's trace buffer with the wall tick; enabling a stream sets its write pointer to 0; a piece of
the buffer moves into the region in a slot at hand, and the write pointer advances. Rests on choices of the model: log entry 12. -/
def Obligations.TraceEntersAndStreams : Prop :=
  ∀ s : State,
    (∀ c, clocked s.dev = true → s.dev.raised = [] → okCell c = true → (cellOf s.dev c).traceOn = true → (cellOf s.dev c).trun = none →
      ((cellOf s.dev c).tsync + 1048576 > ticks s.dev → Yields (.traceSyncPeriodic c) s s.dev) ∧
      ((cellOf s.dev c).tsync + 1048576 ≤ ticks s.dev → (galOf s.dev (galleryOfCell c)).dropped = 0 → (galOf s.dev (galleryOfCell c)).resync = [] →
        16 ≤ traceRoom s.dev (galleryOfCell c) →
        ∃ t w, exec (.traceSyncPeriodic c) s = .next t ∧ (cellOf t.dev c).tsync = ticks s.dev ∧ w.toNat / 2 ^ 57 = 7 * 8 + c % 8 ∧
          (galOf t.dev (galleryOfCell c)).trace = (galOf s.dev (galleryOfCell c)).trace ++ [w, BitVec.ofNat 64 s.dev.wt] ∧
          t.dev.mem = s.dev.mem ∧ t.dev.reg = s.dev.reg)) ∧
    (∀ g (v : W64), okGallery g = true → Writable s (trcReg g 0) →
      let d := modGal (putRg s.dev (trcReg g 0) (v &&& 0xFF00_FFFF_FFFF_0000#64)) g fun x => { x with tstop := false }
      Yields (.traceStreamEnable g v) s (if v.getLsbD 63 && !(rg s.dev (trcReg g 0)).getLsbD 63 then putRg d (trcReg g 8) 0 else d)) ∧
    (∀ g o, clocked s.dev = true → s.dev.raised = [] → okGallery g = true → portUp s.dev (galleryPort g) = true → (rg s.dev (trcReg g 0)).getLsbD 63 = true →
      (galOf s.dev g).tstop = false → (galOf s.dev g).dropped = 0 →
      let wp := (rg s.dev (trcReg g 8)).toNat
      let a := fld (rg s.dev (trcReg g 0)).toNat 47 16 * 0x1_0000 + wp % trcSize s.dev g
      let n := min (min (8 * (galOf s.dev g).trace.length) (64 - a % 64)) (trcSpace s.dev g) / 8
      place s.dev a = .hbm o → trcSlot s.dev (hbmPort s.dev o) = true → n ≠ 0 →
      Yields (.traceStream g) s (modGal (putRg (engWrite (takeSlot s.dev (hbmPort s.dev o)) a (wordBytes ((galOf s.dev g).trace.take n))) (trcReg g 8)
        (w64 ((wp + 8 * n) % 2 ^ 64))) g fun y => { y with trace := y.trace.drop n }))

/-- R428, R522, R526, R560: a warm reset takes its links down to retrain after 2 µs, a wipe's end ends a compute reset and leads a warm one whose links
have gone down to retraining, and the host link's retraining ends that. A dump that the engine has written ends with STATE 2, and one that met a write fault with STATE 3.
Rests on choices of the model: log entries 20, 33. -/
def Obligations.ResetsAndDumpsEnd : Prop :=
  ∀ s : State, live s.dev = true → s.dev.raised = [] →
    (∀ r, s.dev.rst = some r → rgf s.dev 0x40_0010 7 6 = 2 → r.down = false → r.start + 200 ≤ ticks s.dev →
      ∃ t, exec .warmLinksDown s = .next t ∧ t.dev.rst = some { r with down := true } ∧ t.dev.cells = s.dev.cells ∧
        ∀ p, p < 12 → fabState t.dev p = if s.dev.fab.cables.contains p then 1 else 0) ∧
    (∀ r, s.dev.rst = some r → rgf s.dev 0x40_0010 5 4 = 2 → EventRoom s.dev →
      (rgf s.dev 0x40_0010 7 6 = 1 → ∃ t, exec .wipeComplete s = .next t ∧ t.dev.rst = none ∧ inReset t.dev = false ∧
        rgf t.dev 0x40_0010 39 32 = 100 ∧ rg t.dev 0x40_0018 = w64 s.dev.wt ∧ t.dev.mem = s.dev.mem ∧ t.dev.cells = s.dev.cells) ∧
      (rgf s.dev 0x40_0010 7 6 = 2 → r.down = false → Yields .wipeComplete s s.dev) ∧
      (rgf s.dev 0x40_0010 7 6 = 2 → r.down = true → ∃ t, exec .wipeComplete s = .next t ∧ t.dev.rst = some { r with wiped := true } ∧ rgf t.dev 0x40_0010 5 4 = 3 ∧
        rgf t.dev 0x20_1000 9 8 = 1 ∧ t.dev.mem = s.dev.mem ∧ t.dev.cells = s.dev.cells)) ∧
    (∀ n, rgf s.dev 0x40_0010 5 4 = 3 → (∀ r, s.dev.rst = some r → r.down = true) → n = 16 ∨ n = 8 → ∃ t, exec (.warmRetrainDone n) s = .next t ∧ t.dev.rst = none ∧ inReset t.dev = false ∧
      hostUp t.dev = true ∧ rgf t.dev 0x20_1000 4 0 = n ∧ t.dev.host.out = [] ∧ t.dev.cells = s.dev.cells) ∧
    (∀ ds o o', s.dev.dump = some ds → rgf s.dev 0x305_0008 1 0 = 1 → ds.task = none → place s.dev (dumpBase s.dev) = .depot o →
      place s.dev (dumpBase s.dev + dumpLen - 1) = .depot o' →
      ∀ ok, ∃ t, exec (.dumpDone ok) s = .next t ∧ rgf t.dev 0x305_0008 1 0 = (if ok then 2 else 3) ∧ t.dev.dump = some ds ∧ t.dev.cells = s.dev.cells ∧
        ∀ a, a < dumpBase s.dev → rdB t.dev a = rdB s.dev a)

/-! ### Power, clocks, boot -/

/-- R573, R576, R577, R588, R590: a new voltage of the same band shows in SUP_VIN; a band that has lasted too long starts an orderly freeze with its fault; below
40 V for 50 µs, and at a thermal shutdown, the module loses power and keeps its fuses and host memory; it powers on once the input is back.
Rests on choices of the model: log entries 8, 33. -/
def Obligations.SupplyAndPower : Prop :=
  ∀ s : State, s.dev.raised = [] →
    (∀ mV pin, mV ≤ 80000 → pin < 65536 → s.dev.pwr.on = true → bandOf mV = s.dev.pwr.band →
      ∃ t, exec (.supplyVoltageChange mV pin) s = .next t ∧ rgf t.dev 0x80_0110 15 0 = mV / 10 ∧ rgf t.dev 0x80_0110 47 32 = pin ∧
        t.dev.pwr.band = s.dev.pwr.band ∧ t.dev.pwr.bandWt = s.dev.pwr.bandWt ∧ t.dev.cells = s.dev.cells ∧ t.dev.mem = s.dev.mem) ∧
    (live s.dev = true → rgf s.dev pwrStat 0 0 = 0 →
      (s.dev.pwr.band = 1 ∧ s.dev.pwr.bandWt + 100000 ≤ ticks s.dev ∨ s.dev.pwr.band = 3 ∧ s.dev.pwr.bandWt + 1000000 ≤ ticks s.dev →
        ∃ t, exec .supplyBandExpiry s = .next t ∧ rgf t.dev pwrStat 0 0 = 1 ∧ t.dev.pwr.freeze.isSome = true ∧ FaultShown s.dev t.dev 0 9 ∧
          ∀ c, c < nCells → (cellOf t.dev c).running = false) ∧
      (s.dev.pwr.band = 2 → Yields .supplyBandExpiry s s.dev)) ∧
    (let lost (t : State) : Prop := t.dev.pwr.on = false ∧ t.dev.sec.fuses = s.dev.sec.fuses ∧ t.dev.cells = [] ∧ t.dev.reg = [] ∧
       (∀ a, rdB t.dev a = if hostBase ≤ a then rdB s.dev a else 0) ∧
       (s.dev.sec.upd = none → s.dev.sec.mbox = none → t.dev.sec.flash = s.dev.sec.flash)
     (s.dev.pwr.on = true → s.dev.pwr.band = 0 → s.dev.pwr.bandWt + 5000 ≤ ticks s.dev → ∃ t, exec .shutdown s = .next t ∧ lost t) ∧
     (s.dev.pwr.on = true → ∃ t, exec .thermalShutdown s = .next t ∧ lost t)) ∧
    (s.dev.pwr.on = false → 2 ≤ s.dev.pwr.band → ∃ t, exec .powerOn s = .next t ∧ t.dev.pwr.on = true ∧ isReady t.dev = false ∧
      t.dev.sec.fuses = s.dev.sec.fuses ∧ t.dev.cells = [])

/-- R564, R573–R575: a rail out of regulation and a root that loses lock start an orderly freeze with its fault; the compute dies then stop once nothing is under
way; the freeze lifts once its condition has been gone for 10 ms, but never after a lost lock. Rests on choices of the model: log entry 27. -/
def Obligations.OrderlyFreeze : Prop :=
  ∀ s : State, live s.dev = true → s.dev.raised = [] →
    (∀ die, okDie die = true →
      (∃ t, exec (.railOutOfRegulation die) s = .next t ∧ rgf t.dev pwrStat 0 0 = 1 ∧ t.dev.pwr.freeze.isSome = true ∧ FaultShown s.dev t.dev 0 9 ∧
        ∀ c, c < nCells → (cellOf t.dev c).running = false) ∧
      (∃ t, exec (.pllLockLoss die) s = .next t ∧ t.dev.pwr.lost = true ∧ t.dev.pwr.freeze.isSome = true ∧ FaultShown s.dev t.dev 0 9 ∧
        ∀ c, c < nCells → (cellOf t.dev c).running = false)) ∧
    (s.dev.pwr.freeze.isSome = true → s.dev.pwr.stopped = false → (s.dev.cells.all fun e => e.2.due.isEmpty) = true → Yields .freezeEdgesStop s
      { s.dev with pwr := { s.dev.pwr with stopped := true, stopWt := ticks s.dev } }) ∧
    (s.dev.pwr.lost = true → Yields .freezeLift s s.dev) ∧
    (s.dev.pwr.stopped = true → s.dev.pwr.lost = false → (∀ c, c < nCells → (cellOf s.dev c).traceOn = false) →
      (∃ g, s.dev.pwr.good = some g ∧ g + 1000000 ≤ ticks s.dev) → (∃ k, s.dev.pwr.cool = some k ∧ k + 1000000 ≤ ticks s.dev) →
      ∃ t, exec .freezeLift s = .next t ∧ t.dev.pwr.freeze = none ∧ t.dev.pwr.stopped = false ∧ t.dev.pwr.supplyAlert = false ∧
        t.dev.pwr.thermAlert = false ∧ rgf t.dev pwrStat 1 0 = 0 ∧ t.dev.cells = s.dev.cells)

/-- R568, R570, R584–R587: a newly tripped detector counts in TRIPS and sets the stretch to CDIV / 2 from three root cycles on; an untripped wing loses one of its stretch
after an edge. A reading of the sensors shows the hottest of each die. A boundary of the power controller gates the galleries that the cap asks for.
Rests on choices of the model: log entries 8, 27. -/
def Obligations.ClocksAndSensors : Prop :=
  ∀ s : State, s.dev.raised = [] →
    (∀ g, live s.dev = true → okGallery g = true → (wingOf s.dev (g / 12)).tripped.contains g = false →
      Yields (.droopTrip g true) s
        (putWing (putRgf s.dev (clkStr (g / 12)) 55 48 (satAdd 8 (rgf s.dev (clkStr (g / 12)) 55 48) 1)) (g / 12)
          { wingOf s.dev (g / 12) with
            tripped := ((wingOf s.dev (g / 12)).tripped.filter (· != g)) ++ [g], stretch := cdiv s.dev / 2
            prev := wingStretch s.dev (wingOf s.dev (g / 12)), from_ := s.dev.root + 3, decay := false })) ∧
    (∀ w, clocked s.dev = true → w < 4 → (wingOf s.dev w).tripped = [] → (wingOf s.dev w).decay = true → Yields (.stretchDecay w) s
      (putWing s.dev w { wingOf s.dev w with stretch := (wingOf s.dev w).stretch - 1, decay := false })) ∧
    (∀ l : List Int, live s.dev = true → l.length = 72 → (∀ t ∈ l, -32768 ≤ t ∧ t < 1600) → rgf s.dev pwrStat 1 1 = 0 → EventRoom s.dev →
      ∃ t, exec (.thermalSensorRead l) s = .next t ∧ (∀ k, k < 5 → tnow t.dev k = maxReading (dieReadings l k)) ∧ t.dev.pwr.sensed = true ∧
        t.dev.pwr.thermAlert = false ∧ t.dev.pwr.freeze = s.dev.pwr.freeze ∧ t.dev.cells = s.dev.cells ∧ t.dev.mem = s.dev.mem) ∧
    (∀ p1 p10, live s.dev = true → p1 < 2 ^ 32 → p10 < 2 ^ 32 →
      let q := rgf s.dev 0x80_0100 31 0
      (q = 0 ∨ s.dev.wt % q ≠ 0 → Yields (.powerQuantum p1 p10) s s.dev) ∧
      (q ≠ 0 → s.dev.wt % q = 0 → s.dev.pwr.quantum ≠ some s.dev.wt → EventRoom s.dev → ∃ t, exec (.powerQuantum p1 p10) s = .next t ∧
        t.dev.pwr.quantum = some s.dev.wt ∧ rgf t.dev pwrStat 47 40 = capGates s.dev p1 p10 ∧
        t.dev.pwr.gated = rotate s.dev 0 48 s.dev.pwr.r (capGates s.dev p1 p10) ∧ t.dev.mem = s.dev.mem))

/-- R522, R577, R595: MOD_RST_N low holds the module in reset; its release starts a cold reset: registers, cells and device memory are as at reset, and fuses and host
memory stay. The boot ends with BOOTFAIL when no firmware slot passes, and with READY when one does and the links have trained.
Rests on choices of the model: log entries 3, 9, 28. -/
def Obligations.ColdResetAndBoot : Prop :=
  ∀ s : State, s.dev.raised = [] →
    (live s.dev = true → Yields .modRstNAssert s { s.dev with pwr := { s.dev.pwr with rstN := false } }) ∧
    (s.dev.pwr.on = true → s.dev.pwr.rstN = false → ∃ t, exec .coldReset s = .next t ∧ live t.dev = true ∧ t.dev.reg = [] ∧ t.dev.cells = [] ∧
      t.dev.ports = [] ∧ t.dev.sec.fuses = s.dev.sec.fuses ∧ t.dev.fab.cables = s.dev.fab.cables ∧ isReady t.dev = false ∧
      (∀ a, rdB t.dev a = if hostBase ≤ a then rdB s.dev a else 0) ∧ (s.dev.sec.upd = none → s.dev.sec.mbox = none → t.dev.sec.flash = s.dev.sec.flash)) ∧
    (∀ ms n, live s.dev = true → booting s.dev = true → ms.length = 8 →
      (bootSlot s.dev = none → Yields (.bootComplete ms n) s (putRgf s.dev 0 1 1 1)) ∧
      (∀ k, bootSlot s.dev = some k → lcs s.dev < 3 → linksTrained s.dev = true →
        ∃ t, exec (.bootComplete ms n) s = .next t ∧ isReady t.dev = true ∧ bootFail t.dev = false ∧ (t.dev.sec.boot.map (·.slot)) = some k ∧
          t.dev.alm = none ∧ t.dev.sec.flash = s.dev.sec.flash))

/-! ### Security and the module -/

/-- R601, R603, R605–R609, R613: ATTEST in BLANK ends with RESULT 2, else with RESULT 0 once the report is placed. A transition with a good token on an idle
device and blown fuses resets the module in its new state; a debug unlock opens its scopes, burns one UNLK bit and leaves a compute reset running; OP 4 in BLANK
provisions and resets. Rests on choices of the model: log entries 8, 15. -/
def Obligations.SecurityCommandsEnd : Prop :=
  ∀ s : State, live s.dev = true → s.dev.raised = [] →
    let ended (t : State) (k : Nat) : Prop := rgf t.dev 0xC0_0000 63 56 = k ∧ rgf t.dev 0xC0_0000 1 1 = 0 ∧ t.dev.sec.cmd = none
    (secRuns s.dev 1 = true → lcs s.dev = 0 → ∃ t, exec .attest s = .next t ∧ ended t 2 ∧ t.dev.mem = s.dev.mem) ∧
    (secRuns s.dev 1 = true → lcs s.dev ≠ 0 → lcs s.dev ≠ 4 → reportFits s.dev (rgf s.dev 0xC0_0020 47 6 * 64) = true →
      ∃ t, exec .attest s = .next t ∧ ended t 0 ∧ t.dev.sec.fuses = s.dev.sec.fuses ∧ t.dev.cells = s.dev.cells) ∧
    (∀ burnt, secRuns s.dev 2 = true →
      (∀ key, rgf s.dev 0xC0_0018 7 4 = 4 → transitionKey s.dev 4 = some key → tokenFails s.dev 1 (tokenArg (token s.dev) == 4) key = none →
        notIdle s.dev = false → 4 - lcs s.dev ≤ burnt → ∃ t, exec (.transition burnt) s = .next t ∧ lcs t.dev = 4 ∧ isReady t.dev = false ∧ t.dev.cells = []) ∧
      (transitionKey s.dev (rgf s.dev 0xC0_0018 7 4) = none → ∃ t, exec (.transition burnt) s = .next t ∧ ended t 2 ∧ t.dev.sec.fuses = s.dev.sec.fuses)) ∧
    (secRuns s.dev 3 = true → unlockRefused s.dev = false → unlockFails s.dev = none → notIdle s.dev = false → s.dev.upset = [] →
      ∃ t, exec (.debugUnlock true) s = .next t ∧ ended t 0 ∧ rgf t.dev 0xC0_0000 3 3 = 1 ∧ t.dev.sec.fuses.unlk = s.dev.sec.fuses.unlk + 1 ∧
        t.dev.sec.scopes = tokenArg (token s.dev) ∧ inReset t.dev = true) ∧
    (∀ burnt, secRuns s.dev 4 = true →
      (lcs s.dev ≠ 0 → ∃ t, exec (.provision burnt) s = .next t ∧ ended t 2) ∧
      (lcs s.dev = 0 → notIdle s.dev = false → 3 ≤ burnt → ∃ t, exec (.provision burnt) s = .next t ∧ lcs t.dev = 1 ∧ t.dev.sec.fuses.dkey.isSome = true ∧
        isReady t.dev = false))

/-- R627, R628, R634: a mailbox operation is taken from either side while none runs, and busy until it ends. An erase leaves ones in its sector, a program of
an erased page its bytes, a read those of the flash; RESULT is then 0. One that a rule refuses ends with its RESULT and changes no flash.
Rests on choices of the model: log entry 16. -/
def Obligations.FlashMailbox : Prop :=
  ∀ s : State, live s.dev = true → s.dev.raised = [] →
    (let taken (t : State) (op : Nat) : Prop := rgf t.dev 0xC0_2000 7 7 = 1 ∧ rgf t.dev 0xC0_2000 1 0 = op ∧
       t.dev.sec.mbox = some (op, s.dev.sec.upd.isSome) ∧ t.dev.sec.flash = s.dev.sec.flash ∧ t.dev.mem = s.dev.mem
     ∀ bus, (bus = false → Writable s 0xC0_2000) → (bus = true → mgmtServes s.dev 0xC0_2000 1 = true) → rgf s.dev 0xC0_2000 7 7 = 0 →
      (∃ t, exec (.flashErase bus) s = .next t ∧ taken t 1) ∧ (∃ t, exec (.flashProgram bus) s = .next t ∧ taken t 2) ∧
      (∃ t, exec (.flashRead bus) s = .next t ∧ taken t 3)) ∧
    (∀ op b, s.dev.sec.mbox = some (op, b) → (b && s.dev.sec.upd.isSome) = false →
      let ended (t : State) (k : Nat) : Prop := rgf t.dev 0xC0_2000 15 8 = k ∧ rgf t.dev 0xC0_2000 7 7 = 0 ∧ t.dev.sec.mbox = none ∧ t.dev.mem = s.dev.mem
      (∀ k, mbRefused s.dev op = some k → ∃ t, exec (.flashOperationDone true) s = .next t ∧ ended t k ∧ t.dev.sec.flash = s.dev.sec.flash) ∧
      (mbRefused s.dev op = none →
        (op = 1 → ∃ t, exec (.flashOperationDone true) s = .next t ∧ ended t 0 ∧
          ∀ i, i < 4096 → flashByte t.dev (mbAddr s.dev / 4096 * 4096 + i) = 0xFF#8) ∧
        (op = 2 → (flashRead s.dev (mbAddr s.dev) 256).all (· == 0xFF) = true → ∃ t, exec (.flashOperationDone true) s = .next t ∧ ended t 0 ∧
          flashRead t.dev (mbAddr s.dev) 256 = regBytes s.dev 0xC0_2100 32) ∧
        (op = 3 → ∃ t, exec (.flashOperationDone true) s = .next t ∧ ended t 0 ∧ t.dev.sec.flash = s.dev.sec.flash ∧
          regBytes t.dev 0xC0_2100 32 = flashRead s.dev (mbAddr s.dev) 256)))

/-- R624, R625, R626, R631, R632: while the module is powered the bus assigns its address, writes whole registers of the security block where the state serves
them and discards the rest, and its value stays in a register that the host link writes in the same NCLK; a TAP instruction is
selected in its die, as BYPASS where it may not act; TAP reset selects IDCODE in every die. Rests on choices of the model: log entries 18, 39. -/
def Obligations.ManagementAndBoundaryScan : Prop :=
  ∀ s : State, s.dev.pwr.on = true → s.dev.raised = [] →
    (∀ a, a < 128 → Yields (.dynamicAddressAssign a) s { s.dev with sec := { s.dev.sec with addr := some a } }) ∧
    Yields .tapReset s { s.dev with sec := { s.dev.sec with tap := List.replicate 5 .idcode } } ∧
    (∀ die o, okDie die = true →
      let acts : TapOp := match o with
        | .vendor k => if bitAt s.dev.sec.scopes 0 then .vendor k else .bypass
        | o => if tapHolds o && s.dev.pwr.rstN then .bypass else o
      Yields (.tapInstruction die o) s { s.dev with sec := { s.dev.sec with tap := s.dev.sec.tap.set die acts } }) ∧
    (∀ off bs, off < 2 ^ 32 → bs.length < 16 →
      (bs.length < 8 ∨ mgmtServes s.dev off (w64 (leNat (bs.take 8))) = false → Yields (.mgmtBusWrite off bs) s s.dev) ∧
      (8 ≤ bs.length → mgmtServes s.dev off (w64 (leNat (bs.take 8))) = true → 0xC0_0080 ≤ off → off < 0xC0_00C0 → off % 8 = 0 →
        Yields (.mgmtBusWrite off bs) s (noteBus (putRg s.dev off (w64 (leNat (bs.take 8)))) off (w64 (leNat (bs.take 8)))))) ∧
    (∀ off v w, 0xC0_0080 ≤ off → off < 0xC0_00C0 → off % 8 = 0 → lockw s.dev = false → busNow s.dev off = [w] → hostReg s.dev off v = .ok (putRg (putRg s.dev off v) off w))
end

