-- ==== Sys2Proof/Laws/State.lean ====
section
/-! SUPPORT. What each update of the device leaves: one lemma per field and update. -/
namespace Sys2Proof.Machine

section putRg
variable (d : Dev) (o : Nat) (v : W64)
@[simp] theorem putRg_mem : (putRg d o v).mem = d.mem := rfl
@[simp] theorem putRg_upset : (putRg d o v).upset = d.upset := rfl
@[simp] theorem putRg_fresh : (putRg d o v).fresh = d.fresh := rfl
@[simp] theorem putRg_nextId : (putRg d o v).nextId = d.nextId := rfl
@[simp] theorem putRg_root : (putRg d o v).root = d.root := rfl
@[simp] theorem putRg_wt : (putRg d o v).wt = d.wt := rfl
@[simp] theorem putRg_wings : (putRg d o v).wings = d.wings := rfl
@[simp] theorem putRg_cells : (putRg d o v).cells = d.cells := rfl
@[simp] theorem putRg_ports : (putRg d o v).ports = d.ports := rfl
@[simp] theorem putRg_gals : (putRg d o v).gals = d.gals := rfl
@[simp] theorem putRg_actMap : (putRg d o v).actMap = d.actMap := rfl
@[simp] theorem putRg_groups : (putRg d o v).groups = d.groups := rfl
@[simp] theorem putRg_alm : (putRg d o v).alm = d.alm := rfl
@[simp] theorem putRg_almBase : (putRg d o v).almBase = d.almBase := rfl
@[simp] theorem putRg_slotUsed : (putRg d o v).slotUsed = d.slotUsed := rfl
@[simp] theorem putRg_stash : (putRg d o v).stash = d.stash := rfl
@[simp] theorem putRg_arcAt : (putRg d o v).arcAt = d.arcAt := rfl
@[simp] theorem putRg_ended : (putRg d o v).ended = d.ended := rfl
@[simp] theorem putRg_sweep : (putRg d o v).sweep = d.sweep := rfl
@[simp] theorem putRg_sent : (putRg d o v).sent = d.sent := rfl
@[simp] theorem putRg_hostLines : (putRg d o v).hostLines = d.hostLines := rfl
@[simp] theorem putRg_scl : (putRg d o v).scl = d.scl := rfl
@[simp] theorem putRg_raised : (putRg d o v).raised = d.raised := rfl
@[simp] theorem putRg_flog : (putRg d o v).flog = d.flog := rfl
@[simp] theorem putRg_faultWt : (putRg d o v).faultWt = d.faultWt := rfl
@[simp] theorem putRg_tx : (putRg d o v).tx = d.tx := rfl
@[simp] theorem putRg_hostResp : (putRg d o v).hostResp = d.hostResp := rfl
@[simp] theorem putRg_stp : (putRg d o v).stp = d.stp := rfl
@[simp] theorem putRg_ring : (putRg d o v).ring = d.ring := rfl
@[simp] theorem putRg_fab : (putRg d o v).fab = d.fab := rfl
@[simp] theorem putRg_host : (putRg d o v).host = d.host := rfl
@[simp] theorem putRg_dump : (putRg d o v).dump = d.dump := rfl
@[simp] theorem putRg_histPend : (putRg d o v).histPend = d.histPend := rfl
@[simp] theorem putRg_devGauge : (putRg d o v).devGauge = d.devGauge := rfl
@[simp] theorem putRg_devMax : (putRg d o v).devMax = d.devMax := rfl
@[simp] theorem putRg_srvEnt : (putRg d o v).srvEnt = d.srvEnt := rfl
@[simp] theorem putRg_survey : (putRg d o v).survey = d.survey := rfl
@[simp] theorem putRg_acc : (putRg d o v).acc = d.acc := rfl
@[simp] theorem putRg_pwr : (putRg d o v).pwr = d.pwr := rfl
@[simp] theorem putRg_rst : (putRg d o v).rst = d.rst := rfl
@[simp] theorem putRg_sec : (putRg d o v).sec = d.sec := rfl
end putRg

section putRgf
variable (d : Dev) (o : Nat) (hi : Nat) (lo : Nat) (k : Nat)
@[simp] theorem putRgf_mem : (putRgf d o hi lo k).mem = d.mem := rfl
@[simp] theorem putRgf_upset : (putRgf d o hi lo k).upset = d.upset := rfl
@[simp] theorem putRgf_fresh : (putRgf d o hi lo k).fresh = d.fresh := rfl
@[simp] theorem putRgf_nextId : (putRgf d o hi lo k).nextId = d.nextId := rfl
@[simp] theorem putRgf_root : (putRgf d o hi lo k).root = d.root := rfl
@[simp] theorem putRgf_wt : (putRgf d o hi lo k).wt = d.wt := rfl
@[simp] theorem putRgf_wings : (putRgf d o hi lo k).wings = d.wings := rfl
@[simp] theorem putRgf_cells : (putRgf d o hi lo k).cells = d.cells := rfl
@[simp] theorem putRgf_ports : (putRgf d o hi lo k).ports = d.ports := rfl
@[simp] theorem putRgf_gals : (putRgf d o hi lo k).gals = d.gals := rfl
@[simp] theorem putRgf_actMap : (putRgf d o hi lo k).actMap = d.actMap := rfl
@[simp] theorem putRgf_groups : (putRgf d o hi lo k).groups = d.groups := rfl
@[simp] theorem putRgf_alm : (putRgf d o hi lo k).alm = d.alm := rfl
@[simp] theorem putRgf_almBase : (putRgf d o hi lo k).almBase = d.almBase := rfl
@[simp] theorem putRgf_slotUsed : (putRgf d o hi lo k).slotUsed = d.slotUsed := rfl
@[simp] theorem putRgf_stash : (putRgf d o hi lo k).stash = d.stash := rfl
@[simp] theorem putRgf_arcAt : (putRgf d o hi lo k).arcAt = d.arcAt := rfl
@[simp] theorem putRgf_ended : (putRgf d o hi lo k).ended = d.ended := rfl
@[simp] theorem putRgf_sweep : (putRgf d o hi lo k).sweep = d.sweep := rfl
@[simp] theorem putRgf_sent : (putRgf d o hi lo k).sent = d.sent := rfl
@[simp] theorem putRgf_hostLines : (putRgf d o hi lo k).hostLines = d.hostLines := rfl
@[simp] theorem putRgf_scl : (putRgf d o hi lo k).scl = d.scl := rfl
@[simp] theorem putRgf_raised : (putRgf d o hi lo k).raised = d.raised := rfl
@[simp] theorem putRgf_flog : (putRgf d o hi lo k).flog = d.flog := rfl
@[simp] theorem putRgf_faultWt : (putRgf d o hi lo k).faultWt = d.faultWt := rfl
@[simp] theorem putRgf_tx : (putRgf d o hi lo k).tx = d.tx := rfl
@[simp] theorem putRgf_hostResp : (putRgf d o hi lo k).hostResp = d.hostResp := rfl
@[simp] theorem putRgf_stp : (putRgf d o hi lo k).stp = d.stp := rfl
@[simp] theorem putRgf_ring : (putRgf d o hi lo k).ring = d.ring := rfl
@[simp] theorem putRgf_fab : (putRgf d o hi lo k).fab = d.fab := rfl
@[simp] theorem putRgf_host : (putRgf d o hi lo k).host = d.host := rfl
@[simp] theorem putRgf_dump : (putRgf d o hi lo k).dump = d.dump := rfl
@[simp] theorem putRgf_histPend : (putRgf d o hi lo k).histPend = d.histPend := rfl
@[simp] theorem putRgf_devGauge : (putRgf d o hi lo k).devGauge = d.devGauge := rfl
@[simp] theorem putRgf_devMax : (putRgf d o hi lo k).devMax = d.devMax := rfl
@[simp] theorem putRgf_srvEnt : (putRgf d o hi lo k).srvEnt = d.srvEnt := rfl
@[simp] theorem putRgf_survey : (putRgf d o hi lo k).survey = d.survey := rfl
@[simp] theorem putRgf_acc : (putRgf d o hi lo k).acc = d.acc := rfl
@[simp] theorem putRgf_pwr : (putRgf d o hi lo k).pwr = d.pwr := rfl
@[simp] theorem putRgf_rst : (putRgf d o hi lo k).rst = d.rst := rfl
@[simp] theorem putRgf_sec : (putRgf d o hi lo k).sec = d.sec := rfl
end putRgf

section wrL
variable (d : Dev) (l : List (Nat × Byte))
@[simp] theorem wrL_reg : (wrL d l).reg = d.reg := rfl
@[simp] theorem wrL_fresh : (wrL d l).fresh = d.fresh := rfl
@[simp] theorem wrL_nextId : (wrL d l).nextId = d.nextId := rfl
@[simp] theorem wrL_root : (wrL d l).root = d.root := rfl
@[simp] theorem wrL_wt : (wrL d l).wt = d.wt := rfl
@[simp] theorem wrL_wings : (wrL d l).wings = d.wings := rfl
@[simp] theorem wrL_cells : (wrL d l).cells = d.cells := rfl
@[simp] theorem wrL_ports : (wrL d l).ports = d.ports := rfl
@[simp] theorem wrL_gals : (wrL d l).gals = d.gals := rfl
@[simp] theorem wrL_actMap : (wrL d l).actMap = d.actMap := rfl
@[simp] theorem wrL_groups : (wrL d l).groups = d.groups := rfl
@[simp] theorem wrL_alm : (wrL d l).alm = d.alm := rfl
@[simp] theorem wrL_almBase : (wrL d l).almBase = d.almBase := rfl
@[simp] theorem wrL_slotUsed : (wrL d l).slotUsed = d.slotUsed := rfl
@[simp] theorem wrL_stash : (wrL d l).stash = d.stash := rfl
@[simp] theorem wrL_arcAt : (wrL d l).arcAt = d.arcAt := rfl
@[simp] theorem wrL_ended : (wrL d l).ended = d.ended := rfl
@[simp] theorem wrL_sweep : (wrL d l).sweep = d.sweep := rfl
@[simp] theorem wrL_sent : (wrL d l).sent = d.sent := rfl
@[simp] theorem wrL_hostLines : (wrL d l).hostLines = d.hostLines := rfl
@[simp] theorem wrL_scl : (wrL d l).scl = d.scl := rfl
@[simp] theorem wrL_raised : (wrL d l).raised = d.raised := rfl
@[simp] theorem wrL_flog : (wrL d l).flog = d.flog := rfl
@[simp] theorem wrL_faultWt : (wrL d l).faultWt = d.faultWt := rfl
@[simp] theorem wrL_tx : (wrL d l).tx = d.tx := rfl
@[simp] theorem wrL_hostResp : (wrL d l).hostResp = d.hostResp := rfl
@[simp] theorem wrL_stp : (wrL d l).stp = d.stp := rfl
@[simp] theorem wrL_ring : (wrL d l).ring = d.ring := rfl
@[simp] theorem wrL_fab : (wrL d l).fab = d.fab := rfl
@[simp] theorem wrL_host : (wrL d l).host = d.host := rfl
@[simp] theorem wrL_dump : (wrL d l).dump = d.dump := rfl
@[simp] theorem wrL_histPend : (wrL d l).histPend = d.histPend := rfl
@[simp] theorem wrL_devGauge : (wrL d l).devGauge = d.devGauge := rfl
@[simp] theorem wrL_devMax : (wrL d l).devMax = d.devMax := rfl
@[simp] theorem wrL_srvEnt : (wrL d l).srvEnt = d.srvEnt := rfl
@[simp] theorem wrL_survey : (wrL d l).survey = d.survey := rfl
@[simp] theorem wrL_acc : (wrL d l).acc = d.acc := rfl
@[simp] theorem wrL_pwr : (wrL d l).pwr = d.pwr := rfl
@[simp] theorem wrL_rst : (wrL d l).rst = d.rst := rfl
@[simp] theorem wrL_sec : (wrL d l).sec = d.sec := rfl
end wrL

section wipeMem
variable (d : Dev) (p : Nat → Bool)
@[simp] theorem wipeMem_reg : (wipeMem d p).reg = d.reg := rfl
@[simp] theorem wipeMem_fresh : (wipeMem d p).fresh = d.fresh := rfl
@[simp] theorem wipeMem_nextId : (wipeMem d p).nextId = d.nextId := rfl
@[simp] theorem wipeMem_root : (wipeMem d p).root = d.root := rfl
@[simp] theorem wipeMem_wt : (wipeMem d p).wt = d.wt := rfl
@[simp] theorem wipeMem_wings : (wipeMem d p).wings = d.wings := rfl
@[simp] theorem wipeMem_cells : (wipeMem d p).cells = d.cells := rfl
@[simp] theorem wipeMem_ports : (wipeMem d p).ports = d.ports := rfl
@[simp] theorem wipeMem_gals : (wipeMem d p).gals = d.gals := rfl
@[simp] theorem wipeMem_actMap : (wipeMem d p).actMap = d.actMap := rfl
@[simp] theorem wipeMem_groups : (wipeMem d p).groups = d.groups := rfl
@[simp] theorem wipeMem_alm : (wipeMem d p).alm = d.alm := rfl
@[simp] theorem wipeMem_almBase : (wipeMem d p).almBase = d.almBase := rfl
@[simp] theorem wipeMem_slotUsed : (wipeMem d p).slotUsed = d.slotUsed := rfl
@[simp] theorem wipeMem_stash : (wipeMem d p).stash = d.stash := rfl
@[simp] theorem wipeMem_arcAt : (wipeMem d p).arcAt = d.arcAt := rfl
@[simp] theorem wipeMem_ended : (wipeMem d p).ended = d.ended := rfl
@[simp] theorem wipeMem_sweep : (wipeMem d p).sweep = d.sweep := rfl
@[simp] theorem wipeMem_sent : (wipeMem d p).sent = d.sent := rfl
@[simp] theorem wipeMem_hostLines : (wipeMem d p).hostLines = d.hostLines := rfl
@[simp] theorem wipeMem_scl : (wipeMem d p).scl = d.scl := rfl
@[simp] theorem wipeMem_raised : (wipeMem d p).raised = d.raised := rfl
@[simp] theorem wipeMem_flog : (wipeMem d p).flog = d.flog := rfl
@[simp] theorem wipeMem_faultWt : (wipeMem d p).faultWt = d.faultWt := rfl
@[simp] theorem wipeMem_tx : (wipeMem d p).tx = d.tx := rfl
@[simp] theorem wipeMem_hostResp : (wipeMem d p).hostResp = d.hostResp := rfl
@[simp] theorem wipeMem_stp : (wipeMem d p).stp = d.stp := rfl
@[simp] theorem wipeMem_ring : (wipeMem d p).ring = d.ring := rfl
@[simp] theorem wipeMem_fab : (wipeMem d p).fab = d.fab := rfl
@[simp] theorem wipeMem_host : (wipeMem d p).host = d.host := rfl
@[simp] theorem wipeMem_dump : (wipeMem d p).dump = d.dump := rfl
@[simp] theorem wipeMem_histPend : (wipeMem d p).histPend = d.histPend := rfl
@[simp] theorem wipeMem_devGauge : (wipeMem d p).devGauge = d.devGauge := rfl
@[simp] theorem wipeMem_devMax : (wipeMem d p).devMax = d.devMax := rfl
@[simp] theorem wipeMem_srvEnt : (wipeMem d p).srvEnt = d.srvEnt := rfl
@[simp] theorem wipeMem_survey : (wipeMem d p).survey = d.survey := rfl
@[simp] theorem wipeMem_acc : (wipeMem d p).acc = d.acc := rfl
@[simp] theorem wipeMem_pwr : (wipeMem d p).pwr = d.pwr := rfl
@[simp] theorem wipeMem_rst : (wipeMem d p).rst = d.rst := rfl
@[simp] theorem wipeMem_sec : (wipeMem d p).sec = d.sec := rfl
end wipeMem

section putCell
variable (d : Dev) (c : Nat) (x : Cell)
@[simp] theorem putCell_mem : (putCell d c x).mem = d.mem := rfl
@[simp] theorem putCell_upset : (putCell d c x).upset = d.upset := rfl
@[simp] theorem putCell_reg : (putCell d c x).reg = d.reg := rfl
@[simp] theorem putCell_fresh : (putCell d c x).fresh = d.fresh := rfl
@[simp] theorem putCell_nextId : (putCell d c x).nextId = d.nextId := rfl
@[simp] theorem putCell_root : (putCell d c x).root = d.root := rfl
@[simp] theorem putCell_wt : (putCell d c x).wt = d.wt := rfl
@[simp] theorem putCell_wings : (putCell d c x).wings = d.wings := rfl
@[simp] theorem putCell_ports : (putCell d c x).ports = d.ports := rfl
@[simp] theorem putCell_gals : (putCell d c x).gals = d.gals := rfl
@[simp] theorem putCell_actMap : (putCell d c x).actMap = d.actMap := rfl
@[simp] theorem putCell_groups : (putCell d c x).groups = d.groups := rfl
@[simp] theorem putCell_alm : (putCell d c x).alm = d.alm := rfl
@[simp] theorem putCell_almBase : (putCell d c x).almBase = d.almBase := rfl
@[simp] theorem putCell_slotUsed : (putCell d c x).slotUsed = d.slotUsed := rfl
@[simp] theorem putCell_stash : (putCell d c x).stash = d.stash := rfl
@[simp] theorem putCell_arcAt : (putCell d c x).arcAt = d.arcAt := rfl
@[simp] theorem putCell_ended : (putCell d c x).ended = d.ended := rfl
@[simp] theorem putCell_sweep : (putCell d c x).sweep = d.sweep := rfl
@[simp] theorem putCell_sent : (putCell d c x).sent = d.sent := rfl
@[simp] theorem putCell_hostLines : (putCell d c x).hostLines = d.hostLines := rfl
@[simp] theorem putCell_scl : (putCell d c x).scl = d.scl := rfl
@[simp] theorem putCell_raised : (putCell d c x).raised = d.raised := rfl
@[simp] theorem putCell_flog : (putCell d c x).flog = d.flog := rfl
@[simp] theorem putCell_faultWt : (putCell d c x).faultWt = d.faultWt := rfl
@[simp] theorem putCell_tx : (putCell d c x).tx = d.tx := rfl
@[simp] theorem putCell_hostResp : (putCell d c x).hostResp = d.hostResp := rfl
@[simp] theorem putCell_stp : (putCell d c x).stp = d.stp := rfl
@[simp] theorem putCell_ring : (putCell d c x).ring = d.ring := rfl
@[simp] theorem putCell_fab : (putCell d c x).fab = d.fab := rfl
@[simp] theorem putCell_host : (putCell d c x).host = d.host := rfl
@[simp] theorem putCell_dump : (putCell d c x).dump = d.dump := rfl
@[simp] theorem putCell_histPend : (putCell d c x).histPend = d.histPend := rfl
@[simp] theorem putCell_devGauge : (putCell d c x).devGauge = d.devGauge := rfl
@[simp] theorem putCell_devMax : (putCell d c x).devMax = d.devMax := rfl
@[simp] theorem putCell_srvEnt : (putCell d c x).srvEnt = d.srvEnt := rfl
@[simp] theorem putCell_survey : (putCell d c x).survey = d.survey := rfl
@[simp] theorem putCell_acc : (putCell d c x).acc = d.acc := rfl
@[simp] theorem putCell_pwr : (putCell d c x).pwr = d.pwr := rfl
@[simp] theorem putCell_rst : (putCell d c x).rst = d.rst := rfl
@[simp] theorem putCell_sec : (putCell d c x).sec = d.sec := rfl
end putCell

section modCell
variable (d : Dev) (c : Nat) (f : Cell → Cell)
@[simp] theorem modCell_mem : (modCell d c f).mem = d.mem := rfl
@[simp] theorem modCell_upset : (modCell d c f).upset = d.upset := rfl
@[simp] theorem modCell_reg : (modCell d c f).reg = d.reg := rfl
@[simp] theorem modCell_fresh : (modCell d c f).fresh = d.fresh := rfl
@[simp] theorem modCell_nextId : (modCell d c f).nextId = d.nextId := rfl
@[simp] theorem modCell_root : (modCell d c f).root = d.root := rfl
@[simp] theorem modCell_wt : (modCell d c f).wt = d.wt := rfl
@[simp] theorem modCell_wings : (modCell d c f).wings = d.wings := rfl
@[simp] theorem modCell_ports : (modCell d c f).ports = d.ports := rfl
@[simp] theorem modCell_gals : (modCell d c f).gals = d.gals := rfl
@[simp] theorem modCell_actMap : (modCell d c f).actMap = d.actMap := rfl
@[simp] theorem modCell_groups : (modCell d c f).groups = d.groups := rfl
@[simp] theorem modCell_alm : (modCell d c f).alm = d.alm := rfl
@[simp] theorem modCell_almBase : (modCell d c f).almBase = d.almBase := rfl
@[simp] theorem modCell_slotUsed : (modCell d c f).slotUsed = d.slotUsed := rfl
@[simp] theorem modCell_stash : (modCell d c f).stash = d.stash := rfl
@[simp] theorem modCell_arcAt : (modCell d c f).arcAt = d.arcAt := rfl
@[simp] theorem modCell_ended : (modCell d c f).ended = d.ended := rfl
@[simp] theorem modCell_sweep : (modCell d c f).sweep = d.sweep := rfl
@[simp] theorem modCell_sent : (modCell d c f).sent = d.sent := rfl
@[simp] theorem modCell_hostLines : (modCell d c f).hostLines = d.hostLines := rfl
@[simp] theorem modCell_scl : (modCell d c f).scl = d.scl := rfl
@[simp] theorem modCell_raised : (modCell d c f).raised = d.raised := rfl
@[simp] theorem modCell_flog : (modCell d c f).flog = d.flog := rfl
@[simp] theorem modCell_faultWt : (modCell d c f).faultWt = d.faultWt := rfl
@[simp] theorem modCell_tx : (modCell d c f).tx = d.tx := rfl
@[simp] theorem modCell_hostResp : (modCell d c f).hostResp = d.hostResp := rfl
@[simp] theorem modCell_stp : (modCell d c f).stp = d.stp := rfl
@[simp] theorem modCell_ring : (modCell d c f).ring = d.ring := rfl
@[simp] theorem modCell_fab : (modCell d c f).fab = d.fab := rfl
@[simp] theorem modCell_host : (modCell d c f).host = d.host := rfl
@[simp] theorem modCell_dump : (modCell d c f).dump = d.dump := rfl
@[simp] theorem modCell_histPend : (modCell d c f).histPend = d.histPend := rfl
@[simp] theorem modCell_devGauge : (modCell d c f).devGauge = d.devGauge := rfl
@[simp] theorem modCell_devMax : (modCell d c f).devMax = d.devMax := rfl
@[simp] theorem modCell_srvEnt : (modCell d c f).srvEnt = d.srvEnt := rfl
@[simp] theorem modCell_survey : (modCell d c f).survey = d.survey := rfl
@[simp] theorem modCell_acc : (modCell d c f).acc = d.acc := rfl
@[simp] theorem modCell_pwr : (modCell d c f).pwr = d.pwr := rfl
@[simp] theorem modCell_rst : (modCell d c f).rst = d.rst := rfl
@[simp] theorem modCell_sec : (modCell d c f).sec = d.sec := rfl
end modCell

section putPort
variable (d : Dev) (p : Nat) (y : Port)
@[simp] theorem putPort_mem : (putPort d p y).mem = d.mem := rfl
@[simp] theorem putPort_upset : (putPort d p y).upset = d.upset := rfl
@[simp] theorem putPort_reg : (putPort d p y).reg = d.reg := rfl
@[simp] theorem putPort_fresh : (putPort d p y).fresh = d.fresh := rfl
@[simp] theorem putPort_nextId : (putPort d p y).nextId = d.nextId := rfl
@[simp] theorem putPort_root : (putPort d p y).root = d.root := rfl
@[simp] theorem putPort_wt : (putPort d p y).wt = d.wt := rfl
@[simp] theorem putPort_wings : (putPort d p y).wings = d.wings := rfl
@[simp] theorem putPort_cells : (putPort d p y).cells = d.cells := rfl
@[simp] theorem putPort_gals : (putPort d p y).gals = d.gals := rfl
@[simp] theorem putPort_actMap : (putPort d p y).actMap = d.actMap := rfl
@[simp] theorem putPort_groups : (putPort d p y).groups = d.groups := rfl
@[simp] theorem putPort_alm : (putPort d p y).alm = d.alm := rfl
@[simp] theorem putPort_almBase : (putPort d p y).almBase = d.almBase := rfl
@[simp] theorem putPort_slotUsed : (putPort d p y).slotUsed = d.slotUsed := rfl
@[simp] theorem putPort_stash : (putPort d p y).stash = d.stash := rfl
@[simp] theorem putPort_arcAt : (putPort d p y).arcAt = d.arcAt := rfl
@[simp] theorem putPort_ended : (putPort d p y).ended = d.ended := rfl
@[simp] theorem putPort_sweep : (putPort d p y).sweep = d.sweep := rfl
@[simp] theorem putPort_sent : (putPort d p y).sent = d.sent := rfl
@[simp] theorem putPort_hostLines : (putPort d p y).hostLines = d.hostLines := rfl
@[simp] theorem putPort_scl : (putPort d p y).scl = d.scl := rfl
@[simp] theorem putPort_raised : (putPort d p y).raised = d.raised := rfl
@[simp] theorem putPort_flog : (putPort d p y).flog = d.flog := rfl
@[simp] theorem putPort_faultWt : (putPort d p y).faultWt = d.faultWt := rfl
@[simp] theorem putPort_tx : (putPort d p y).tx = d.tx := rfl
@[simp] theorem putPort_hostResp : (putPort d p y).hostResp = d.hostResp := rfl
@[simp] theorem putPort_stp : (putPort d p y).stp = d.stp := rfl
@[simp] theorem putPort_ring : (putPort d p y).ring = d.ring := rfl
@[simp] theorem putPort_fab : (putPort d p y).fab = d.fab := rfl
@[simp] theorem putPort_host : (putPort d p y).host = d.host := rfl
@[simp] theorem putPort_dump : (putPort d p y).dump = d.dump := rfl
@[simp] theorem putPort_histPend : (putPort d p y).histPend = d.histPend := rfl
@[simp] theorem putPort_devGauge : (putPort d p y).devGauge = d.devGauge := rfl
@[simp] theorem putPort_devMax : (putPort d p y).devMax = d.devMax := rfl
@[simp] theorem putPort_srvEnt : (putPort d p y).srvEnt = d.srvEnt := rfl
@[simp] theorem putPort_survey : (putPort d p y).survey = d.survey := rfl
@[simp] theorem putPort_acc : (putPort d p y).acc = d.acc := rfl
@[simp] theorem putPort_pwr : (putPort d p y).pwr = d.pwr := rfl
@[simp] theorem putPort_rst : (putPort d p y).rst = d.rst := rfl
@[simp] theorem putPort_sec : (putPort d p y).sec = d.sec := rfl
end putPort

section modPort
variable (d : Dev) (p : Nat) (f : Port → Port)
@[simp] theorem modPort_mem : (modPort d p f).mem = d.mem := rfl
@[simp] theorem modPort_upset : (modPort d p f).upset = d.upset := rfl
@[simp] theorem modPort_reg : (modPort d p f).reg = d.reg := rfl
@[simp] theorem modPort_fresh : (modPort d p f).fresh = d.fresh := rfl
@[simp] theorem modPort_nextId : (modPort d p f).nextId = d.nextId := rfl
@[simp] theorem modPort_root : (modPort d p f).root = d.root := rfl
@[simp] theorem modPort_wt : (modPort d p f).wt = d.wt := rfl
@[simp] theorem modPort_wings : (modPort d p f).wings = d.wings := rfl
@[simp] theorem modPort_cells : (modPort d p f).cells = d.cells := rfl
@[simp] theorem modPort_gals : (modPort d p f).gals = d.gals := rfl
@[simp] theorem modPort_actMap : (modPort d p f).actMap = d.actMap := rfl
@[simp] theorem modPort_groups : (modPort d p f).groups = d.groups := rfl
@[simp] theorem modPort_alm : (modPort d p f).alm = d.alm := rfl
@[simp] theorem modPort_almBase : (modPort d p f).almBase = d.almBase := rfl
@[simp] theorem modPort_slotUsed : (modPort d p f).slotUsed = d.slotUsed := rfl
@[simp] theorem modPort_stash : (modPort d p f).stash = d.stash := rfl
@[simp] theorem modPort_arcAt : (modPort d p f).arcAt = d.arcAt := rfl
@[simp] theorem modPort_ended : (modPort d p f).ended = d.ended := rfl
@[simp] theorem modPort_sweep : (modPort d p f).sweep = d.sweep := rfl
@[simp] theorem modPort_sent : (modPort d p f).sent = d.sent := rfl
@[simp] theorem modPort_hostLines : (modPort d p f).hostLines = d.hostLines := rfl
@[simp] theorem modPort_scl : (modPort d p f).scl = d.scl := rfl
@[simp] theorem modPort_raised : (modPort d p f).raised = d.raised := rfl
@[simp] theorem modPort_flog : (modPort d p f).flog = d.flog := rfl
@[simp] theorem modPort_faultWt : (modPort d p f).faultWt = d.faultWt := rfl
@[simp] theorem modPort_tx : (modPort d p f).tx = d.tx := rfl
@[simp] theorem modPort_hostResp : (modPort d p f).hostResp = d.hostResp := rfl
@[simp] theorem modPort_stp : (modPort d p f).stp = d.stp := rfl
@[simp] theorem modPort_ring : (modPort d p f).ring = d.ring := rfl
@[simp] theorem modPort_fab : (modPort d p f).fab = d.fab := rfl
@[simp] theorem modPort_host : (modPort d p f).host = d.host := rfl
@[simp] theorem modPort_dump : (modPort d p f).dump = d.dump := rfl
@[simp] theorem modPort_histPend : (modPort d p f).histPend = d.histPend := rfl
@[simp] theorem modPort_devGauge : (modPort d p f).devGauge = d.devGauge := rfl
@[simp] theorem modPort_devMax : (modPort d p f).devMax = d.devMax := rfl
@[simp] theorem modPort_srvEnt : (modPort d p f).srvEnt = d.srvEnt := rfl
@[simp] theorem modPort_survey : (modPort d p f).survey = d.survey := rfl
@[simp] theorem modPort_acc : (modPort d p f).acc = d.acc := rfl
@[simp] theorem modPort_pwr : (modPort d p f).pwr = d.pwr := rfl
@[simp] theorem modPort_rst : (modPort d p f).rst = d.rst := rfl
@[simp] theorem modPort_sec : (modPort d p f).sec = d.sec := rfl
end modPort

section putGal
variable (d : Dev) (g : Nat) (y : Gallery)
@[simp] theorem putGal_mem : (putGal d g y).mem = d.mem := rfl
@[simp] theorem putGal_upset : (putGal d g y).upset = d.upset := rfl
@[simp] theorem putGal_reg : (putGal d g y).reg = d.reg := rfl
@[simp] theorem putGal_fresh : (putGal d g y).fresh = d.fresh := rfl
@[simp] theorem putGal_nextId : (putGal d g y).nextId = d.nextId := rfl
@[simp] theorem putGal_root : (putGal d g y).root = d.root := rfl
@[simp] theorem putGal_wt : (putGal d g y).wt = d.wt := rfl
@[simp] theorem putGal_wings : (putGal d g y).wings = d.wings := rfl
@[simp] theorem putGal_cells : (putGal d g y).cells = d.cells := rfl
@[simp] theorem putGal_ports : (putGal d g y).ports = d.ports := rfl
@[simp] theorem putGal_actMap : (putGal d g y).actMap = d.actMap := rfl
@[simp] theorem putGal_groups : (putGal d g y).groups = d.groups := rfl
@[simp] theorem putGal_alm : (putGal d g y).alm = d.alm := rfl
@[simp] theorem putGal_almBase : (putGal d g y).almBase = d.almBase := rfl
@[simp] theorem putGal_slotUsed : (putGal d g y).slotUsed = d.slotUsed := rfl
@[simp] theorem putGal_stash : (putGal d g y).stash = d.stash := rfl
@[simp] theorem putGal_arcAt : (putGal d g y).arcAt = d.arcAt := rfl
@[simp] theorem putGal_ended : (putGal d g y).ended = d.ended := rfl
@[simp] theorem putGal_sweep : (putGal d g y).sweep = d.sweep := rfl
@[simp] theorem putGal_sent : (putGal d g y).sent = d.sent := rfl
@[simp] theorem putGal_hostLines : (putGal d g y).hostLines = d.hostLines := rfl
@[simp] theorem putGal_scl : (putGal d g y).scl = d.scl := rfl
@[simp] theorem putGal_raised : (putGal d g y).raised = d.raised := rfl
@[simp] theorem putGal_flog : (putGal d g y).flog = d.flog := rfl
@[simp] theorem putGal_faultWt : (putGal d g y).faultWt = d.faultWt := rfl
@[simp] theorem putGal_tx : (putGal d g y).tx = d.tx := rfl
@[simp] theorem putGal_hostResp : (putGal d g y).hostResp = d.hostResp := rfl
@[simp] theorem putGal_stp : (putGal d g y).stp = d.stp := rfl
@[simp] theorem putGal_ring : (putGal d g y).ring = d.ring := rfl
@[simp] theorem putGal_fab : (putGal d g y).fab = d.fab := rfl
@[simp] theorem putGal_host : (putGal d g y).host = d.host := rfl
@[simp] theorem putGal_dump : (putGal d g y).dump = d.dump := rfl
@[simp] theorem putGal_histPend : (putGal d g y).histPend = d.histPend := rfl
@[simp] theorem putGal_devGauge : (putGal d g y).devGauge = d.devGauge := rfl
@[simp] theorem putGal_devMax : (putGal d g y).devMax = d.devMax := rfl
@[simp] theorem putGal_srvEnt : (putGal d g y).srvEnt = d.srvEnt := rfl
@[simp] theorem putGal_survey : (putGal d g y).survey = d.survey := rfl
@[simp] theorem putGal_acc : (putGal d g y).acc = d.acc := rfl
@[simp] theorem putGal_pwr : (putGal d g y).pwr = d.pwr := rfl
@[simp] theorem putGal_rst : (putGal d g y).rst = d.rst := rfl
@[simp] theorem putGal_sec : (putGal d g y).sec = d.sec := rfl
end putGal

section modGal
variable (d : Dev) (g : Nat) (f : Gallery → Gallery)
@[simp] theorem modGal_mem : (modGal d g f).mem = d.mem := rfl
@[simp] theorem modGal_upset : (modGal d g f).upset = d.upset := rfl
@[simp] theorem modGal_reg : (modGal d g f).reg = d.reg := rfl
@[simp] theorem modGal_fresh : (modGal d g f).fresh = d.fresh := rfl
@[simp] theorem modGal_nextId : (modGal d g f).nextId = d.nextId := rfl
@[simp] theorem modGal_root : (modGal d g f).root = d.root := rfl
@[simp] theorem modGal_wt : (modGal d g f).wt = d.wt := rfl
@[simp] theorem modGal_wings : (modGal d g f).wings = d.wings := rfl
@[simp] theorem modGal_cells : (modGal d g f).cells = d.cells := rfl
@[simp] theorem modGal_ports : (modGal d g f).ports = d.ports := rfl
@[simp] theorem modGal_actMap : (modGal d g f).actMap = d.actMap := rfl
@[simp] theorem modGal_groups : (modGal d g f).groups = d.groups := rfl
@[simp] theorem modGal_alm : (modGal d g f).alm = d.alm := rfl
@[simp] theorem modGal_almBase : (modGal d g f).almBase = d.almBase := rfl
@[simp] theorem modGal_slotUsed : (modGal d g f).slotUsed = d.slotUsed := rfl
@[simp] theorem modGal_stash : (modGal d g f).stash = d.stash := rfl
@[simp] theorem modGal_arcAt : (modGal d g f).arcAt = d.arcAt := rfl
@[simp] theorem modGal_ended : (modGal d g f).ended = d.ended := rfl
@[simp] theorem modGal_sweep : (modGal d g f).sweep = d.sweep := rfl
@[simp] theorem modGal_sent : (modGal d g f).sent = d.sent := rfl
@[simp] theorem modGal_hostLines : (modGal d g f).hostLines = d.hostLines := rfl
@[simp] theorem modGal_scl : (modGal d g f).scl = d.scl := rfl
@[simp] theorem modGal_raised : (modGal d g f).raised = d.raised := rfl
@[simp] theorem modGal_flog : (modGal d g f).flog = d.flog := rfl
@[simp] theorem modGal_faultWt : (modGal d g f).faultWt = d.faultWt := rfl
@[simp] theorem modGal_tx : (modGal d g f).tx = d.tx := rfl
@[simp] theorem modGal_hostResp : (modGal d g f).hostResp = d.hostResp := rfl
@[simp] theorem modGal_stp : (modGal d g f).stp = d.stp := rfl
@[simp] theorem modGal_ring : (modGal d g f).ring = d.ring := rfl
@[simp] theorem modGal_fab : (modGal d g f).fab = d.fab := rfl
@[simp] theorem modGal_host : (modGal d g f).host = d.host := rfl
@[simp] theorem modGal_dump : (modGal d g f).dump = d.dump := rfl
@[simp] theorem modGal_histPend : (modGal d g f).histPend = d.histPend := rfl
@[simp] theorem modGal_devGauge : (modGal d g f).devGauge = d.devGauge := rfl
@[simp] theorem modGal_devMax : (modGal d g f).devMax = d.devMax := rfl
@[simp] theorem modGal_srvEnt : (modGal d g f).srvEnt = d.srvEnt := rfl
@[simp] theorem modGal_survey : (modGal d g f).survey = d.survey := rfl
@[simp] theorem modGal_acc : (modGal d g f).acc = d.acc := rfl
@[simp] theorem modGal_pwr : (modGal d g f).pwr = d.pwr := rfl
@[simp] theorem modGal_rst : (modGal d g f).rst = d.rst := rfl
@[simp] theorem modGal_sec : (modGal d g f).sec = d.sec := rfl
end modGal

section putWing
variable (d : Dev) (w : Nat) (y : Wing)
@[simp] theorem putWing_mem : (putWing d w y).mem = d.mem := rfl
@[simp] theorem putWing_upset : (putWing d w y).upset = d.upset := rfl
@[simp] theorem putWing_reg : (putWing d w y).reg = d.reg := rfl
@[simp] theorem putWing_fresh : (putWing d w y).fresh = d.fresh := rfl
@[simp] theorem putWing_nextId : (putWing d w y).nextId = d.nextId := rfl
@[simp] theorem putWing_root : (putWing d w y).root = d.root := rfl
@[simp] theorem putWing_wt : (putWing d w y).wt = d.wt := rfl
@[simp] theorem putWing_cells : (putWing d w y).cells = d.cells := rfl
@[simp] theorem putWing_ports : (putWing d w y).ports = d.ports := rfl
@[simp] theorem putWing_gals : (putWing d w y).gals = d.gals := rfl
@[simp] theorem putWing_actMap : (putWing d w y).actMap = d.actMap := rfl
@[simp] theorem putWing_groups : (putWing d w y).groups = d.groups := rfl
@[simp] theorem putWing_alm : (putWing d w y).alm = d.alm := rfl
@[simp] theorem putWing_almBase : (putWing d w y).almBase = d.almBase := rfl
@[simp] theorem putWing_slotUsed : (putWing d w y).slotUsed = d.slotUsed := rfl
@[simp] theorem putWing_stash : (putWing d w y).stash = d.stash := rfl
@[simp] theorem putWing_arcAt : (putWing d w y).arcAt = d.arcAt := rfl
@[simp] theorem putWing_ended : (putWing d w y).ended = d.ended := rfl
@[simp] theorem putWing_sweep : (putWing d w y).sweep = d.sweep := rfl
@[simp] theorem putWing_sent : (putWing d w y).sent = d.sent := rfl
@[simp] theorem putWing_hostLines : (putWing d w y).hostLines = d.hostLines := rfl
@[simp] theorem putWing_scl : (putWing d w y).scl = d.scl := rfl
@[simp] theorem putWing_raised : (putWing d w y).raised = d.raised := rfl
@[simp] theorem putWing_flog : (putWing d w y).flog = d.flog := rfl
@[simp] theorem putWing_faultWt : (putWing d w y).faultWt = d.faultWt := rfl
@[simp] theorem putWing_tx : (putWing d w y).tx = d.tx := rfl
@[simp] theorem putWing_hostResp : (putWing d w y).hostResp = d.hostResp := rfl
@[simp] theorem putWing_stp : (putWing d w y).stp = d.stp := rfl
@[simp] theorem putWing_ring : (putWing d w y).ring = d.ring := rfl
@[simp] theorem putWing_fab : (putWing d w y).fab = d.fab := rfl
@[simp] theorem putWing_host : (putWing d w y).host = d.host := rfl
@[simp] theorem putWing_dump : (putWing d w y).dump = d.dump := rfl
@[simp] theorem putWing_histPend : (putWing d w y).histPend = d.histPend := rfl
@[simp] theorem putWing_devGauge : (putWing d w y).devGauge = d.devGauge := rfl
@[simp] theorem putWing_devMax : (putWing d w y).devMax = d.devMax := rfl
@[simp] theorem putWing_srvEnt : (putWing d w y).srvEnt = d.srvEnt := rfl
@[simp] theorem putWing_survey : (putWing d w y).survey = d.survey := rfl
@[simp] theorem putWing_acc : (putWing d w y).acc = d.acc := rfl
@[simp] theorem putWing_pwr : (putWing d w y).pwr = d.pwr := rfl
@[simp] theorem putWing_rst : (putWing d w y).rst = d.rst := rfl
@[simp] theorem putWing_sec : (putWing d w y).sec = d.sec := rfl
end putWing

section raise
variable (d : Dev) (r : FaultReq)
@[simp] theorem raise_mem : (raise d r).mem = d.mem := rfl
@[simp] theorem raise_upset : (raise d r).upset = d.upset := rfl
@[simp] theorem raise_reg : (raise d r).reg = d.reg := rfl
@[simp] theorem raise_fresh : (raise d r).fresh = d.fresh := rfl
@[simp] theorem raise_nextId : (raise d r).nextId = d.nextId := rfl
@[simp] theorem raise_root : (raise d r).root = d.root := rfl
@[simp] theorem raise_wt : (raise d r).wt = d.wt := rfl
@[simp] theorem raise_wings : (raise d r).wings = d.wings := rfl
@[simp] theorem raise_cells : (raise d r).cells = d.cells := rfl
@[simp] theorem raise_ports : (raise d r).ports = d.ports := rfl
@[simp] theorem raise_gals : (raise d r).gals = d.gals := rfl
@[simp] theorem raise_actMap : (raise d r).actMap = d.actMap := rfl
@[simp] theorem raise_groups : (raise d r).groups = d.groups := rfl
@[simp] theorem raise_alm : (raise d r).alm = d.alm := rfl
@[simp] theorem raise_almBase : (raise d r).almBase = d.almBase := rfl
@[simp] theorem raise_slotUsed : (raise d r).slotUsed = d.slotUsed := rfl
@[simp] theorem raise_stash : (raise d r).stash = d.stash := rfl
@[simp] theorem raise_arcAt : (raise d r).arcAt = d.arcAt := rfl
@[simp] theorem raise_ended : (raise d r).ended = d.ended := rfl
@[simp] theorem raise_sweep : (raise d r).sweep = d.sweep := rfl
@[simp] theorem raise_sent : (raise d r).sent = d.sent := rfl
@[simp] theorem raise_hostLines : (raise d r).hostLines = d.hostLines := rfl
@[simp] theorem raise_scl : (raise d r).scl = d.scl := rfl
@[simp] theorem raise_flog : (raise d r).flog = d.flog := rfl
@[simp] theorem raise_faultWt : (raise d r).faultWt = d.faultWt := rfl
@[simp] theorem raise_tx : (raise d r).tx = d.tx := rfl
@[simp] theorem raise_hostResp : (raise d r).hostResp = d.hostResp := rfl
@[simp] theorem raise_stp : (raise d r).stp = d.stp := rfl
@[simp] theorem raise_ring : (raise d r).ring = d.ring := rfl
@[simp] theorem raise_fab : (raise d r).fab = d.fab := rfl
@[simp] theorem raise_host : (raise d r).host = d.host := rfl
@[simp] theorem raise_dump : (raise d r).dump = d.dump := rfl
@[simp] theorem raise_histPend : (raise d r).histPend = d.histPend := rfl
@[simp] theorem raise_devGauge : (raise d r).devGauge = d.devGauge := rfl
@[simp] theorem raise_devMax : (raise d r).devMax = d.devMax := rfl
@[simp] theorem raise_srvEnt : (raise d r).srvEnt = d.srvEnt := rfl
@[simp] theorem raise_survey : (raise d r).survey = d.survey := rfl
@[simp] theorem raise_acc : (raise d r).acc = d.acc := rfl
@[simp] theorem raise_pwr : (raise d r).pwr = d.pwr := rfl
@[simp] theorem raise_rst : (raise d r).rst = d.rst := rfl
@[simp] theorem raise_sec : (raise d r).sec = d.sec := rfl
end raise

section sendMsg
variable (d : Dev) (p : Nat) (m : FabMsg)
@[simp] theorem sendMsg_mem : (sendMsg d p m).mem = d.mem := rfl
@[simp] theorem sendMsg_upset : (sendMsg d p m).upset = d.upset := rfl
@[simp] theorem sendMsg_reg : (sendMsg d p m).reg = d.reg := rfl
@[simp] theorem sendMsg_fresh : (sendMsg d p m).fresh = d.fresh := rfl
@[simp] theorem sendMsg_nextId : (sendMsg d p m).nextId = d.nextId := rfl
@[simp] theorem sendMsg_root : (sendMsg d p m).root = d.root := rfl
@[simp] theorem sendMsg_wt : (sendMsg d p m).wt = d.wt := rfl
@[simp] theorem sendMsg_wings : (sendMsg d p m).wings = d.wings := rfl
@[simp] theorem sendMsg_cells : (sendMsg d p m).cells = d.cells := rfl
@[simp] theorem sendMsg_ports : (sendMsg d p m).ports = d.ports := rfl
@[simp] theorem sendMsg_gals : (sendMsg d p m).gals = d.gals := rfl
@[simp] theorem sendMsg_actMap : (sendMsg d p m).actMap = d.actMap := rfl
@[simp] theorem sendMsg_groups : (sendMsg d p m).groups = d.groups := rfl
@[simp] theorem sendMsg_alm : (sendMsg d p m).alm = d.alm := rfl
@[simp] theorem sendMsg_almBase : (sendMsg d p m).almBase = d.almBase := rfl
@[simp] theorem sendMsg_slotUsed : (sendMsg d p m).slotUsed = d.slotUsed := rfl
@[simp] theorem sendMsg_stash : (sendMsg d p m).stash = d.stash := rfl
@[simp] theorem sendMsg_arcAt : (sendMsg d p m).arcAt = d.arcAt := rfl
@[simp] theorem sendMsg_ended : (sendMsg d p m).ended = d.ended := rfl
@[simp] theorem sendMsg_sweep : (sendMsg d p m).sweep = d.sweep := rfl
@[simp] theorem sendMsg_sent : (sendMsg d p m).sent = d.sent := rfl
@[simp] theorem sendMsg_hostLines : (sendMsg d p m).hostLines = d.hostLines := rfl
@[simp] theorem sendMsg_scl : (sendMsg d p m).scl = d.scl := rfl
@[simp] theorem sendMsg_raised : (sendMsg d p m).raised = d.raised := rfl
@[simp] theorem sendMsg_flog : (sendMsg d p m).flog = d.flog := rfl
@[simp] theorem sendMsg_faultWt : (sendMsg d p m).faultWt = d.faultWt := rfl
@[simp] theorem sendMsg_hostResp : (sendMsg d p m).hostResp = d.hostResp := rfl
@[simp] theorem sendMsg_stp : (sendMsg d p m).stp = d.stp := rfl
@[simp] theorem sendMsg_ring : (sendMsg d p m).ring = d.ring := rfl
@[simp] theorem sendMsg_fab : (sendMsg d p m).fab = d.fab := rfl
@[simp] theorem sendMsg_host : (sendMsg d p m).host = d.host := rfl
@[simp] theorem sendMsg_dump : (sendMsg d p m).dump = d.dump := rfl
@[simp] theorem sendMsg_histPend : (sendMsg d p m).histPend = d.histPend := rfl
@[simp] theorem sendMsg_devGauge : (sendMsg d p m).devGauge = d.devGauge := rfl
@[simp] theorem sendMsg_devMax : (sendMsg d p m).devMax = d.devMax := rfl
@[simp] theorem sendMsg_srvEnt : (sendMsg d p m).srvEnt = d.srvEnt := rfl
@[simp] theorem sendMsg_survey : (sendMsg d p m).survey = d.survey := rfl
@[simp] theorem sendMsg_acc : (sendMsg d p m).acc = d.acc := rfl
@[simp] theorem sendMsg_pwr : (sendMsg d p m).pwr = d.pwr := rfl
@[simp] theorem sendMsg_rst : (sendMsg d p m).rst = d.rst := rfl
@[simp] theorem sendMsg_sec : (sendMsg d p m).sec = d.sec := rfl
end sendMsg

end Sys2Proof.Machine
end

