-- ==== Sys2Proof/Laws/Tab.lean ====
section
/-! SUPPORT. Laws of the sparse table: reads after writes, and the canonical form that every operation keeps. -/
namespace Sys2Proof.Machine

variable {α : Type}

@[simp] theorem tabGet_nil (d : Nat → α) (k : Nat) : tabGet d [] k = d k := rfl

/-- Read after an insertion at the same key. -/
theorem tabGet_ins_same (d : Nat → α) (t : Tab α) (k : Nat) (x : α) : tabGet d (tabIns t k x) k = x := by
  induction t with
  | nil => simp [tabIns, tabGet]
  | cons e t ih =>
    obtain ⟨j, v⟩ := e
    by_cases h1 : j = k
    · simp [tabIns, tabGet, h1]
    · by_cases h2 : k < j
      · simp [tabIns, tabGet, h1, h2]
      · simp [tabIns, tabGet, h1, h2, ih]

/-- Read after an insertion at another key. -/
theorem tabGet_ins_other (d : Nat → α) (t : Tab α) {k i : Nat} (x : α) (ne : i ≠ k) : tabGet d (tabIns t k x) i = tabGet d t i := by
  have nk : ¬ k = i := fun e => ne e.symm
  induction t with
  | nil => simp [tabIns, tabGet, nk]
  | cons e t ih =>
    obtain ⟨j, v⟩ := e
    by_cases h1 : j = k
    · subst h1; simp [tabIns, tabGet, nk]
    · by_cases h2 : k < j
      · simp [tabIns, tabGet, h1, h2, nk]
      · simp [tabIns, tabGet, h1, h2, ih]

/-- A read after some entries have been dropped. -/
theorem tabGet_clear (d : Nat → α) (t : Tab α) (p : Nat → Bool) (k : Nat) : tabGet d (tabClear p t) k = if p k then d k else tabGet d t k := by
  induction t with
  | nil => simp [tabClear]
  | cons e t ih =>
    obtain ⟨j, v⟩ := e
    unfold tabClear at ih ⊢
    by_cases hp : p j = true
    · simp only [List.filter_cons, hp]
      by_cases h1 : j = k
      · subst h1; simp only [hp, if_true] at ih ⊢; simpa using ih
      · simpa [tabGet, h1] using ih
    · simp only [List.filter_cons, hp]
      by_cases h1 : j = k
      · subst h1; simp [tabGet, hp]
      · simpa [tabGet, h1] using ih

theorem tabDel_clear (t : Tab α) (k : Nat) : tabDel t k = tabClear (fun j => j == k) t := by
  simp only [tabDel, tabClear, bne]

variable [DecidableEq α]

/-- Read after write at the same key. -/
theorem tabGet_put_same (d : Nat → α) (t : Tab α) (k : Nat) (x : α) : tabGet d (tabPut d t k x) k = x := by
  unfold tabPut
  split
  · rename_i e; rw [tabDel_clear, tabGet_clear]; simp [e]
  · exact tabGet_ins_same d t k x

/-- A write leaves every other key. -/
theorem tabGet_put_other (d : Nat → α) (t : Tab α) {k i : Nat} (x : α) (ne : i ≠ k) : tabGet d (tabPut d t k x) i = tabGet d t i := by
  unfold tabPut
  split
  · rw [tabDel_clear, tabGet_clear]; simp [ne]
  · exact tabGet_ins_other d t x ne

/-- A read after a write. -/
theorem tabGet_put (d : Nat → α) (t : Tab α) (k i : Nat) (x : α) : tabGet d (tabPut d t k x) i = if i = k then x else tabGet d t i := by
  split
  · rename_i e; rw [e]; exact tabGet_put_same d t k x
  · rename_i e; exact tabGet_put_other d t x e

/-! ### The canonical form -/

omit [DecidableEq α] in
theorem tabSorted_mono {lo lo' : Nat} {t : Tab α} (h : tabSorted lo t = true) (le : lo' ≤ lo) : tabSorted lo' t = true := by
  cases t with
  | nil => rfl
  | cons e t =>
    obtain ⟨j, v⟩ := e
    simp only [tabSorted, Bool.and_eq_true, decide_eq_true_eq] at h ⊢
    exact ⟨Nat.le_trans le h.1, h.2⟩

omit [DecidableEq α] in
theorem tabSorted_ins {lo k : Nat} {t : Tab α} (h : tabSorted lo t = true) (le : lo ≤ k) (x : α) : tabSorted lo (tabIns t k x) = true := by
  induction t generalizing lo with
  | nil => simp [tabIns, tabSorted, le]
  | cons e t ih =>
    obtain ⟨j, v⟩ := e
    simp only [tabSorted, Bool.and_eq_true, decide_eq_true_eq] at h
    by_cases h1 : j = k
    · subst h1; simp [tabIns, tabSorted, h.1, h.2]
    · by_cases h2 : k < j
      · simp [tabIns, tabSorted, h1, h2, le, h.2]
        try omega
      · simp [tabIns, tabSorted, h1, h2, h.1]
        exact ih h.2 (by omega)

omit [DecidableEq α] in
theorem tabSorted_filter {lo : Nat} {t : Tab α} (p : Nat × α → Bool) (h : tabSorted lo t = true) : tabSorted lo (t.filter p) = true := by
  induction t generalizing lo with
  | nil => rfl
  | cons e t ih =>
    obtain ⟨j, v⟩ := e
    simp only [tabSorted, Bool.and_eq_true, decide_eq_true_eq] at h
    by_cases hp : p (j, v) = true
    · simp [hp, tabSorted, h.1, ih h.2]
    · simp only [List.filter_cons, hp]
      exact tabSorted_mono (ih h.2) (by omega)

omit [DecidableEq α] in
theorem mem_tabIns {t : Tab α} {k : Nat} {x : α} {e : Nat × α} (h : e ∈ tabIns t k x) : e = (k, x) ∨ e ∈ t := by
  induction t with
  | nil => simpa [tabIns] using h
  | cons a t ih =>
    obtain ⟨j, v⟩ := a
    simp only [tabIns] at h
    split at h
    · rcases List.mem_cons.1 h with h | h
      · exact .inl h
      · exact .inr (List.mem_cons_of_mem _ h)
    · split at h
      · rcases List.mem_cons.1 h with h | h
        · exact .inl h
        · exact .inr h
      · rcases List.mem_cons.1 h with h | h
        · exact .inr (h ▸ List.mem_cons_self)
        · exact (ih h).imp id (List.mem_cons_of_mem _)

/-- Dropping entries keeps the canonical form. -/
theorem tabWf_filter (d : Nat → α) {t : Tab α} (p : Nat × α → Bool) (h : tabWf d t = true) : tabWf d (t.filter p) = true := by
  simp only [tabWf, Bool.and_eq_true, List.all_eq_true, Bool.not_eq_true', decide_eq_false_iff_not] at h ⊢
  exact ⟨tabSorted_filter p h.1, fun e he => h.2 e (List.mem_filter.1 he).1⟩

/-- Clearing keys keeps the canonical form. -/
theorem tabWf_clear (d : Nat → α) {t : Tab α} (p : Nat → Bool) (h : tabWf d t = true) : tabWf d (tabClear p t) = true := tabWf_filter d _ h

/-- A write keeps the canonical form. -/
theorem tabWf_put (d : Nat → α) {t : Tab α} (h : tabWf d t = true) (k : Nat) (x : α) : tabWf d (tabPut d t k x) = true := by
  unfold tabPut
  split
  · exact tabWf_filter d _ h
  · rename_i ne
    simp only [tabWf, Bool.and_eq_true, List.all_eq_true, Bool.not_eq_true', decide_eq_false_iff_not] at h ⊢
    refine ⟨tabSorted_ins h.1 (Nat.zero_le _) x, fun e he => ?_⟩
    rcases mem_tabIns he with r | r
    · subst r; exact ne
    · exact h.2 e r

end Sys2Proof.Machine
end

