-- ==== Sys2Proof/Laws/Memory.lean ====
section
/-! SUPPORT. Every operation over memory keeps its canonical form (R8, R303); what a read gives after a write; registers, cells, ports and galleries after
a write of one. -/
namespace Sys2Proof.Machine

/-! ### Memory -/

theorem memPutL_wf (l : List (Nat × Byte)) : ∀ {m : Tab Byte}, memWf m = true → memWf (memPutL l m) = true := by
  induction l with
  | nil => intro m h; exact h
  | cons e t ih => intro m h; exact ih (tabWf_put memDefault h e.1 e.2)

theorem wrL_wf (d : Dev) (l : List (Nat × Byte)) (h : memWf d.mem = true) : memWf (wrL d l).mem = true := memPutL_wf l h

theorem wrBytes_wf (d : Dev) (a : Nat) (bs : List Byte) (h : memWf d.mem = true) : memWf (wrBytes d a bs).mem = true := wrL_wf d _ h

theorem wrN_wf (d : Dev) (a n v : Nat) (h : memWf d.mem = true) : memWf (wrN d a n v).mem = true := wrBytes_wf d a _ h

theorem wipeMem_wf (d : Dev) (p : Nat → Bool) (h : memWf d.mem = true) : memWf (wipeMem d p).mem = true := tabWf_clear memDefault p h

theorem wrUnspec_wf (l : List Nat) : ∀ (d : Dev), memWf d.mem = true → memWf (wrUnspec l d).mem = true := by
  induction l with
  | nil => intro d h; exact h
  | cons a t ih => intro d h; exact ih _ (tabWf_put memDefault h a _)

/-- A byte after writes at other addresses. -/
theorem rdB_memPutL (l : List (Nat × Byte)) : ∀ {m : Tab Byte} {a : Nat}, (∀ e ∈ l, e.1 ≠ a) → tabGet memDefault (memPutL l m) a = tabGet memDefault m a := by
  induction l with
  | nil => intro m a _; rfl
  | cons e t ih =>
    intro m a ne
    simp only [memPutL]
    rw [ih fun x hx => ne x (List.mem_cons_of_mem _ hx)]
    exact tabGet_put_other memDefault m e.2 fun q => ne e List.mem_cons_self q.symm

/-- A byte outside the bytes that are written keeps its value. -/
theorem rdB_wrL_other (d : Dev) (l : List (Nat × Byte)) (a : Nat) (ne : ∀ e ∈ l, e.1 ≠ a) : rdB (wrL d l) a = rdB d a := rdB_memPutL l ne

/-- A byte outside the range that is written keeps its value. -/
theorem rdB_wrBytes_other (d : Dev) (b : Nat) (bs : List Byte) (a : Nat) (out : a < b ∨ b + bs.length ≤ a) : rdB (wrBytes d b bs) a = rdB d a := by
  refine rdB_wrL_other d _ a fun e he => ?_
  obtain ⟨p, hp, rfl⟩ := List.mem_map.1 he
  have hi : p.2 < bs.length := by
    have := List.snd_lt_of_mem_zipIdx hp
    omega
  simp only
  omega

/-- A byte after a wipe. -/
theorem rdB_wipeMem (d : Dev) (p : Nat → Bool) (a : Nat) : rdB (wipeMem d p) a = if p a then 0 else rdB d a := tabGet_clear memDefault d.mem p a

/-! ### Registers, cells, ports, galleries, wings -/

@[simp] theorem rg_putRg (d : Dev) (o o' : Nat) (v : W64) : rg (putRg d o v) o' = if o' = o then v else rg d o' := tabGet_put regReset d.reg o o' v

@[simp] theorem cellOf_putCell (d : Dev) (c c' : Nat) (x : Cell) : cellOf (putCell d c x) c' = if c' = c then x else cellOf d c' :=
  tabGet_put (fun _ => cellReset) d.cells c c' x

@[simp] theorem cellOf_modCell (d : Dev) (c c' : Nat) (f : Cell → Cell) : cellOf (modCell d c f) c' = if c' = c then f (cellOf d c) else cellOf d c' :=
  cellOf_putCell d c c' _

@[simp] theorem portOf_putPort (d : Dev) (p p' : Nat) (x : Port) : portOf (putPort d p x) p' = if p' = p then x else portOf d p' :=
  tabGet_put (fun _ => portReset) d.ports p p' x

@[simp] theorem portOf_modPort (d : Dev) (p p' : Nat) (f : Port → Port) : portOf (modPort d p f) p' = if p' = p then f (portOf d p) else portOf d p' :=
  portOf_putPort d p p' _

@[simp] theorem galOf_putGal (d : Dev) (g g' : Nat) (x : Gallery) : galOf (putGal d g x) g' = if g' = g then x else galOf d g' :=
  tabGet_put (fun _ => galReset) d.gals g g' x

@[simp] theorem galOf_modGal (d : Dev) (g g' : Nat) (f : Gallery → Gallery) : galOf (modGal d g f) g' = if g' = g then f (galOf d g) else galOf d g' :=
  galOf_putGal d g g' _

@[simp] theorem wingOf_putWing (d : Dev) (w w' : Nat) (x : Wing) : wingOf (putWing d w x) w' = if w' = w then x else wingOf d w' :=
  tabGet_put (fun _ => wingReset) d.wings w w' x

end Sys2Proof.Machine
end

