-- ==== Sys2Proof/Laws/Act.lean ====
section
/-! SUPPORT. How a command acts: a command whose event can happen, and one whose event cannot; faults taken up when none waits; a cell that owes
nothing, or one effect. -/
namespace Sys2Proof.Machine

/-- No fault request waits: none is taken up. -/
theorem takeFaults_none {d : Dev} (h : d.raised = []) : takeFaults d = d := by
  simp only [takeFaults, takeRound, h, List.foldl_nil]
  rw [← h]

/-- An effect that raises nothing. -/
theorem lift_ok (s : State) {d : Dev} (h : d.raised = []) : lift s (.ok d) = .next { s with dev := d } := by
  simp [lift, takeFaults_none h]

/-- A command whose event can happen, and whose effect raises nothing. -/
theorem happen_ok {c : Instr} {can : Dev → Bool} {f : Dev → Res Dev} {s : State} {d : Dev} (w : c.wf = true) (h : can s.dev = true)
    (e : f s.dev = .ok d) (r : d.raised = []) : happen c can f s = .next { s with dev := d } := by
  simp [happen, w, h, e, lift_ok s r]

/-- A command whose event can happen: the faults that its effect raises are taken up. -/
theorem happen_faults {c : Instr} {can : Dev → Bool} {f : Dev → Res Dev} {s : State} {d : Dev} (w : c.wf = true) (h : can s.dev = true)
    (e : f s.dev = .ok d) : happen c can f s = .next { s with dev := takeFaults d } := by
  simp [happen, w, h, e, lift]

/-- A command whose event cannot happen changes nothing. -/
theorem happen_not {c : Instr} {can : Dev → Bool} {f : Dev → Res Dev} {s : State} (h : (c.wf && can s.dev) = false) : happen c can f s = .next s := by
  simp [happen, h]

/-- No command touches the queue, and none is refused. -/
theorem happen_cases (c : Instr) (can : Dev → Bool) (f : Dev → Res Dev) (s : State) :
    happen c can f s = .next s ∨ (∃ d, f s.dev = .ok d ∧ happen c can f s = .next { s with dev := takeFaults d }) ∨ ∃ e, happen c can f s = .fault e := by
  unfold happen lift
  split
  · cases hf : f s.dev with
    | ok d => exact .inr (.inl ⟨d, rfl, by simp⟩)
    | error e => exact .inr (.inr ⟨e, by simp⟩)
  · exact .inl rfl

/-- A cell that owes nothing is settled. -/
theorem settle_nil {d : Dev} {c e : Nat} (h : (cellOf d c).due = []) : settle d c e = .ok d := by
  unfold settle settleFuel
  rw [settleN]
  simp [takeDue, h]

/-- A cell whose first effect is not due yet is settled. -/
theorem settle_later {d : Dev} {c e : Nat} {u : Due} {t : List Due} (h : (cellOf d c).due = u :: t) (lt : e < u.edge) : settle d c e = .ok d := by
  unfold settle settleFuel
  rw [settleN]
  simp [takeDue, h, Nat.not_le.2 lt]

/-- A cell that owes one effect: it happens, and if nothing follows from it the cell is settled. -/
theorem settle_one {d d' : Dev} {c e : Nat} {u : Due} (h : (cellOf d c).due = [u]) (le : u.edge ≤ e)
    (r : runMicro (putCell d c { cellOf d c with due := [] }) c u.edge u.op = .ok d') (z : (cellOf d' c).due = []) : settle d c e = .ok d' := by
  unfold settle settleFuel
  rw [settleN]
  simp only [takeDue, h, le, if_true]
  rw [r]
  show settleN 999999 d' c e = .ok d'
  rw [settleN]
  simp [takeDue, z]

end Sys2Proof.Machine
end

