-- ==== Sys2Proof/Laws/Fields.lean ====
section
/-! SUPPORT. Fields of registers: what a write of some bits leaves in them and in the others. -/
namespace Sys2Proof.Machine

/-- A bit of a field. -/
theorem testBit_fld (w hi lo i : Nat) : (fld w hi lo).testBit i = (decide (i < hi + 1 - lo) && w.testBit (lo + i)) := by
  simp [fld, Nat.testBit_mod_two_pow, Nat.testBit_shiftRight]

/-- A bit of a word of which bits `hi` to `lo` have been replaced. -/
theorem getLsbD_setFld (w : W64) {hi lo v i : Nat} (h : hi < 64) :
    (setFld w hi lo v).getLsbD i = if lo ≤ i ∧ i ≤ hi then v.testBit (i - lo) else w.getLsbD i := by
  by_cases g : i < 64
  · have e : (2 ^ (hi + 1 - lo) - 1) <<< lo < 2 ^ 64 ∨ hi < lo := by
      by_cases q : hi < lo
      · exact .inr q
      · left
        rw [Nat.shiftLeft_eq]
        have : 2 ^ (hi + 1 - lo) * 2 ^ lo = 2 ^ (hi + 1) := by rw [← Nat.pow_add]; congr 1; omega
        have p : 2 ^ (hi + 1) ≤ 2 ^ 64 := Nat.pow_le_pow_right (by decide) (by omega)
        have q : 0 < 2 ^ lo := Nat.two_pow_pos lo
        rw [Nat.sub_mul, this]
        omega
    simp only [setFld, BitVec.getLsbD_or, BitVec.getLsbD_and, BitVec.getLsbD_not, BitVec.getLsbD_ofNat, g, decide_true, Bool.true_and,
      Nat.testBit_shiftLeft, Nat.testBit_two_pow_sub_one, Nat.testBit_mod_two_pow]
    by_cases a : lo ≤ i <;> by_cases b : i ≤ hi
    · have c : i - lo < hi + 1 - lo := by omega
      simp [a, b, c]
    · have c : ¬i - lo < hi + 1 - lo := by omega
      simp [a, b, c]
    · simp [a]
    · simp [a]
  · rw [BitVec.getLsbD_of_ge _ _ (by omega), BitVec.getLsbD_of_ge _ _ (by omega), if_neg (by omega)]

/-- The bits written are the value's. -/
theorem fld_setFld_same (w : W64) {hi lo : Nat} (v : Nat) (h : hi < 64) : fld (setFld w hi lo v).toNat hi lo = v % 2 ^ (hi + 1 - lo) := by
  apply Nat.eq_of_testBit_eq
  intro i
  rw [testBit_fld, Nat.testBit_mod_two_pow]
  by_cases g : i < hi + 1 - lo
  · have e := getLsbD_setFld w (lo := lo) (v := v) (i := lo + i) h
    rw [if_pos (by omega), show lo + i - lo = i by omega] at e
    rw [← BitVec.getLsbD, e]
  · simp [g]

/-- Bits outside those written stay. -/
theorem fld_setFld_other (w : W64) {hi lo hi' lo' : Nat} (v : Nat) (h : hi < 64) (ne : hi' < lo ∨ hi < lo') :
    fld (setFld w hi lo v).toNat hi' lo' = fld w.toNat hi' lo' := by
  apply Nat.eq_of_testBit_eq
  intro i
  rw [testBit_fld, testBit_fld]
  by_cases g : i < hi' + 1 - lo'
  · have e := getLsbD_setFld w (lo := lo) (v := v) (i := lo' + i) h
    rw [if_neg (by omega)] at e
    rw [← BitVec.getLsbD, e, BitVec.getLsbD]
  · simp [g]

/-- The field written holds the value. -/
theorem rgf_putRgf_same (d : Dev) (o : Nat) {hi lo : Nat} (v : Nat) (h : hi < 64) : rgf (putRgf d o hi lo v) o hi lo = v % 2 ^ (hi + 1 - lo) := by
  simp [rgf, putRgf, fld_setFld_same _ _ h]

/-- Another field of the register written stays. -/
theorem rgf_putRgf_field (d : Dev) (o : Nat) {hi lo hi' lo' : Nat} (v : Nat) (h : hi < 64) (ne : hi' < lo ∨ hi < lo') :
    rgf (putRgf d o hi lo v) o hi' lo' = rgf d o hi' lo' := by
  simp [rgf, putRgf, fld_setFld_other _ _ h ne]

/-- Another register stays. -/
theorem rgf_putRgf_other (d : Dev) {o o' : Nat} (hi lo hi' lo' v : Nat) (ne : o' ≠ o) : rgf (putRgf d o hi lo v) o' hi' lo' = rgf d o' hi' lo' := by
  simp [rgf, putRgf, ne]

/-- Another register stays. -/
theorem rg_putRgf_other (d : Dev) {o o' : Nat} (hi lo v : Nat) (ne : o' ≠ o) : rg (putRgf d o hi lo v) o' = rg d o' := by
  simp [putRgf, ne]

end Sys2Proof.Machine
end

