-- ==== Sys2Proof/Laws/Frames.lean ====
section
/-! SUPPORT. What shared operations leave as it is: folds over cells or ports, completion of commands, writes of the driver, trace runs. -/
namespace Sys2Proof.Machine

/-- What each step of a fold leaves, the fold leaves. -/
theorem foldl_frame {α β : Type} (F : Dev → β) (f : Dev → α → Dev) (hf : ∀ d a, F (f d a) = F d) : ∀ (l : List α) (d : Dev), F (l.foldl f d) = F d
  | [], _ => rfl
  | a :: t, d => by rw [List.foldl_cons, foldl_frame F f hf t, hf]

/-- A fold that rewrites one cell in each step rewrites the cells listed, each once, and no other. -/
theorem cellOf_foldl_modCell (f : Cell → Cell) : ∀ (l : List Nat) (d : Dev) (c : Nat), l.Nodup →
    cellOf (l.foldl (fun d c => modCell d c f) d) c = if c ∈ l then f (cellOf d c) else cellOf d c
  | [], _, _, _ => by simp
  | a :: t, d, c, h => by
    obtain ⟨na, ht⟩ := List.nodup_cons.mp h
    rw [List.foldl_cons, cellOf_foldl_modCell f t _ c ht]
    by_cases e : c = a
    · subst e; simp [na]
    · simp [e]

/-- Completion touches nothing but the ports. -/
theorem completeN_frame {β : Type} (F : Dev → β) (hf : ∀ d q (f : Port → Port), F (modPort d q f) = F d) :
    ∀ (n : Nat) (d : Dev) (p i : Nat), F (completeN n d p i) = F d := by
  intro n
  induction n with
  | zero => intros; rfl
  | succ n ih =>
    intro d p i
    unfold completeN
    split
    · rfl
    · dsimp only
      split
      · exact hf _ _ _
      · split
        · exact hf _ _ _
        · split
          · rw [hf, hf]
          · rw [ih, hf]

@[simp] theorem complete_raised (d : Dev) (p i : Nat) : (complete d p i).raised = d.raised := completeN_frame (·.raised) (fun _ _ _ => rfl) _ _ _ _
@[simp] theorem complete_mem (d : Dev) (p i : Nat) : (complete d p i).mem = d.mem := completeN_frame (·.mem) (fun _ _ _ => rfl) _ _ _ _
@[simp] theorem complete_reg (d : Dev) (p i : Nat) : (complete d p i).reg = d.reg := completeN_frame (·.reg) (fun _ _ _ => rfl) _ _ _ _
@[simp] theorem complete_cells (d : Dev) (p i : Nat) : (complete d p i).cells = d.cells := completeN_frame (·.cells) (fun _ _ _ => rfl) _ _ _ _

/-- Where edges arrive no halt is in force. -/
theorem clocked_halted {d : Dev} (h : clocked d = true) : halted d = false := by
  simp [clocked] at h
  simp [h]

/-- A write of the driver that reaches its register, and raises nothing. -/
theorem driverWrite_ok {c : Instr} {off : Nat} {v : W64} {s : State} {d : Dev} (w : c.wf = true) (h : Sys2Proof.Safety.Writable s off)
    (e : writeReg s.dev .link off v = .ok d) (r : d.raised = []) : driverWrite c off v s = .next { s with dev := d } := by
  obtain ⟨h1, h2, h3, h4, h5, h6, h7⟩ := h
  refine happen_ok w h1 ?_ r
  simp [linkWrite, hostReg, h7, h3, e]
  intro n
  simp [n] at h6

/-- A cell without a trace run has none to flush. -/
theorem flushRun_none {d : Dev} {c : Nat} (h : (cellOf d c).trun = none) : flushRun d c = d := by simp [flushRun, h]

end Sys2Proof.Machine
end

