-- ==== Sys2Proof/Laws/Residue.lean ====
section
/-! SUPPORT. The residue checks of the arrays (R158, R159, R199) pass on right products, shifts and sums: a block in which no unit errs raises no RESIDUE
fault, so the meanings need not look at it. -/
namespace Sys2Proof.Machine

@[simp] theorem slipSum_nil (p : Slip → Bool) : slipSum [] p = 0 := rfl

/-- R158: a right product agrees with its factors modulo 3. -/
@[simp] theorem mod3Ok_mul (a b : Int) : mod3Ok a b (a * b) = true := by
  simp [mod3Ok, Int.natAbs_mul, Nat.mul_mod]

/-- Shifts of eight places leave residues modulo 255 as they are. -/
theorem pow_modEq (j : Nat) : 2 ^ (j % 8) ≡ 2 ^ j [MOD 255] := by
  conv_rhs => rw [← Nat.div_add_mod j 8, pow_add, pow_mul]
  have h : (2 ^ 8) ^ (j / 8) ≡ 1 ^ (j / 8) [MOD 255] := Nat.ModEq.pow _ (by decide)
  simpa using (h.mul_right (2 ^ (j % 8))).symm

/-- R159: the residue that a product enters is the product's under its shift. -/
theorem residueIn_modEq (p : Int) (j : Nat) : residueIn p j ≡ p * 2 ^ j [ZMOD 255] := by
  have h : ((p.natAbs * 2 ^ (j % 8) % 255 : Nat) : Int) ≡ p.natAbs * 2 ^ j [ZMOD 255] := by
    have := (Nat.mod_modEq (p.natAbs * 2 ^ (j % 8)) 255).trans ((pow_modEq j).mul_left p.natAbs)
    simpa using (Int.natCast_modEq_iff).2 this
  have e : (if p < 0 then -1 else 1) * (p.natAbs * 2 ^ j : Int) = p * 2 ^ j := by
    split <;> rw [Int.natCast_natAbs] <;> [rw [abs_of_neg ‹_›]; rw [abs_of_nonneg (by omega)]] <;> ring
  exact e ▸ h.mul_left (if p < 0 then -1 else 1)

/-- R199: a right shift splits a term into what it keeps and the bits that it drops. -/
theorem shift_modEq (p : Int) (n : Nat) : p / 2 ^ n % 255 * 2 ^ (n % 8) + p % 2 ^ n % 255 ≡ p [ZMOD 255] := by
  have h2 : (2 ^ (n % 8) : Int) ≡ 2 ^ n [ZMOD 255] := by simpa using (Int.natCast_modEq_iff).2 (pow_modEq n)
  have h := ((Int.mod_modEq (p / 2 ^ n) 255).mul h2).add (Int.mod_modEq (p % 2 ^ n) 255)
  rwa [Int.ediv_mul_add_emod] at h

/-- Sums of congruent terms are congruent. -/
theorem sum_modEq {α : Type} (f g : α → Int) (l : List α) (h : ∀ x ∈ l, f x ≡ g x [ZMOD 255]) : (l.map f).sum ≡ (l.map g).sum [ZMOD 255] := by
  induction l with
  | nil => rfl
  | cons x l ih => simpa using (h x (by simp)).add (ih fun y hy => h y (by simp [hy]))

/-- R159: the residue of a part agrees with the integer of its right products. -/
theorem fwdPart_residueOk (k : Nat) (ts : List FwdTerm) : residueOk (ts.map fun t => (fwdProduct [] k t, t.j)) (fwdPart [] k ts) = true := by
  have h := sum_modEq _ _ ts fun t _ => residueIn_modEq (fwdProduct [] k t) t.j
  simp only [residueOk, List.map_map, Function.comp_def, beq_iff_eq]
  exact Int.emod_eq_zero_of_dvd (by simpa [fwdPart] using h.symm.dvd)

/-- R158–R160: no check of a forward block fails without a slip. -/
theorem fwdChecks_nil (parts : List (List FwdTerm)) : fwdChecks [] parts = none := by
  simp [fwdChecks, fwdPart_residueOk]
  simp [fwdProduct]

/-- R199: what a right term of a backward block satisfies: product, shifter, and the residue that it enters. -/
theorem bwdTerm_sound {emax : Int} {k : Nat} {q : Val × Val} {u : BwdTerm} (h : bwdTerm [] emax k q = some u) :
    mod3Ok u.a u.b u.p = true ∧ shiftOk u = true ∧ (if u.sh ≤ 0 then residueIn u.p (-u.sh).toNat else u.t % 255) ≡ u.t [ZMOD 255] := by
  obtain ⟨x, y⟩ := q
  cases x <;> cases y <;> simp only [bwdTerm, slipSum_nil, add_zero, reduceCtorEq] at h
  split at h
  · next z => cases h; simp at z; rcases z with rfl | rfl <;> simp [mod3Ok, shiftOk, residueIn]
  · split at h <;> cases h
    · next hs =>
      refine ⟨?_, by simp [shiftOk, hs], ?_⟩
      · split <;> simp [mod3Ok, Int.natAbs_mul, Nat.mul_mod]
      · rw [if_pos hs]; exact_mod_cast residueIn_modEq _ _
    · next hs =>
      refine ⟨?_, ?_, by simpa [hs] using Int.mod_modEq _ _⟩
      · split <;> simp [mod3Ok, Int.natAbs_mul, Nat.mul_mod]
      · next hs =>
        simp only [shiftOk, if_neg hs, beq_iff_eq]
        exact_mod_cast ((shift_modEq _ _).sub (Int.mod_modEq _ 255)).eq.trans (by simp)

/-- R199: no check of a backward block fails without a slip. -/
theorem bwdChecks_nil (emax : Int) (l : List (Val × Val)) :
    let ts := l.zipIdx.filterMap fun q => bwdTerm [] emax q.2 q.1
    bwdChecks ts (ts.map (·.t)).sum = none := by
  intro ts
  have hs : ∀ u ∈ ts, _ := fun u hu => let ⟨_, _, h⟩ := List.mem_filterMap.1 hu; bwdTerm_sound h
  have hr := sum_modEq (fun u => if u.sh ≤ 0 then residueIn u.p (-u.sh).toNat else u.t % 255) (·.t) ts fun u hu => (hs u hu).2.2
  have h0 := Int.emod_eq_zero_of_dvd hr.symm.dvd
  have h3 : (ts.any fun u => !mod3Ok u.a u.b u.p) = false := by simpa using fun u hu => (hs u hu).1
  have h4 : (ts.any fun u => !shiftOk u) = false := by simpa using fun u hu => (hs u hu).2.1
  simp [bwdChecks, h3, h4, h0]

end Sys2Proof.Machine
end

