-- ==== Sys2Proof/Tests/Slice0.lean ====
section
/-! SUPPORT. Tests: the checks of well-formedness, small steps against the specification's own tables and examples, and a state that meets the hypotheses of each
statement. -/
namespace Sys2Proof.Tests

open Sys2Proof.Machine Sys2Proof.Safety

set_option Elab.async false

/-! ### States -/

/-- A powered device with READY and its host link up, and further registers (offset, value). -/
def st (l : Tab W64) : State :=
  { pending := []
    dev := { coldDev with
      reg := l ++ [(0, 0x4B39_0000_0000_0001#64), (0x20_1000, 0x210#64)], sec := { coldDev.sec with fuses := { coldDev.sec.fuses with vkh := [] } } } }

/-- The state with another device. -/
def on (s : State) (f : Dev → Dev) : State := { s with dev := f s.dev }

/-- A command at the head of a port's queue. -/
def cmd1 (w : W64) : PortCmd := { id := 0, cmd := w, parent := none, out := none, begun := false, know := [] }

/-- A state with a command of operation `op` at the head of port `p`'s queue. -/
def headed (p op : Nat) : State := on (st []) fun d => modPort d p fun x => { x with q := [cmd1 (BitVec.ofNat 64 (op * 2 ^ 60))] }

/-- A state with cell 0 as given. -/
def celled (l : Tab W64) (f : Cell → Cell) : State := on (st l) fun d => modCell d 0 f

/-- Cell 0 owes one effect, due at edge 5 of the 9 that it has received. -/
def owing (op : Micro) (f : Cell → Cell) : State :=
  on (celled [] fun x => f { x with due := [⟨5, 0, 0, op⟩] }) fun d => putWing d 0 { wingReset with edges := 9 }

/-! ### Well-formed commands -/

/-- A message for the tests. -/
def msg0 : FabMsg := { cls := 1, dst := 0, src := 0, hops := 0, kind := 0, w1 := 0, body := [] }

theorem test_wf_ports : ([.registerWrite 4 0, .registerWrite 0x400_0000 0, .unitPortNop 1024, .start 1024, .stop 1024, .hset 1024, .hinc 1024, .hwait 1024,
    .unitPortReset 1024, .fclr 1024, .unitPortPush 1024 0, .commandFanOut 1024, .upReset 1024 0, .unitResetWipeDone 1024, .faultSumClear 1024 0,
    .holdCounterWrite 1024 0 0, .holdCounterWrite 0 32 0, .traceFunnelWrite 1024 0, .crateWrite 4 0].any Instr.wf) = false := by decide

theorem test_wf_cells : ([.bundleIssue 384, .plinthReady 384, .fwdPendingStart 384, .backwardBufferReady 384 0, .backwardBufferReady 0 3, .pairScan 384,
    .bwdPendingStart 384, .dwaccComplete 384, .vsolveComplete 384, .holdOverrun 384, .ringHandover 384, .converterDone 384, .drainPathDone 384,
    .dwPathDone 384, .transcendentalPipeFree 384, .traceSyncPeriodic 384, .dmaTake 48, .dmaPieceTransfer 48 0 true, .dmaComplete 48 0,
    .traceStreamEnable 48 0, .traceStream 48, .droopTrip 48 true].any Instr.wf) = false := by decide

theorem test_wf_fabric : ([.ringPartialReceive 4 none, .ringAdd 65536 0 0, .ringAdd 0 0 4, .ringDeliver 65536 0 0, .ringDeliver 0 0 4, .bucketComplete 65536,
    .flushMarkerReceive 12 msg0, .linkLoss 12, .cableMate 12 true, .routedMessageForward 12 msg0, .fabRingPoll 49, .fabDataReceive 12 msg0,
    .relayRequestReceive 12 msg0, .relayReplyReceive 12 msg0, .wallTickRequestReceive 12 msg0, .wallTickReplyReceive 12 msg0, .squallReceive 12 msg0,
    .loanAckReceive 12 msg0, .forwardedEventReceive 12 msg0, .unknownClassDiscard 12 msg0, .linkTrainingDone 12 true 0 0 0,
    .linkTrainingDone 0 true 64 0 0, .linkTrainingDone 0 true 0 12 0].any Instr.wf) = false := by decide

theorem test_wf_rest : ([.hostWindowAccess 4 0 0 none, .commandRingEnable 4 0, .doorbell 4 0, .warmRetrainDone 4, .counterClear 0, .counterFreeze 2,
    .powerQuantum (2 ^ 32) 0, .powerQuantum 0 (2 ^ 32), .thermalSensorRead [], .thermalSensorRead (List.replicate 72 32768),
    .thermalSensorRead (List.replicate 72 (-32769)), .pllLockLoss 5, .supplyVoltageChange 80001 0, .supplyVoltageChange 0 65536,
    .railOutOfRegulation 5, .mgmtBusWrite (2 ^ 32) [], .tapInstruction 5 .bypass, .bootComplete [] 0, .hostLineInvalidate (2 ^ 44) [0], .stretchDecay 4,
    .dynamicAddressAssign 128].any Instr.wf) = false := by decide

/-! ### States that meet the hypotheses: the machine and the unit tree -/

/-- The same device without power. -/
def off0 : State := on (st []) fun d => { d with pwr := { d.pwr with on := false } }

/-- Compute dies without edges and a host link that is down, at a root cycle. -/
def still (n : Nat) : State := on (st []) fun d => { putRg d 0x20_1000 0 with root := n, pwr := { d.pwr with stopped := true } }

/-- The dies run, and every wing has five root cycles to its next edge. -/
def winding : State := on (st []) fun d => (List.range 4).foldl (fun d w => putWing d w { wingReset with left := 5 }) d

theorem witness_IdleStepIsOneRootCycle :
    ((off0.pending = [] ∧ off0.dev.raised = []) ∧ live off0.dev = false) ∧
    ((still 0).pending = [] ∧ live (still 0).dev = true ∧ halted (still 0).dev = true ∧ (still 0).dev.tx = [] ∧ ((still 0).dev.root + 1) % 84 ≠ 0) ∧
    (live (still 83).dev = true ∧ halted (still 83).dev = true ∧ Undisturbed (still 83).dev ∧ ((still 83).dev.root + 1) % 84 = 0 ∧
      (still 83).dev.fab.sync.slew = 0) ∧
    (winding.pending = [] ∧ winding.dev.raised = [] ∧ clocked winding.dev = true ∧ winding.dev.tx = [] ∧ (winding.dev.root + 1) % 84 ≠ 0 ∧
      ∀ w, w < 4 → 1 < (wingOf winding.dev w).left) := by decide +kernel

theorem witness_IllFormedCommandChangesNothing : Instr.wf (.bundleIssue 384) = false := by decide

/-- A device whose next command resets the TAP. -/
def tapNext : State := { st [] with pending := [.tapReset] }

theorem witness_invariants : tapNext.dev.raised = [] ∧ memoryOk tapNext ∧ ∃ t, step tapNext = .next t := ⟨by decide, by decide, _, rfl⟩

theorem witness_NothingHappensWithoutPower : off0.dev.pwr.on = false ∧ off0.dev.raised = [] ∧ (Instr.flip ≠ .powerOn) := by decide

theorem witness_RegisterWriteFollowsAccessCodes :
    (Writable (st []) 0x20_0118 ∧ ((regAt 0x20_0118).map (·.st)) = some 0 ∧ (writeOwn (st []).dev .link 0x20_0118 7).isNone = true) ∧
    (reached (st []).dev = true ∧ (st []).dev.raised = [] ∧ okReg 0x3FF_FFF8 = true ∧ (regAt 0x3FF_FFF8).isNone = true) := by decide +kernel

theorem witness_CellCounterCommandsComplete :
    isCell 64 = true ∧ HeadOf (headed 64 0) 64 0 (cmd1 0) ∧ isCell 447 = true ∧ HeadOf (headed 447 3) 447 3 (cmd1 (BitVec.ofNat 64 (3 * 2 ^ 60))) ∧
    HeadOf (headed 64 4) 64 4 (cmd1 (BitVec.ofNat 64 (4 * 2 ^ 60))) ∧ HeadOf (headed 64 5) 64 5 (cmd1 (BitVec.ofNat 64 (5 * 2 ^ 60))) := by decide +kernel

/-- Port 64 holds a copy of the entry 7 of port 8, which waits for two copies. -/
def copied : Dev :=
  modPort (modPort coldDev 64 fun x => { x with q := [{ cmd1 0 with parent := some (8, 7) }] }) 8 fun x => { x with q := [{ cmd1 0 with id := 7, out := some 2 }] }

theorem witness_CompletionLeavesTheQueue :
    ((portOf (headed 64 0).dev 64).q.find? (fun u => u.id == 0) = some (cmd1 0) ∧ (cmd1 0).parent = none) ∧
    ((portOf copied 64).q.find? (fun u => u.id == 0) = some { cmd1 0 with parent := some (8, 7) } ∧
      (portOf copied 8).q.find? (fun v => v.id == 7) = some { cmd1 0 with id := 7, out := some (0 + 2) }) := by decide +kernel

theorem witness_StartAndStop :
    isCell 64 = true ∧ HeadOf (headed 64 2) 64 2 (cmd1 (BitVec.ofNat 64 (2 * 2 ^ 60))) ∧ Untraced (headed 64 2) 0 ∧
    StartBegins (headed 64 1) 64 (cmd1 (BitVec.ofNat 64 (2 ^ 60))) := by decide +kernel

/-- The last port's wipe is under way. -/
def wiping0 : State := on (st []) fun d => modPort d 1023 fun x => { x with wiping := true }

theorem witness_UnitResetBeginsAndEnds :
    (isCell 64 = true ∧ Resettable (headed 64 6) 64 ∧ memoryOk (headed 64 6) ∧ (cellOf (headed 64 6).dev 0).trun = none) ∧
    (Writable (headed 64 6) (upReg 64 0x30) ∧ (1 : W64).getLsbD 0 = true) ∧ HeadOf (headed 64 6) 64 6 (cmd1 (BitVec.ofNat 64 (6 * 2 ^ 60))) ∧
    (running wiping0.dev = true ∧ wiping0.dev.raised = [] ∧ okPort 1023 = true ∧ (portOf wiping0.dev 1023).wiping = true) := by decide +kernel

theorem witness_FaultSummariesClear :
    (portUp (st []).dev 0 = true ∧ Writable (st []) (upReg 0 0x20) ∧ okPort 0 = true) ∧
    HeadOf (headed 0 7) 0 7 (cmd1 (BitVec.ofNat 64 (7 * 2 ^ 60))) := by decide +kernel

theorem witness_PushEntersOrIsRefused :
    (okPort 64 = true ∧ Writable (st []) (upReg 64 0x10) ∧ pushRefused (st []).dev 64 0 = false) ∧
    (okPort 1023 = true ∧ Writable (st []) (upReg 1023 0x10) ∧ pushRefused (st []).dev 1023 0 = true) := by decide +kernel

/-- Gallery port 8 has a command at its head; its first cell's queue is full. -/
def fullBelow : State := on (headed 8 0) fun d => modPort d 64 fun x => { x with q := List.replicate 16 (cmd1 0) }

/-- Only the device port and gallery port 8 are in service. -/
def lonely : State := on (headed 8 0) fun d => { d with actMap := 0x101 }

theorem witness_FanOutCopiesToEveryMember :
    (FansOut fullBelow 8 (cmd1 0) ∧ (members fullBelow.dev 8).any (fun q => queueFull fullBelow.dev q || resetting fullBelow.dev q) = true) ∧
    (FansOut lonely 8 (cmd1 0) ∧ members lonely.dev 8 = []) ∧
    (FansOut (headed 8 0) 8 (cmd1 0) ∧ members (headed 8 0).dev 8 ≠ [] ∧
      (members (headed 8 0).dev 8).any (fun q => queueFull (headed 8 0).dev q || resetting (headed 8 0).dev q) = false) := by decide +kernel

theorem witness_HoldAndTraceWrites :
    okPort 64 = true ∧ portUp (st []).dev 64 = true ∧ Writable (st []) (upReg 64 (0x100 + 8 * 31)) ∧ Writable (st []) (upReg 64 0x28) ∧
    (cellOf (st []).dev 0).trun = none ∧
    ∀ c ∈ cellsUnder (st []).dev 64, funnelOn (putRg (st []).dev (upReg 64 0x28) (1 &&& 7)) c = (cellOf (st []).dev c).traceOn := by decide +kernel

/-! ### Cells -/

/-- Cell 0 with a running docent at bundle 0, which is `w`, at its edge 9; the counters are frozen. -/
def looking (w : W256) : State :=
  on (celled [(0x307_0008, 1)] fun x => { x with running := true, nextEdge := 9, prog := [(0, w)] }) fun d => putWing d 0 { wingReset with edges := 9 }

/-- A bundle with a word in its scalar slot alone (R238): bits 255 to 208. -/
def scalarWord (w : Nat) : W256 := BitVec.ofNat 256 (w * 2 ^ 208)

/-- R245, R246: an RR word: the code in bits 47–42, sd, sa and sb. -/
def rrWord (op d a b : Nat) : W256 := scalarWord (op * 2 ^ 42 + d * 2 ^ 37 + a * 2 ^ 32 + b * 2 ^ 27)

/-- R245, R246: an RI word. -/
def riWord (op d a imm : Nat) : W256 := scalarWord (op * 2 ^ 42 + d * 2 ^ 37 + a * 2 ^ 32 + imm)

theorem test_decode_scalar :
    (fetch (looking (rrWord 0x02 3 1 2)).dev 0).toOption = some (scalarBundle (.alu .sub 3 1 2)) ∧
    (fetch (looking (riWord 0x10 3 1 0xFFFF_FFFF)).dev 0).toOption = some (scalarBundle (.aluImm .add 3 1 0xFFFF_FFFF_FFFF_FFFF#64)) ∧
    (fetch (looking (riWord 0x17 31 0 5)).dev 0).toOption = some (scalarBundle (.li 31 5)) ∧
    (fetch (looking (riWord 0x3A 0 4 0x123)).dev 0).toOption = some (scalarBundle (.br .nonzero 4 0x123)) ∧
    (fetch (looking (riWord 0x3D 0 0 0)).dev 0).toOption = some (scalarBundle .halt) := by decide +kernel

theorem witness_ScalarBundleIssues :
    IssuesNow (looking 0) 0 .snop ∧ IssuesNow (looking (rrWord 0x02 3 1 2)) 0 (.alu .sub 3 1 2) ∧
    IssuesNow (looking (riWord 0x10 3 1 0xFFFF_FFFF)) 0 (.aluImm .add 3 1 0xFFFF_FFFF_FFFF_FFFF#64) ∧ IssuesNow (looking (riWord 0x17 31 0 5)) 0 (.li 31 5) ∧
    IssuesNow (looking (riWord 0x3A 0 4 0x123)) 0 (.br .nonzero 4 0x123) ∧ IssuesNow (looking (riWord 0x3D 0 0 0)) 0 .halt :=
  ⟨by decide +kernel, by decide +kernel, by decide +kernel, by decide +kernel, by decide +kernel, by decide +kernel⟩

/-- The bundle has WAITH of counter 2 in its sync slot, and the counter misses one count. -/
def waiting2 (n : Nat) : State := on (looking (BitVec.ofNat 256 (2 ^ 13 + 2 * 2 ^ 8))) fun d => modCell d 0 fun x => { holdSet x 2 n 1 with seen := (holdSet x 2 n 1).hold }

/-- That bundle. -/
def waith2 : Bundle := { scalar := .snop, fwd := .fnop, bwd := .bnop, vec := none, red := none, dma := .dnop, sync := .waith 2 }

theorem waith2_eq : waith2 = { scalarBundle .snop with sync := .waith 2 } := rfl

theorem witness_BundlesWaitOrStop :
    (LooksAt (looking (riWord 0x3F 0 0 0)) 0 ∧ (match fetch (looking (riWord 0x3F 0 0 0)).dev 0 with | .error k => k == 0 | .ok _ => false) = true) ∧
    (LooksAt (waiting2 0) 0 ∧ (fetch (waiting2 0).dev 0).toOption = some waith2 ∧
      holdSeen (cellOf (waiting2 0).dev 0) 2 = false) ∧
    (LooksAt (waiting2 1) 0 ∧ (fetch (waiting2 1).dev 0).toOption = some waith2 ∧
      holdSeen (cellOf (waiting2 1).dev 0) 2 = true) :=
  ⟨⟨by decide +kernel, by decide +kernel⟩, ⟨by decide +kernel, by decide +kernel⟩, ⟨by decide +kernel, by decide +kernel⟩⟩

theorem witness_UnitsBecomeFree :
    OwesOne (owing .convDone id) 0 ⟨5, 0, 0, .convDone⟩ ∧ OwesOne (owing .drainDone id) 0 ⟨5, 0, 0, .drainDone⟩ ∧
    OwesOne (owing .dwDone id) 0 ⟨5, 0, 0, .dwDone⟩ ∧ OwesOne (owing .transFree id) 0 ⟨5, 0, 0, .transFree⟩ ∧
    OwesOne (owing .pairScan id) 0 ⟨5, 0, 0, .pairScan⟩ ∧ (cellOf (owing .pairScan id).dev 0).flips = [] := by decide +kernel

/-- A descriptor of a G16 tensor. -/
def desc0 : Desc :=
  { base := 0, rows := 64, cols := 64, pitch := 128, fmt := 2, tid := 0, bsize := 32, bdir := false, serve := false, vslot := false, baro := 0, spitch := 8
    sbase := 0, abase := 0, vstride := 0 }

/-- A PLOAD that has read nothing yet. -/
def pload0 : PloadRun := { d := desc0, fmt := .f4, p := 0, j := 0, vslot := false, tw := 0, aw := 0, pool := 0, codes := [], scales := [], annex := [] }

/-- A BLDW of 64 rows of zero codes. -/
def bldw0 : BldRun :=
  { t := 0, d := some desc0, addr := 0, desc := 0, vslot := false, snap := false, rh := 0, cq := 0, texp := 0, taexp := 0, strip := [], poolBytes := []
    rows := List.replicate 8192 0 }

theorem witness_LoadsFillTheInactiveBuffers :
    (OwesOne (owing .ploadDone fun x => { x with pload := some pload0 }) 0 ⟨5, 0, 0, .ploadDone⟩) ∧
    (OwesOne (owing (.bldDone false) fun x => { x with bldw := some bldw0 }) 0 ⟨5, 0, 0, .bldDone false⟩ ∧ bldw0.d = some desc0 ∧
      (imageFmt desc0).toOption = some .g16 ∧ (imageOf false .g16 bldw0).length ≤ 64) := by decide +kernel

/-- A FWD of four vectors that is pending. -/
def fwd0 : FwdRun :=
  { t := 1, desc := 0, tok := 0, p := 0, row := 0, cnt := 4, bank := false, clr := true, aanx := false, d := some desc0, fmt := .f4, r := 1, tx := 0, ax := 0
    pool := 0, preEnd := 9, stopPre := false, annex := [], next := 0, start := none }

/-- A BWD that is pending. -/
def bwd0 : BwdRun := { t := 1, l := true, r := true, lb := false, clrl := true, rb := false, clrr := true, tid := 0, start := none }

/-- Cell 0 with that FWD pending. -/
def fwdPends : State := owing .fwdPendStart fun x => { x with fwdPend := some fwd0 }

theorem witness_PendingStreamsStart :
    (OwesOne (owing .fwdPendStart id) 0 ⟨5, 0, 0, .fwdPendStart⟩ ∧ (cellOf (owing .fwdPendStart id).dev 0).fwdPend = none) ∧
    (OwesOne (owing .fwdPendStart fun x => { x with fwdPend := some { fwd0 with aanx := true } }) 0 ⟨5, 0, 0, .fwdPendStart⟩ ∧ 5 ≤ fwd0.preEnd) ∧
    (OwesOne fwdPends 0 ⟨5, 0, 0, .fwdPendStart⟩ ∧ (cellOf fwdPends.dev 0).fwdPend = some fwd0 ∧ ¬(fwd0.aanx = true ∧ 5 ≤ fwd0.preEnd) ∧
      fwd0.d.isSome = true ∧ Readable fwdPends 0 ∧ (cellOf fwdPends.dev 0).portEdge ≠ 5 ∧ fwd0.r = 1) ∧
    (OwesOne (owing .bwdPendStart id) 0 ⟨5, 0, 0, .bwdPendStart⟩ ∧ (cellOf (owing .bwdPendStart id).dev 0).bwdPend = none) ∧
    (OwesOne (owing .bwdPendStart fun x => { x with bwdPend := some bwd0 }) 0 ⟨5, 0, 0, .bwdPendStart⟩) := by decide +kernel

/-- A VSOLVE of order 4. -/
def solve0 : SolveRun := { t := 0, lu := true, n := 4, a := 0, b := 1, s := 0, d := 5 }

theorem witness_SolveWritesItsResult :
    OwesOne (owing (.solveDone [(0, 1)] 2) fun x => { x with solve := some solve0 }) 0 ⟨5, 0, 0, .solveDone [(0, 1)] 2⟩ := by decide +kernel

/-- A gradient tensor at an address. -/
def descDw (base : Nat) : Desc := { desc0 with fmt := 3, base := base, sbase := base + 0x4000 }

/-- A DWACC of the tensor at an address, whose rows have all been converted: one row of zeros. -/
def dw0 (last : Bool) (base : Nat) : DwRun :=
  { t := 0, folio := false, rb := false, clr := true, last := last, desc := 0, addr := base, src := 0, bucket := 0, h := 1, d := some (descDw base)
    e16 := 112, rows := [List.replicate 64 0], done := true, know := [] }

/-- Cell 0 with that DWACC on its memory side. -/
def dwState (l : Tab W64) (last : Bool) (base : Nat) : State := celled l fun x => { x with dwMem := [dw0 last base] }

/-- The DWACC stores into cell 1's folio store, or into HBM, which the base almanac gives no gallery, or nowhere. -/
def dw1 (base : Nat) : State := dwState [] false base

/-- An address that no region holds. -/
def nowhere : Nat := hostBase + 2 ^ 44

theorem witness_DwaccStoresAndCounts :
    (∀ base ∈ [0, folioBase + 0x80_0000, nowhere], clocked (dw1 base).dev = true ∧ (dw1 base).dev.raised = [] ∧ okCell 0 = true ∧
      portUp (dw1 base).dev (cellPort 0) = true ∧ (cellOf (dw1 base).dev 0).due = [] ∧ (cellOf (dw1 base).dev 0).dwMem = [dw0 false base] ∧
      (dw0 false base).last = false ∧ (dw0 false base).d = some (descDw base) ∧ (dw1 base).dev.upset = []) ∧
    (dwBad (dw1 0).dev (dw0 false 0) (descDw 0) = none ∧ dwMay (dw1 0).dev 0 (dw0 false 0) (descDw 0) = false) ∧
    ((dwBad (dw1 nowhere).dev (dw0 false nowhere) (descDw nowhere)).isSome = true ∧ stState (dw1 nowhere).dev ≠ 1) ∧
    (let b := folioBase + 0x80_0000
     let r := dw0 false b
     dwBad (dw1 b).dev r (descDw b) = none ∧ dwMay (dw1 b).dev 0 r (descDw b) = true ∧
       (dwBlocks r (dwRead (dw1 b).dev 0 r (descDw b)).1).any (·.bad) = false ∧ sweeping (dw1 b).dev = false) := by decide +kernel

/-- Cell 0 has waited for a counter for one wall tick more than the limit of 10,000,000. -/
def overdue0 : State :=
  on (celled [] fun x => { x with running := true, wait := some { sub := 1, h := 0, port := 0, since := 0, gated := 0 } }) fun d => { d with root := 84 * 10000001 }

theorem witness_HoldOverrunStopsTheDocent :
    live overdue0.dev = true ∧ overdue0.dev.raised = [] ∧ okCell 0 = true ∧ portUp overdue0.dev (cellPort 0) = true ∧ overdue0.dev.dump = none ∧
      rgf overdue0.dev 0x305_0000 0 0 = 0 ∧ stState overdue0.dev ≠ 1 ∧ EventRoom overdue0.dev ∧ overdue overdue0.dev 0 = true := by decide +kernel

/-! ### DMA engines -/

/-- A transfer of 64 bytes between places; mode 2 fills. -/
def xfer0 (mode src dst : Nat) : Xfer :=
  { id := 1, cell := 0, h := some 3, prog := false, dd := 0, mode := mode, src := src, dst := dst, rows := 1, rowBytes := 64, spitch := 0, dpitch := 0
    fill := 0, tsize := 0, esize := 0, cls := 16, sstash := false, dstash := false, region := 0, rpos := 0, wpos := 0, buf := [], stamp := 0, overflow := false
    cover := [], paidR := [], paidW := [] }

/-- Cell 0 has queued the transfer. -/
def dqState : State :=
  celled [] fun x => { x with dmaq := [{ id := 1, slot := 0, pdma := false, dd := 0, first := 0, n := 0, a := 0, b := 0, h := 3, stamp := 0, cover := [], x := some (xfer0 2 0 0) }] }

theorem witness_DmaTakesInRound :
    clocked dqState.dev = true ∧ dqState.dev.raised = [] ∧ okGallery 0 = true ∧ portUp dqState.dev (galleryPort 0) = true ∧ (galOf dqState.dev 0).xs.length < 16 ∧
      (∀ j, j < 8 → (cellOf dqState.dev (8 * 0 + j)).due = []) ∧ ((nextQueue dqState.dev 0).map fun q => (q.1, q.2.2)) = some (0, xfer0 2 0 0) ∧
      xferCheck dqState.dev (xfer0 2 0 0) = none := by decide +kernel

/-- Gallery 0 has an active transfer. -/
def active (x : Xfer) : State := on (st []) fun d => modGal d 0 fun y => { y with xs := [x] }

/-- An almanac that gives one owner the class 16, for both directions, in every slot of four pseudo-channels. -/
def almOf (o : Nat) : AlmTab :=
  { almid := 1, classes := List.replicate 16 0 ++ [2 ^ 31 + 2 * 2 ^ 29 + (if 48 ≤ o then 2 ^ 28 else 0) + o * 2 ^ 16], hbm := List.replicate 4 (List.replicate 1365 16), depot := [] }

/-- The state under that almanac. -/
def lending (o : Nat) (s : State) : State := on s fun d => { d with alm := some (almOf o) }

/-- A write to HBM under that almanac. -/
def hbmWrite : State := lending 0 (active (xfer0 2 0 0))

/-- A fill of the first bytes of cell 0's folio store, a read of them, and the fill when it has ended. -/
def fill0 : Xfer := xfer0 2 0 folioBase

def read0 : Xfer := xfer0 0 folioBase 0

def filled0 : Xfer := { fill0 with wpos := 64 }

/-- The read, while a fill that another cell queued for the same bytes is under way. -/
def raced0 : State := on (active read0) fun d => modGal d 0 fun y => { y with xs := y.xs ++ [{ fill0 with id := 2, cell := 1 }] }

theorem witness_DmaPieceMoves :
    (clocked (active fill0).dev = true ∧ (active fill0).dev.raised = [] ∧ (galOf (active fill0).dev 0).xs[0]? = some fill0 ∧ (active fill0).dev.upset = [] ∧
      blockedPlace (active fill0).dev (place (active fill0).dev folioBase) = false ∧ place (active fill0).dev folioBase = .folio 0 0 ∧
      (cellOf (active fill0).dev 0).due = [] ∧ nextPiece (active fill0).dev fill0 true = some (folioBase, 64) ∧
      othersMeet (active fill0).dev fill0 true folioBase 64 = false ∧ (coefGuard (active fill0).dev folioBase (writeBytes fill0 64)).toOption.isSome = true ∧
      ∀ i, i < 64 → laterHolds (active fill0).dev fill0 (folioBase + i) = false) ∧
    ((galOf (active read0).dev 0).xs[0]? = some read0 ∧ nextPiece (active read0).dev read0 false = some (folioBase, 64) ∧
      othersMeet (active read0).dev read0 false folioBase 64 = false) ∧
    (clocked raced0.dev = true ∧ raced0.dev.raised = [] ∧ (galOf raced0.dev 0).xs[0]? = some read0 ∧ raced0.dev.upset = [] ∧
      blockedPlace raced0.dev (place raced0.dev folioBase) = false ∧ place raced0.dev folioBase = .folio 0 0 ∧ (cellOf raced0.dev 0).due = [] ∧
      nextPiece raced0.dev read0 false = some (folioBase, 64) ∧ othersMeet raced0.dev read0 false folioBase 64 = true) ∧
    (clocked hbmWrite.dev = true ∧ (galOf hbmWrite.dev 0).xs[0]? = some (xfer0 2 0 0) ∧ place hbmWrite.dev 0 = .hbm 0 ∧
      nextPiece hbmWrite.dev (xfer0 2 0 0) true = some (0, 64) ∧ slotNeed hbmWrite.dev 0 (xfer0 2 0 0) 0 = .cls 16 0 ∧
      classGranted hbmWrite.dev 16 0 true 0 = true ∧ blockedPlace hbmWrite.dev (place hbmWrite.dev 0) = false ∧
      othersMeet hbmWrite.dev (xfer0 2 0 0) true 0 64 = false ∧ (xfer0 2 0 0).h.isSome = true ∧ paid hbmWrite.dev (xfer0 2 0 0) true 0 = false ∧
      (coefGuard hbmWrite.dev 0 (writeBytes (xfer0 2 0 0) 64)).toOption.isSome = true ∧
      ∀ i, i < 64 → laterHolds hbmWrite.dev (xfer0 2 0 0) (0 + i) = false) := by decide +kernel

theorem witness_DmaCompletionCounts :
    (clocked (active filled0).dev = true ∧ (active filled0).dev.raised = [] ∧ (galOf (active filled0).dev 0).xs[0]? = some filled0 ∧
      filled0.h = some 3 ∧ filled0.overflow = false ∧ xferDone filled0 = true ∧ portUp (active filled0).dev (cellPort filled0.cell) = true) ∧
    xferDone fill0 = false := by decide +kernel

/-! ### The training step -/

/-- A device whose ring 0 holds, as its next entry, a command of operation `op` with the first argument word. -/
def ringed (op arg : Nat) (l : Tab W64) : State :=
  on (st (l ++ [(0x20_0000, BitVec.ofNat 64 (2 ^ 63 + 4 * 2 ^ 56)), (0x20_0010, 1)])) fun d => wrN (wrN d hostBase 8 (op * 2 ^ 56)) (hostBase + 16) 8 arg

/-- The words of that command. -/
def words0 (op arg : Nat) : List W64 := [BitVec.ofNat 64 (op * 2 ^ 56), 0, BitVec.ofNat 64 arg, 0, 0, 0, 0, 0]

theorem witness_LaunchBeginsTheStep :
    TakesFromRing (ringed 5 1 []) 0 (words0 5 1) ∧ opOf (words0 5 1) = 5 ∧
    (ringed 5 1 []).dev.upset = [] ∧ launchReason (ringed 5 1 []).dev (fld (argOf (words0 5 1) 0) 47 0) (accPending (ringed 5 1 []).dev) = none := by decide +kernel

/-- A running step of stamp 1, with further registers. -/
def stepping (l : Tab W64) : State := st (l ++ [(0x30B_0000, 0x101)])

/-- The step waits for its scales: the record of barometer 0 of the step before is not written yet. -/
def awaiting (due : Bool) : State :=
  on (stepping []) fun d =>
    { wrN d 0 8 (if due then 2 ^ 27 * 1 else 0) with histPend := [(0, 0, 1)], scl := { d.scl with ready := false } }

theorem witness_ScalesAndHistory :
    (Ready (awaiting true) ∧ inStep (awaiting true).dev = true ∧ (awaiting true).dev.scl.ready = false ∧
      histAwaited (awaiting true).dev (stStamp (awaiting true).dev) = true) ∧
    (Ready (awaiting false) ∧ inStep (awaiting false).dev = true ∧ (awaiting false).dev.scl.ready = false ∧
      histAwaited (awaiting false).dev (stStamp (awaiting false).dev) = false ∧
      ownerMay (awaiting false).dev 51 false (awaiting false).dev.scl.base 64 = false) ∧
    (let s := lending 51 (awaiting false)
     Ready s ∧ inStep s.dev = true ∧ s.dev.scl.ready = false ∧ histAwaited s.dev (stStamp s.dev) = false ∧ s.dev.upset = [] ∧
       ownerMay s.dev 51 false s.dev.scl.base 64 = true ∧ stGate s.dev = false ∧
       s.dev.histPend[0]? = some (0, 0, 1) ∧ ownerMay s.dev 51 true (baroAddr s.dev 0 + 0x40) 128 = true ∧ blockedPlace s.dev (.hbm 0) = false) := by
  decide +kernel

theorem witness_FlipAndGate :
    (Ready (stepping [(0x30B_0018, 0x1_0000)]) ∧ stState (stepping [(0x30B_0018, 0x1_0000)]).dev = 1 ∧
      cfgFlipEn (stepping [(0x30B_0018, 0x1_0000)]).dev = true ∧ stFlipped (stepping [(0x30B_0018, 0x1_0000)]).dev = false ∧
      portDone (stepping [(0x30B_0018, 0x1_0000)]).dev 0 (cfgFh (stepping [(0x30B_0018, 0x1_0000)]).dev) = true) ∧
    cfgFlipEn (stepping []).dev = false ∧
    (stGate (stepping [(0x30B_0018, 0x1_0000_0000_0000)]).dev = false ∧
      (stepping [(0x30B_0018, 0x1_0000_0000_0000)]).dev.ring.done < cfgNbuck (stepping [(0x30B_0018, 0x1_0000_0000_0000)]).dev) ∧
    (stGate (stepping []).dev = false ∧ cfgNbuck (stepping []).dev ≤ (stepping []).dev.ring.done ∧ cfgFlipEn (stepping []).dev = false ∧
      (stepping []).dev.upset = [] ∧ EventRoom (stepping []).dev ∧ ((stepping []).dev.fab.xs.any fun x => x.loan && !x.read && decide (x.pos < x.len)) = false) := by decide +kernel

/-- The gate is open; the step is being abandoned. -/
def gated1 : State := st [(0x30B_0000, 0x105)]

def abandoned : State := st [(0x30B_0000, 0x102)]

theorem witness_StepEnds :
    (Ready gated1 ∧ gated1.dev.upset = [] ∧ stState gated1.dev = 1 ∧ stGate gated1.dev = true ∧ dhDone gated1.dev = true ∧ maximaReady gated1.dev = true ∧
      (gated1.dev.ring.buckets.any (·.stamp == stStamp gated1.dev)) = false) ∧
    stGate (stepping []).dev = false ∧
    (Ready abandoned ∧ abandoned.dev.upset = [] ∧ stState abandoned.dev = 2 ∧ opsDone abandoned.dev = true ∧ (abandoned.dev.gals.all fun g => g.2.xs.isEmpty) = true ∧
      flushed abandoned.dev = true ∧ abandoned.dev.fab.xs.all (·.loan) = true) := by decide +kernel

theorem witness_AbandonStopsTheStep :
    TakesFromRing (ringed 6 0 [(0x30B_0000, 0x105)]) 0 (words0 6 0) ∧ opOf (words0 6 0) = 6 ∧ stState (ringed 6 0 [(0x30B_0000, 0x105)]).dev = 1 := by
  decide +kernel

/-! ### The ring reducer -/

/-- An open bucket of one tile whose owner is position `own`. -/
def bucket0 (num own : Nat) (qs : Tab QState) : Bucket :=
  { num := num, stamp := 1, words := [BitVec.ofNat 64 (2 ^ 63 + own * 2 ^ 56), 0, BitVec.ofNat 64 (64 * 2 ^ 32 + 64), 7, 0, BitVec.ofNat 64 (2 * 2 ^ 32 + 64), 0x1_0000]
    qs := qs }

/-- Cell 0 hands its tile over to bucket 0, which is open. -/
def handing : State := on (dwState [] true 0) fun d => { d with ring := { d.ring with buckets := [bucket0 0 0 []] } }

/-- Sixteen other buckets are open, and the entry of bucket 0 is valid. -/
def crowded : State :=
  on (dwState [] true 0) fun d =>
    wrN { d with ring := { d.ring with buckets := (List.range 16).map fun k => bucket0 (k + 1) 0 [] } } 0 8 (2 ^ 63)

/-- Cell 0 adds its tile to the region, in HBM, before it hands it over. -/
def adding : State := on (celled [] fun x => { x with dwMem := [{ dw0 true 0 with clr := false }] }) fun d =>
  { d with ring := { d.ring with buckets := [bucket0 0 0 []] } }

theorem witness_HandoverFillsTheStore :
    (clocked handing.dev = true ∧ handing.dev.raised = [] ∧ okCell 0 = true ∧ portUp handing.dev (cellPort 0) = true ∧ (cellOf handing.dev 0).due = [] ∧
      (cellOf handing.dev 0).dwMem = [dw0 true 0] ∧ (dw0 true 0).last = true ∧ (dw0 true 0).d = some (descDw 0) ∧ handing.dev.upset = []) ∧
    (clocked (dwState [(0x30B_0000, 0x102)] true 0).dev = true ∧ stState (dwState [(0x30B_0000, 0x102)] true 0).dev = 2) ∧
    (stState handing.dev ≠ 2 ∧ dwBad handing.dev (dw0 true 0) (descDw 0) = none ∧ (descDw 0).base ≤ (dw0 true 0).addr ∧ (descDw 0).pitch ≠ 0 ∧
      dwPos (descDw 0) (dw0 true 0).addr = (0, 0) ∧ openBucket handing.dev (dw0 true 0).bucket = some (bucket0 0 0 []) ∧
      0 * tilesAcross (descDw 0).cols + 0 = bkT0 (bucket0 0 0 []) + 0 ∧ 0 < bkTiles (bucket0 0 0 []) ∧ handing.dev.ring.handed.contains (0, 0) = false ∧
      handing.dev.ring.store.length < 1024 ∧ dwMay handing.dev 0 (dw0 true 0) (descDw 0) = true ∧
      (dwBlocks (dw0 true 0) (dwRead handing.dev 0 (dw0 true 0) (descDw 0)).1).any (·.bad) = false) ∧
    ((cellOf adding.dev 0).dwMem = [{ dw0 true 0 with clr := false }] ∧ dwBad adding.dev { dw0 true 0 with clr := false } (descDw 0) = none ∧
      stState adding.dev ≠ 2 ∧ dwMay adding.dev 0 { dw0 true 0 with clr := false } (descDw 0) = false) ∧
    ((cellOf crowded.dev 0).dwMem = [dw0 true 0] ∧ stState crowded.dev ≠ 2 ∧ dwBad crowded.dev (dw0 true 0) (descDw 0) = none ∧
      openBucket crowded.dev 0 = none ∧ entryBad crowded.dev (readBucket crowded.dev 0 (workStamp crowded.dev)).1 = false ∧
      16 ≤ crowded.dev.ring.buckets.length) := by decide +kernel

/-- A ring of two positions, of which this device is `pos`; rings 0 and 2 run on port 0, which is up, and with further registers. -/
def ring2 (pos : Nat) (l : Tab W64) (f : RingSt → RingSt) : State :=
  on (st (l ++ [(0x118_0000, BitVec.ofNat 64 (2 ^ 8 + pos * 2 ^ 16)), (0x100_0100, 0x2_0000_0000)])) fun d => { d with ring := f d.ring }

/-- A partial of zeros for tile-quarter (0, 0) of bucket 0, owned by position 1. -/
def partial0 (stamp : Nat) : List Byte := leBytes 8 (2 ^ 60 + 2 ^ 46) ++ leBytes 8 stamp ++ List.replicate 2128 0

/-- Bucket 0, owned by position 1, waits. -/
def waits1 : State := ring2 0 [] fun r => { r with buckets := [bucket0 0 1 []] }

theorem witness_PartialsAreTaken :
    (Ready waits1 ∧ fabUp waits1.dev (ringRx waits1.dev 0) = true ∧ (ringsRunning waits1.dev).contains 0 = true ∧
      waits1.dev.ring.discard.contains 0 = false ∧ tabGet (fun _ => []) waits1.dev.ring.rx 0 = [] ∧ waits1.dev.upset = [] ∧
      rxBytes waits1.dev 0 + (partial0 1).length ≤ 65536 ∧ rxBytes waits1.dev 0 + (partial0 2).length ≤ 65536) ∧
    (rmType (partial0 2) = 1 ∧ rmStamp (partial0 2) = (stLast waits1.dev + 2) % 2 ^ 48) ∧
    (rmType (partial0 1) = 1 ∧ rmStamp (partial0 1) = (stLast waits1.dev + 1) % 2 ^ 48 ∧ arrivalBad (rmPart (partial0 1)) = none ∧
      openBucket waits1.dev (fld (rmWord (partial0 1) 0) 31 16) = some (bucket0 0 1 []) ∧
      fld (rmWord (partial0 1) 0) 51 46 = bkOwn (bucket0 0 1 []) ∧ fld (rmWord (partial0 1) 0) 15 4 < bkTiles (bucket0 0 1 []) ∧
      qState (bucket0 0 1 []) (fld (rmWord (partial0 1) 0) 15 4) (fld (rmWord (partial0 1) 0) 3 2) = .wait) := by decide +kernel

/-- A contribution of zeros (whose residue is 0), and a partial of zeros for it. -/
def contrib0 : Contrib := { bucket := 0, tile := 0, e16 := 112, rows := List.replicate 64 (List.replicate 64 0), sides := List.replicate 64 [112, 112] }

def part0 : RingPart := { src := 1, fn := none, sides := List.replicate 32 112, blocks := List.replicate 32 (List.replicate 32 0) }

/-- A contribution with a wrong residue, at the first position. -/
def contribBad : Contrib := { contrib0 with sides := List.replicate 64 [368, 112] }

def broken0 : State := ring2 0 [] fun r => { r with buckets := [bucket0 0 1 [(0, .add none)]], store := [contribBad] }

/-- The first position has its own tile; the owner has the partial as well. -/
def first0 : State := ring2 0 [] fun r => { r with buckets := [bucket0 0 1 [(0, .add none)]], store := [contrib0] }

def owner0 : State := ring2 0 [] fun r => { r with buckets := [bucket0 0 0 [(0, .add (some part0))]], store := [contrib0] }

theorem witness_PartialsAreSummed :
    (Ready first0 ∧ openBucket first0.dev 0 = some (bucket0 0 1 [(0, .add none)]) ∧
      first0.dev.ring.store.find? (fun t => t.bucket == 0 && t.tile == 0) = some contrib0 ∧
      qState (bucket0 0 1 [(0, .add none)]) 0 0 = .add none ∧ isOwner first0.dev (bucket0 0 1 [(0, .add none)]) = false ∧ first0.dev.upset = [] ∧
      addFault none (ownBlocks contrib0 0) (ownSides contrib0 0) = none) ∧
    (Ready broken0 ∧ broken0.dev.upset = [] ∧ openBucket broken0.dev 0 = some (bucket0 0 1 [(0, .add none)]) ∧
      broken0.dev.ring.store.find? (fun t => t.bucket == 0 && t.tile == 0) = some contribBad ∧
      addFault none (ownBlocks contribBad 0) (ownSides contribBad 0) ≠ none ∧ stState broken0.dev ≠ 1 ∧ EventRoom broken0.dev) ∧
    (Ready owner0 ∧ openBucket owner0.dev 0 = some (bucket0 0 0 [(0, .add (some part0))]) ∧
      qState (bucket0 0 0 [(0, .add (some part0))]) 0 0 = .add (some part0) ∧ isOwner owner0.dev (bucket0 0 0 [(0, .add (some part0))]) = true ∧
      addFault (some part0) (ownBlocks contrib0 0) (ownSides contrib0 0) = none) := by decide +kernel

/-- The owner delivers, into HBM or into cell 0's folio store. -/
def bucketTo (a : Nat) : Bucket :=
  let b := bucket0 0 0 [(0, .deliver part0)]
  { b with words := (b.words.set 4 (BitVec.ofNat 64 a)).set 6 (BitVec.ofNat 64 (a + 0x1_0000)) }

def delivers (a : Nat) : State := ring2 0 [] fun r => { r with buckets := [bucketTo a] }

theorem witness_DeliveryAndBucketCompletion :
    (∀ a ∈ [0, folioBase], Ready (delivers a) ∧ openBucket (delivers a).dev 0 = some (bucketTo a) ∧ qState (bucketTo a) 0 0 = .deliver part0) ∧
    deliverBad part0 = none ∧ (∀ l ∈ part0.blocks, l.length = 32) ∧ deliverMay (delivers 0).dev (bucketTo 0) 0 0 = false ∧
    (deliverMay (delivers folioBase).dev (bucketTo folioBase) 0 0 = true ∧ sweeping (delivers folioBase).dev = false ∧
      (delivers folioBase).dev.upset = []) := by decide +kernel

/-- Positions of a running step: the first with its list back, and the last. -/
def pass0 : State := ring2 0 [(0x30B_0000, 0x101)] fun r => { r with final := some [(3, 1)] }

def pass1 : State := ring2 1 [(0x30B_0000, 0x101)] id

/-- A final list without pairs. -/
def final0 : List Byte := leBytes 8 (4 * 2 ^ 60) ++ leBytes 8 1 ++ List.replicate 16 0

theorem witness_MaximaPasses :
    (Ready pass0 ∧ ringP pass0.dev ≠ 1 ∧ ringPos pass0.dev = 0 ∧ dhDone pass0.dev = true ∧ pass0.dev.ring.firstSent = false ∧
      (pass0.dev.ring.rx.all fun e => e.1 != 0) = true ∧ pass0.dev.ring.final = some [(3, 1)] ∧ pass0.dev.ring.secondSent = false) ∧
    (Ready pass1 ∧ ringP pass1.dev ≠ 1 ∧ (pass1.dev.ring.rx.all fun e => e.1 != 0) = true ∧ rmStamp final0 = (stLast pass1.dev + 1) % 2 ^ 48 ∧
      rxBytes pass1.dev 0 + final0.length ≤ 65536 ∧ ringPos pass1.dev ≠ 0 ∧ ringPos pass1.dev + 1 = ringP pass1.dev ∧ fabUp pass1.dev (ringRx pass1.dev 0) = true ∧ rmType final0 = 4 ∧
      pass1.dev.ring.discard.contains 0 = false ∧ stState pass1.dev = 1) := by decide +kernel

/-! ### The fabric and the host link -/

/-- Port 0 is up with a cable, and is the route to device 1. -/
def fabbed (l : Tab W64) (f : FabSt → FabSt) : State :=
  on (st (l ++ [(0x100_0100, 0x2_0000_0000), (0x100_1008, BitVec.ofNat 64 (2 ^ 63))])) fun d => { d with fab := f { d.fab with cables := [0] } }

/-- Port 0 trains. -/
def training0 : State := on (st [(0x100_0100, 0x1_0000_0000)]) fun d => { d with fab := { d.fab with cables := [0] } }

theorem witness_LinksComeAndGo :
    ((fabbed [] id).dev.raised = [] ∧ okFab 0 = true ∧ live (fabbed [] id).dev = true ∧ fabUp (fabbed [] id).dev 0 = true ∧
      (fabbed [] id).dev.fab.cables.contains 0 = true ∧ hostUp (fabbed [] id).dev = true ∧ EventRoom (fabbed [] id).dev) ∧
    (live training0.dev = true ∧ training0.dev.raised = [] ∧ fabState training0.dev 0 = 1 ∧ training0.dev.fab.cables.contains 0 = true ∧ EventRoom training0.dev) := by decide +kernel

/-- A data message for device 1, one that has made 15 hops, and a marker. -/
def data1 : FabMsg := { msg0 with dst := 1 }

def lost1 : FabMsg := { data1 with hops := 15 }

def marker0 : FabMsg := { msg0 with kind := 15, w1 := 1 }

/-- A message of a class that there is not. -/
def odd7 : FabMsg := { msg0 with cls := 7 }

/-- Port 0 discards in a running step. -/
def discarding : State := fabbed [(0x30B_0000, 0x101)] fun f => { f with flushing := true, discard := [0] }

theorem witness_MessagesAreRoutedOrDiscarded :
    (Arrives (fabbed [] id) 0 ∧ okMsg data1 = true ∧ okMsg lost1 = true ∧ okMsg marker0 = true ∧ okMsg odd7 = true ∧ 6 < odd7.cls) ∧
    (routed data1.cls = true ∧ data1.dst ≠ myDev (fabbed [] id).dev ∧ ¬(data1.cls = 1 ∧ data1.kind = 15) ∧ flushed_ (fabbed [] id).dev 0 data1 = false ∧
      data1.hops ≠ 15 ∧ (if data1.cls = 3 then relayPort (fabbed [] id).dev data1.dst else letterPort (fabbed [] id).dev data1.dst 0) = some 0) ∧
    (routed lost1.cls = true ∧ lost1.dst ≠ myDev (fabbed [] id).dev ∧ lost1.hops = 15) ∧
    (marker0.cls = 1 ∧ marker0.kind = 15 ∧ (fabbed [] id).dev.fab.discard.contains 0 = false) ∧
    (Arrives discarding 0 ∧ discarding.dev.fab.discard.contains 0 = true ∧ stState discarding.dev ≠ 0) := by decide +kernel

/-- A fabric transfer of 64 bytes of folio store to device 1. -/
def fx (loan : Bool) (pos : Nat) : FabXfer :=
  { id := 3, ring := 48, idx := 5, src := folioBase, ddev := 1, daddr := 0, loan := loan, len := 64, rcell := 0, rh := 0, rval := false, lcell := 0, lh := 2
    lval := true, pos := pos, read := false }

/-- Transfer ring 0 at address 0 of HBM, where owner 50 has its classes, with 16 entries; PROD is 1 in memory, and in the engine when `seen`. -/
def xringed (seen : Bool) : State :=
  lending 50 <| on (fabbed [(0x100_0200, BitVec.ofNat 64 (2 ^ 63 + 4 * 2 ^ 48)), (0x100_0008, 3)] fun f => if seen then { f with prod := [(0, 1)] } else f) fun d =>
    wrN (wrN (wrN d 0 4 1) 72 8 (2 ^ 58)) 80 8 64

theorem witness_FabricTransfersMove :
    (Ready (xringed false) ∧ (xringed false).dev.upset = [] ∧ bitAt (xring (xringed false).dev 0) 63 = true ∧
      (xringed false).dev.fab.overrun.contains 0 = false ∧ ownerMay (xringed false).dev 50 false (xringBase (xringed false).dev 0) 4 = true ∧
      (leNat (engRead (xringed false).dev (xringBase (xringed false).dev 0) 4).1 + 2 ^ 32
        - xringCons (engRead (xringed false).dev (xringBase (xringed false).dev 0) 4).2 0) % 2 ^ 32 ≤
          2 ^ fld (xring (engRead (xringed false).dev (xringBase (xringed false).dev 0) 4).2 0) 51 48) ∧
    (Ready (xringed true) ∧ (xringed true).dev.fab.xs.length < 32 ∧ nextXring (xringed true).dev = some 0 ∧ place (xringed true).dev 64 = .hbm 64 ∧
      place (xringed true).dev 32 = .hbm 32 ∧ blockedPlace (xringed true).dev (.hbm 64) = false ∧
      entryFault (xringed true).dev (xferOfEntry (xringed true).dev.nextId 0 0 fun k =>
        leNat (((rdBytes (xringed true).dev 64 32).drop (8 * k)).take 8)) = none ∧
      xringEntry (xringed true).dev 0 (xringCons (xringed true).dev 0) = 64 ∧ beingWritten (xringed true).dev 64 32 = false ∧
      ownerMay (xringed true).dev 50 false 64 32 = true ∧ ownerMay (xringed true).dev 50 true (xringBase (xringed true).dev 0 + 32) 4 = true) ∧
    (letterPort (fabbed [] fun f => { f with xs := [fx false 0] }).dev 1 5 = some 0 ∧
      Movable (fabbed [] fun f => { f with xs := [fx false 0] }) (pieces64 (folioBase + 0) 64) ∧
      beingWritten (fabbed [] fun f => { f with xs := [fx false 0] }).dev folioBase 64 = false ∧
      linkServes (fabbed [] fun f => { f with xs := [fx false 0] }).dev (pieces64 folioBase 64) = true ∧
      ownerMay (fabbed [] fun f => { f with xs := [fx false 0] }).dev 50 false folioBase 64 = true) ∧
    ((fx true 64).read = false ∧ (fx true 64).len ≤ (fx true 64).pos ∧ (fx false 64).loan = false ∧
      (fabbed [(0x30B_0000, 0x101)] fun f => { f with xs := [fx false 64] }).dev.fab.flushing = false ∧
      stState (fabbed [(0x30B_0000, 0x101)] fun f => { f with xs := [fx false 64] }).dev ≠ 0) := by decide +kernel

/-- The last data message of a transfer to cell 0's folio store; the acknowledgement of a loan of entry 5 by device 1. -/
def data0 : FabMsg := { msg0 with kind := 2, w1 := BitVec.ofNat 64 (2 ^ 63 + 2 ^ 48 + folioBase), body := List.replicate 64 7 }

def ack0 : FabMsg := { msg0 with cls := 5, src := 1, kind := 3, w1 := 5 }

/-- A message of a loan of entry 5 by device 1 to the same place, not its last; the loan has been stopped here. -/
def loan0 : FabMsg := { data0 with cls := 5, src := 1, kind := 1, idx := 5, w1 := BitVec.ofNat 64 folioBase }

def cutting : State := fabbed [] fun f => { f with cut := [(1, 5)] }

/-- A loan whose source has been read. -/
def lent : State := fabbed [] fun f => { f with xs := [{ fx true 64 with read := true }] }

theorem witness_FabricDataArrives :
    (Arrives (fabbed [] id) 0 ∧ okMsg data0 = true ∧ (fabbed [] id).dev.dump = none ∧ data0.dst = myDev (fabbed [] id).dev ∧ data0.cls = 1 ∧ data0.kind = 2 ∧
      flushed_ (fabbed [] id).dev 0 data0 = false ∧ Movable (fabbed [] id) (pieces64 (fld data0.w1.toNat 47 0) data0.body.length) ∧
      ((pieces64 (fld data0.w1.toNat 47 0) data0.body.length).any fun q => resetBlocks (fabbed [] id).dev (place (fabbed [] id).dev q.1)) = false ∧
      linkServes (fabbed [] id).dev (pieces64 folioBase 64) = true ∧ ownerMay (fabbed [] id).dev 50 true folioBase 64 = true ∧
      (guardPieces (fabbed [] id).dev (pieces64 folioBase 64) data0.body).toOption.isSome = true ∧ fld data0.w1.toNat 47 0 = folioBase) ∧
    (okMsg loan0 = true ∧ loan0.dst = myDev (fabbed [] id).dev ∧ loan0.kind = 1 ∧ loan0.cls = 5 ∧ bitAt loan0.w1.toNat 63 = false ∧
      flushed_ (fabbed [] id).dev 0 loan0 = false ∧ (fabbed [] id).dev.fab.cut.contains (loan0.src, loan0.idx) = false ∧
      fld loan0.w1.toNat 47 0 = folioBase ∧ loan0.body = data0.body) ∧
    (Arrives cutting 0 ∧ cutting.dev.dump = none ∧ cutting.dev.fab.cut.contains (loan0.src, loan0.idx) = true) ∧
    (Arrives lent 0 ∧ okMsg ack0 = true ∧ ack0.dst = myDev lent.dev ∧ ack0.cls = 5 ∧ ack0.kind = 3 ∧ (lent.dev.fab.xs.find? fun x => x.loan && x.idx == ack0.w1.toNat && x.ddev == ack0.src && decide (x.len ≤ x.pos)) =
      some { fx true 64 with read := true }) := by decide +kernel

/-- A command from ring 0 that waits for members. -/
def task0 (waiting : List Nat) (own : Bool) : HostTask :=
  { id := 4, ring := 0, index := 0, root := none, words := words0 0 0, accepted := true, waiting := waiting, status := 0, reason := 0, who := none, values := []
    done := 0, fsum := 0, refused := 0, sent := 0, closed := false, ownDone := own }

/-- The device with that command. -/
def tasked (waiting : List Nat) (own : Bool) : State := on (fabbed [(0x100_0020, 1000)] id) fun d => { d with root := 84 * 1000, host := { d.host with tasks := [task0 waiting own] } }

/-- A relayed NOP of device 1, and device 1's answer to the command with tag 0. -/
def ask1 : FabMsg := { msg0 with cls := 3, src := 1, kind := 1, body := List.replicate 64 0 }

def answer1 : FabMsg := { msg0 with cls := 3, src := 1, kind := 2, body := List.replicate 32 0 }

theorem witness_RelayedCommandsAreAnswered :
    (live (fabbed [] id).dev = true ∧ (fabbed [] id).dev.raised = [] ∧ fabUp (fabbed [] id).dev 0 = true ∧ isReady (fabbed [] id).dev = true ∧
      (Instr.relayRequestReceive 0 ask1).wf = true ∧ ask1.dst = myDev (fabbed [] id).dev ∧ opOf (cmdWords ask1.body) = 0 ∧ (fabbed [] id).dev.host.tasks = [] ∧ relayPort (fabbed [] id).dev ask1.src = some 0) ∧
    ((tasked [1, 2] true).dev.host.tasks.find? (fun t => t.root.isNone && tagOf t.words == fld answer1.w1.toNat 63 48 && t.waiting.contains answer1.src) =
      some (task0 [1, 2] true) ∧ 2 ∈ (task0 [1, 2] true).waiting ∧ 2 ≠ answer1.src ∧
      (Instr.relayReplyReceive 0 answer1).wf = true ∧ fabUp (tasked [1, 2] true).dev 0 = true ∧ answer1.dst = myDev (tasked [1, 2] true).dev) ∧
    (taskOf (tasked [1] true).dev 4 = some (task0 [1] true) ∧ (task0 [1] true).waiting ≠ [] ∧
      (task0 [1] true).sent + rgf (tasked [1] true).dev 0x100_0020 31 0 ≤ ticks (tasked [1] true).dev ∧ requestHeld (tasked [1] true).dev (task0 [1] true) = false ∧ (task0 [1] true).ownDone = true) ∧
    (taskOf (tasked [1] false).dev 4 = some (task0 [1] false) ∧ requestHeld (tasked [1] false).dev (task0 [1] false) = false ∧
      (task0 [1] false).sent + rgf (tasked [1] false).dev 0x100_0020 31 0 ≤ ticks (tasked [1] false).dev ∧ (task0 [1] false).ownDone = false ∧ (task0 [1] false).accepted = true) := by decide +kernel

/-- Device 1 is TMASTER; an exchange is open or not. -/
def synced (o : Option Nat) (l : Tab W64) : State := fabbed (l ++ [(0x100_0000, 0x2_0000_0000)]) fun f => { f with sync := { f.sync with open1 := o } }

/-- A reply to the request of time 0: far off, and near. -/
def reply0 (t : Nat) : FabMsg := { msg0 with cls := 4, src := 1, kind := 2, body := leBytes 8 0 ++ leBytes 8 t ++ leBytes 8 t }

theorem witness_WallTicksAreExchanged :
    (live (synced none []).dev = true ∧ (synced none []).dev.raised = [] ∧ rgf (synced none []).dev 0x100_0000 38 33 ≠ myDev (synced none []).dev ∧
      (synced none []).dev.fab.sync.lastReq = none ∧ (synced none []).dev.fab.sync.open1 = none ∧ syncParent (synced none []).dev = some 0) ∧
    (fabUp (synced none []).dev 0 = true ∧ (Instr.wallTickRequestReceive 0 { reply0 0 with kind := 1 }).wf = true ∧
      (Instr.wallTickReplyReceive 0 (reply0 1000)).wf = true ∧ (Instr.wallTickReplyReceive 0 (reply0 5)).wf = true) ∧
    ((synced (some 0) []).dev.fab.sync.open1 = some 0 ∧ leNat ((reply0 1000).body.take 8) = 0 ∧ rgf (synced (some 0) []).dev 0x100_0010 63 63 ≠ 1) ∧
    (leNat ((reply0 5).body.take 8) = 0 ∧ rgf (synced (some 0) [(0x100_0010, BitVec.ofNat 64 (2 ^ 63))]).dev 0x100_0010 63 63 = 1) := by decide +kernel

/-- A squall of device 1. -/
def squall1 : FabMsg := { msg0 with cls := 6, src := 1, hops := 1, body := leBytes 8 (7 * 2 ^ 48 + 1) ++ leBytes 8 0x13 }

theorem witness_SquallsStopTheStep :
    (Arrives (fabbed [] fun f => { f with seen := [(1, 7, 0)] }) 0 ∧ (Instr.squallReceive 0 squall1).wf = true ∧
      squallSeen (fabbed [] fun f => { f with seen := [(1, 7, 0)] }).dev squall1.src (fld (leNat (squall1.body.take 8)) 63 48) = true) ∧
    (Arrives (fabbed [(0x30B_0000, 0x101)] id) 0 ∧
      squallSeen (fabbed [(0x30B_0000, 0x101)] id).dev squall1.src (fld (leNat (squall1.body.take 8)) 63 48) = false ∧ stState (fabbed [(0x30B_0000, 0x101)] id).dev = 1 ∧
      (mapCells (fabbed [(0x30B_0000, 0x101)] id).dev).any (docentRuns (fabbed [(0x30B_0000, 0x101)] id).dev) = false) ∧
    (Arrives (fabbed [(0x30B_0000, 0x102)] id) 0 ∧ stState (fabbed [(0x30B_0000, 0x102)] id).dev = 2 ∧ squall1.hops ≤ 1 ∧
      squallSeen (fabbed [(0x30B_0000, 0x102)] id).dev squall1.src (fld (leNat (squall1.body.take 8)) 63 48) = false ∧
      ((fabbed [(0x30B_0000, 0x102)] id).dev.cells.all fun e => e.2.wait.isNone) = true ∧ EventRoom (fabbed [(0x30B_0000, 0x102)] id).dev) := by decide +kernel

/-- The host's classes are class 16, which the base almanac grants to it. -/
def windowed : State := st [(0x20_1010, 0x1010)]

/-- A host access has waited for 100 µs. -/
def waitedHost : State :=
  on (st []) fun d => { d with root := 84 * 10000, host := { d.host with wait := [{ window := 1, off := 0, len := 8, data := none, wt := 0 }] } }

theorem witness_HostWindowsMoveBytes :
    (reached windowed.dev = true ∧ windowed.dev.raised = [] ∧ isReady windowed.dev = true ∧ (winBytes 1 0 64).all (winByteOk windowed.dev) = true ∧
      grantedAll windowed.dev (rgf windowed.dev 0x20_1010 15 8) 49 false (winPieces 1 0 64) = true ∧ Movable windowed (winPieces 1 0 64)) ∧
    ((winBytes 3 0x8000_0000 64).all (winByteOk windowed.dev) = true ∧
      grantedAll windowed.dev (rgf windowed.dev 0x20_1010 7 0) 49 true (winPieces 3 0x8000_0000 64) = true ∧ Movable windowed (winPieces 3 0x8000_0000 64) ∧
      (guardPieces windowed.dev (winPieces 3 0x8000_0000 64) (List.replicate 64 1)).toOption.isSome = true) ∧
    (reached (st [(0x20_1010, 0)]).dev = true ∧ isReady (st [(0x20_1010, 0)]).dev = true ∧ (winBytes 1 0 64).all (winByteOk (st [(0x20_1010, 0)]).dev) = true ∧
      grantedAll (st [(0x20_1010, 0)]).dev (rgf (st [(0x20_1010, 0)]).dev 0x20_1010 15 8) 49 false (winPieces 1 0 64) = false) ∧
    (winBytes 3 0x6000_0000 1).all (winByteOk windowed.dev) = false ∧
    (live waitedHost.dev = true ∧ waitedHost.dev.raised = [] ∧ ∃ a rest, waitedHost.dev.host.wait = a :: rest ∧ a.wt + 10000 ≤ ticks waitedHost.dev) :=
  ⟨by decide +kernel, by decide +kernel, by decide +kernel, by decide +kernel, by decide +kernel, by decide +kernel, _, _, rfl, by decide +kernel⟩

theorem witness_CommandRingsServe :
    (Writable (st []) (cqReg 0 0) ∧ (BitVec.ofNat 64 (4 * 2 ^ 56)).getLsbD 63 = false ∧ 4 ≤ fld (BitVec.ofNat 64 (4 * 2 ^ 56)).toNat 59 56) ∧
    ((0 : W64).getLsbD 63 = false ∧ fld (0 : W64).toNat 59 56 < 4) ∧
    (Writable (st []) (cqReg 3 0) ∧ (BitVec.ofNat 64 (2 ^ 63 + 12 * 2 ^ 56)).getLsbD 63 = true ∧ (rg (st []).dev (cqReg 3 0)).getLsbD 63 = false ∧
      4 ≤ fld (BitVec.ofNat 64 (2 ^ 63 + 12 * 2 ^ 56)).toNat 59 56 ∧ fld (BitVec.ofNat 64 (2 ^ 63 + 12 * 2 ^ 56)).toNat 59 56 ≤ 12) ∧
    (Writable (ringed 0 0 []) (cqReg 0 0x10) ∧
      (fld (16 : W64).toNat 31 0 + 2 ^ 32 - rgf (ringed 0 0 []).dev (cqReg 0 0x18) 63 32) % 2 ^ 32 ≤ 2 ^ rgf (ringed 0 0 []).dev (cqReg 0 0) 59 56) ∧
    (2 ^ rgf (ringed 0 0 []).dev (cqReg 0 0) 59 56 < (fld (17 : W64).toNat 31 0 + 2 ^ 32 - rgf (ringed 0 0 []).dev (cqReg 0 0x18) 63 32) % 2 ^ 32 ∧
      rgf (ringed 0 0 []).dev (cqReg 0 0x18) 1 1 = 0) ∧
    (TakesFromRing (ringed 0 0 []) 0 (words0 0 0) ∧ opOf (words0 0 0) = 0 ∧ (ringed 0 0 []).dev.host.tasks = [] ∧
      place (ringed 0 0 []).dev hostBase = .host 0) := by decide +kernel

/-- A task of ring 0 whose own share is not complete: PROGLOAD of one bundle from cell 0's folio store, and COPY of 64 bytes within it. -/
def loading (op a0 a1 a2 a3 : Nat) : State :=
  on (st []) fun d => { d with host := { d.host with tasks :=
    [{ task0 [] false with words := [BitVec.ofNat 64 (op * 2 ^ 56), 0, BitVec.ofNat 64 a0, BitVec.ofNat 64 a1, BitVec.ofNat 64 a2, BitVec.ofNat 64 a3, 0, 0] }] } }

/-- The task. -/
def taskIn (s : State) : HostTask := s.dev.host.tasks.headD (task0 [] false)

def load7 : State := loading 7 folioBase 3 0 0

def copy8 : State := loading 8 folioBase (folioBase + 0x100) 64 1

theorem witness_ProgloadAndCopyComplete :
    (Ready load7 ∧ (taskIn load7).waiting = [] ∧ (taskIn load7).accepted = true ∧ (taskIn load7).root = none ∧
      pendingTask load7.dev 4 7 = some (taskIn load7) ∧ argOf (taskIn load7).words 0 % 2 ^ 48 = folioBase ∧ folioBase % 32 = 0 ∧
      fld (argOf (taskIn load7).words 1) 28 16 + 1 = 1 ∧ Movable load7 (pieces64 folioBase 32) ∧ linkServes load7.dev (pieces64 folioBase 32) = true ∧
      ((pieces64 folioBase 32).all fun q => (memPort load7.dev q.1).isNone) = true) ∧
    (Ready copy8 ∧ pendingTask copy8.dev 4 8 = some (taskIn copy8) ∧ fld (argOf (taskIn copy8).words 2) 31 0 = 64 ∧
      Movable copy8 (pieces64 folioBase 64 ++ pieces64 (folioBase + 0x100) 64) ∧ sweeping copy8.dev = false ∧
      linkServes copy8.dev (pieces64 folioBase 64 ++ pieces64 (folioBase + 0x100) 64) = true ∧
      grantedAll copy8.dev (rgf copy8.dev 0x20_1010 15 8) 49 false (pieces64 folioBase 64) = true ∧
      grantedAll copy8.dev (rgf copy8.dev 0x20_1010 7 0) 49 true (pieces64 (folioBase + 0x100) 64) = true) := by decide +kernel

/-- An event is held; the queue is enabled, or events go to device 1. -/
def holding (l : Tab W64) : State :=
  on (fabbed l id) fun d => { d with host := { d.host with held := [{ dev := 0, type := 3, stamp := 1, wt := 2, arg0 := 0, arg1 := 0 }] } }

theorem witness_EventsReachTheirQueue :
    (live (holding [(0x20_0100, BitVec.ofNat 64 (2 ^ 63 + 4 * 2 ^ 56))]).dev = true ∧
      (holding [(0x20_0100, BitVec.ofNat 64 (2 ^ 63 + 4 * 2 ^ 56))]).dev.raised = [] ∧
      (holding [(0x20_0100, BitVec.ofNat 64 (2 ^ 63 + 4 * 2 ^ 56))]).dev.host.dropped = 0 ∧
      fwdRoot (holding [(0x20_0100, BitVec.ofNat 64 (2 ^ 63 + 4 * 2 ^ 56))]).dev = none ∧
      bitAt (rg (holding [(0x20_0100, BitVec.ofNat 64 (2 ^ 63 + 4 * 2 ^ 56))]).dev 0x20_0100).toNat 63 = true ∧
      hostUp (holding [(0x20_0100, BitVec.ofNat 64 (2 ^ 63 + 4 * 2 ^ 56))]).dev = true ∧
      (rgf (holding [(0x20_0100, BitVec.ofNat 64 (2 ^ 63 + 4 * 2 ^ 56))]).dev 0x20_0110 63 32 + 2 ^ 32
        - rgf (holding [(0x20_0100, BitVec.ofNat 64 (2 ^ 63 + 4 * 2 ^ 56))]).dev 0x20_0108 31 0) % 2 ^ 32
          < 2 ^ rgf (holding [(0x20_0100, BitVec.ofNat 64 (2 ^ 63 + 4 * 2 ^ 56))]).dev 0x20_0100 59 56) ∧
    (fwdRoot (holding [(0x20_0118, BitVec.ofNat 64 (2 ^ 63 + 1))]).dev = some 1 ∧
      relayPort (holding [(0x20_0118, BitVec.ofNat 64 (2 ^ 63 + 1))]).dev 1 = some 0) ∧
    ((Instr.forwardedEventReceive 0 { msg0 with cls := 3, kind := 3 }).wf = true ∧ fabUp (fabbed [] id).dev 0 = true ∧
      msg0.dst = myDev (fabbed [] id).dev ∧ (BitVec.ofNat 64 (2 ^ 63 + hostBase)).getLsbD 63 = true ∧ (0 : W64).getLsbD 63 = false ∧
      (fabbed [] id).dev.host.held.length < 256) := by decide +kernel

/-! ### Accession and the ledger -/

theorem witness_CrateAndAccession :
    (Writable (st []) 0x30B_0018 ∧ stMask 0x30B_0018 ≠ 0 ∧ accPending (st []).dev = false ∧ (st []).dev.acc.crate.length < 8192) ∧
    Writable (st []) 0x10_0030 ∧
    (Ready (st [(0x10_0000, 1)]) ∧ accState (st [(0x10_0000, 1)]).dev = 1 ∧ (st [(0x10_0000, 1)]).dev.acc.mode = 0 ∧ (st [(0x10_0000, 1)]).dev.acc.fail = none) ∧
    ((on (st [(0x10_0000, 1)]) fun d => { d with acc := { d.acc with fail := some (2, none) } }).dev.acc.fail = some (2, none)) ∧
    (Ready (st [(0x10_0000, 2)]) ∧ accState (st [(0x10_0000, 2)]).dev = 2 ∧ pickFail (st [(0x10_0000, 2)]).dev (stateFails (st [(0x10_0000, 2)]).dev) = none ∧
      (st [(0x10_0000, 2)]).dev.upset = []) :=
  ⟨by decide +kernel, by decide +kernel, by decide +kernel, by decide +kernel, by decide +kernel⟩

/-- An update to copy A that is over, with its failure. -/
def updating (fail : Option Nat) : State := on (st [(0x10_1000, 16)]) fun d =>
  { d with sec := { d.sec with upd := some { target := 1, fail := fail, bytes := [1, 2], seq := 1 } } }

theorem witness_LedgerUpdates :
    (Writable (st []) 0x10_1010 ∧ (st []).dev.upset = [] ∧ rgf (st []).dev 0x10_1000 4 4 = 0 ∧ accPending (st []).dev = false) ∧
    (Writable (updating none) 0x10_1010 ∧ (1 : W64).getLsbD 0 = true ∧ rgf (updating none).dev 0x10_1000 4 4 = 1) ∧
    (live (updating none).dev = true ∧ (updating none).dev.raised = [] ∧ updateWaits (updating none).dev = false ∧
      (updating none).dev.sec.upd = some { target := 1, fail := none, bytes := [1, 2], seq := 1 }) ∧
    (updating (some 0x43)).dev.sec.upd = some { target := 1, fail := some 0x43, bytes := [1, 2], seq := 1 } ∧
      live (updating (some 0x43)).dev = true ∧ (updating (some 0x43)).dev.raised = [] ∧ updateWaits (updating (some 0x43)).dev = false ∧
      EventRoom (updating (some 0x43)).dev :=
  ⟨by decide +kernel, by decide +kernel, by decide +kernel, by decide +kernel⟩

/-! ### Fault log, counters, trace, resets -/

theorem witness_LogAndCountersClear :
    Writable (st []) 0x40_0008 ∧ Writable (st []) 0x307_0008 ∧ (1 : W64).getLsbD 1 = false ∧ (2 : W64).getLsbD 1 = true := by decide +kernel

/-- Cell 0 traces, `n` ticks after reset. -/
def tracing (n : Nat) : State := on (celled [] fun x => { x with traceOn := true }) fun d => { d with root := 84 * n }

/-- Gallery 0's stream is enabled, in slots that the almanac gives it. -/
def streaming : State :=
  lending 52 <| on (st [(0x300_0000, BitVec.ofNat 64 (2 ^ 63)), (0x300_0800, 16)]) fun d => modGal d 0 fun y => { y with trace := [7, 8] }

theorem witness_TraceEntersAndStreams :
    (clocked (tracing 0).dev = true ∧ (tracing 0).dev.raised = [] ∧ okCell 0 = true ∧ (cellOf (tracing 0).dev 0).traceOn = true ∧
      (cellOf (tracing 0).dev 0).trun = none ∧ (cellOf (tracing 0).dev 0).tsync + 1048576 > ticks (tracing 0).dev) ∧
    ((cellOf (tracing 1048576).dev 0).tsync + 1048576 ≤ ticks (tracing 1048576).dev ∧ (galOf (tracing 1048576).dev (galleryOfCell 0)).dropped = 0 ∧
      (galOf (tracing 1048576).dev (galleryOfCell 0)).resync = [] ∧ 16 ≤ traceRoom (tracing 1048576).dev (galleryOfCell 0)) ∧
    (okGallery 0 = true ∧ Writable (st []) (trcReg 0 0)) ∧
    (clocked streaming.dev = true ∧ streaming.dev.raised = [] ∧ portUp streaming.dev (galleryPort 0) = true ∧
      (rg streaming.dev (trcReg 0 0)).getLsbD 63 = true ∧ (galOf streaming.dev 0).tstop = false ∧ (galOf streaming.dev 0).dropped = 0 ∧
      place streaming.dev 0 = .hbm 0 ∧ trcSlot streaming.dev (hbmPort streaming.dev 0) = true ∧
      min (min (8 * (galOf streaming.dev 0).trace.length) (64 - 0 % 64)) (trcSpace streaming.dev 0) / 8 ≠ 0) :=
  ⟨by decide +kernel, by decide +kernel, by decide +kernel, by decide +kernel⟩

/-- A reset (KIND, PHASE) that began 2 µs ago; a warm one's links are down, or not. -/
def resettingAs (kind phase : Nat) (down : Bool) : State :=
  on (st [(0x40_0010, BitVec.ofNat 64 (kind * 2 ^ 6 + phase * 2 ^ 4))]) fun d =>
    { d with root := 84 * 200, rst := some { start := 0, wiped := false, down := down } }

/-- A dump is captured into the depot. -/
def dumping : State :=
  on (st [(0x305_0000, BitVec.ofNat 64 depotBase), (0x305_0008, 1), (0x30A_0000, BitVec.ofNat 64 (2 ^ 40 + 16))]) fun d =>
    { d with dump := some { port := 0, bundle := 0, wt := 0, task := none } }

theorem witness_ResetsAndDumpsEnd :
    (∀ down ∈ [false, true], live (resettingAs 2 2 down).dev = true ∧ (resettingAs 2 2 down).dev.raised = [] ∧ EventRoom (resettingAs 2 2 down).dev ∧
      (resettingAs 2 2 down).dev.rst = some { start := 0, wiped := false, down := down } ∧ rgf (resettingAs 2 2 down).dev 0x40_0010 7 6 = 2 ∧
      rgf (resettingAs 2 2 down).dev 0x40_0010 5 4 = 2 ∧ 0 + 200 ≤ ticks (resettingAs 2 2 down).dev) ∧
    (rgf (resettingAs 1 2 false).dev 0x40_0010 7 6 = 1 ∧ rgf (resettingAs 1 2 false).dev 0x40_0010 5 4 = 2 ∧ EventRoom (resettingAs 1 2 false).dev) ∧
    (rgf (resettingAs 2 3 true).dev 0x40_0010 5 4 = 3 ∧ (resettingAs 2 3 true).dev.rst = some { start := 0, wiped := false, down := true }) ∧
    (dumping.dev.dump = some { port := 0, bundle := 0, wt := 0, task := none } ∧ rgf dumping.dev 0x305_0008 1 0 = 1 ∧
      place dumping.dev (dumpBase dumping.dev) = .depot 0 ∧ place dumping.dev (dumpBase dumping.dev + dumpLen - 1) = .depot (dumpLen - 1)) := by
  decide +kernel

/-! ### Power, clocks, boot -/

/-- The supply in a band for `n` ticks. -/
def supplied (on_ : Bool) (band n : Nat) : State := on (st []) fun d => { d with root := 84 * n, pwr := { d.pwr with on := on_, band := band, bandWt := 0 } }

theorem witness_SupplyAndPower :
    ((st []).dev.raised = [] ∧ (st []).dev.pwr.on = true ∧ bandOf 54000 = (st []).dev.pwr.band) ∧
    (live (supplied true 1 100000).dev = true ∧ rgf (supplied true 1 100000).dev pwrStat 0 0 = 0 ∧
      (supplied true 1 100000).dev.pwr.bandWt + 100000 ≤ ticks (supplied true 1 100000).dev) ∧
    ((supplied true 3 1000000).dev.pwr.band = 3 ∧ (supplied true 3 1000000).dev.pwr.bandWt + 1000000 ≤ ticks (supplied true 3 1000000).dev) ∧
    (st []).dev.pwr.band = 2 ∧
    ((supplied true 0 5000).dev.pwr.band = 0 ∧ (supplied true 0 5000).dev.pwr.bandWt + 5000 ≤ ticks (supplied true 0 5000).dev) ∧
    ((supplied false 2 0).dev.pwr.on = false ∧ (supplied false 2 0).dev.raised = [] ∧ (supplied false 2 0).dev.pwr.band = 2) := by decide +kernel

/-- A freeze in force; its edges have stopped, and its condition has been gone for 10 ms. -/
def freezing (stopped lost : Bool) : State :=
  on (st []) fun d => { d with root := 84 * 1000000, pwr := { d.pwr with freeze := some 0, stopped := stopped, lost := lost } }

theorem witness_OrderlyFreeze :
    (live (st []).dev = true ∧ okDie 4 = true) ∧
    ((freezing false false).dev.pwr.freeze.isSome = true ∧ (freezing false false).dev.pwr.stopped = false ∧
      ((freezing false false).dev.cells.all fun e => e.2.due.isEmpty) = true) ∧
    (freezing true true).dev.pwr.lost = true ∧
    ((freezing true false).dev.pwr.stopped = true ∧ (freezing true false).dev.pwr.lost = false ∧
      (∀ c, c < nCells → (cellOf (freezing true false).dev c).traceOn = false) ∧ (freezing true false).dev.pwr.good = some 0 ∧
      (freezing true false).dev.pwr.cool = some 0 ∧ 0 + 1000000 ≤ ticks (freezing true false).dev) := by decide +kernel

/-- A quantum of 100 wall ticks. -/
def quantum0 (n : Nat) : State := on (st [(0x80_0100, 100)]) fun d => { d with wt := n }

/-- An edge has passed since the last decay of wing 0. -/
def decaying : State := on (st []) fun d => putWing d 0 { wingReset with stretch := 2, decay := true }

theorem witness_ClocksAndSensors :
    (live (st []).dev = true ∧ (st []).dev.raised = [] ∧ okGallery 47 = true ∧ (wingOf (st []).dev (47 / 12)).tripped.contains 47 = false) ∧
    (clocked decaying.dev = true ∧ (wingOf decaying.dev 0).tripped = [] ∧ (wingOf decaying.dev 0).decay = true) ∧
    ((List.replicate 72 (-32768 : Int)).length = 72 ∧ (∀ t ∈ List.replicate 72 (-32768 : Int), -32768 ≤ t ∧ t < 1600) ∧ rgf (st []).dev pwrStat 1 1 = 0 ∧ EventRoom (st []).dev) ∧
    (live (quantum0 1).dev = true ∧ (quantum0 1).dev.wt % rgf (quantum0 1).dev 0x80_0100 31 0 ≠ 0) ∧
    (rgf (quantum0 0).dev 0x80_0100 31 0 ≠ 0 ∧ (quantum0 0).dev.wt % rgf (quantum0 0).dev 0x80_0100 31 0 = 0 ∧
      (quantum0 0).dev.pwr.quantum ≠ some (quantum0 0).dev.wt ∧ EventRoom (quantum0 0).dev) := by decide +kernel

/-- Flash bytes from an address. -/
def flashAt : Nat → List Byte → Tab (Option Byte)
  | _, [] => []
  | a, b :: bs => (a, some b) :: flashAt (a + 1) bs

/-- The public key of the private scalar 5, which stands for the vendor and the owner in the tests. -/
def key5 : List Byte :=
  4 :: beBytes 66
    0x652bf3c52927a432c73dbc3391c04eb0bf7a596efdb53f0d24cf03dab8f177ace4383c0c6d5e3014237112feaf137e79a329d7e1e6d8931738d5ab5096ec8f3078
    ++ beBytes 66
    0x15be6ef1bdd6601d6ec8a2b73114a8112911cd8fe8e872e0051edd817c9a0347087bb6897c9072cf374311540211cf5ff79d1f007257354f7f8173cc3e8deb090cb

/-- A signature by that key, with the nonce 7. -/
def sig5 (s : Nat) : List Byte :=
  beBytes 66
    0x56d5d1d99d5b7f6346eeb65fda0b073a0c5f22e0e8f5483228f018d2c2f7114c5d8c308d0abfc698d8c9a6df30dce3bbc46f953f50fdc2619a01cead882816ecd4
    ++ beBytes 66 s

/-- An image of one byte in slot 0: its header with key and LENGTH 1, and its body. -/
def image0 : List Byte :=
  leBytes 4 0x5746_4B53 ++ leBytes 2 1 ++ leBytes 2 0 ++ leBytes 4 7 ++ leBytes 4 1 ++ List.replicate 0x30 0 ++ key5 ++ List.replicate 59 0 ++ [1]

/-- The second half of its signature. -/
def imageS : Nat :=
  0x872beb9b3118e0e188eb9598fe2734184811177e6ddc91ac00b364bee37effb0f5c0e49a570698bea6fc0c53e346ca9392254f5c7302823f28822c4f4d46353f20

/-- The image with its signature. -/
def signed0 : List Byte := image0 ++ sig5 imageS

/-- A device in cold reset with trained links; slot 0 holds the image when `good`, and slot 1 holds none. -/
def rebooting (good : Bool) : State :=
  { pending := []
    dev := { coldDev with
      reg := [(0x20_1000, 0x210)]
      sec := { coldDev.sec with
        fuses := { coldDev.sec.fuses with vkh := sha512 key5 }
        flash := flashAt 0x140_0000 [0, 0, 0, 0] ++ flashAt 0x80_0000 (if good then signed0 else [0, 0, 0, 0]) } } }

theorem tabGet_flashAt (bs : List Byte) : ∀ a i, i < bs.length → tabGet (fun _ => none) (flashAt a bs) (a + i) = bs[i]? := by
  induction bs with
  | nil => intro a i h; simp at h
  | cons b bs ih =>
    intro a i h
    cases i with
    | zero => simp [flashAt, tabGet]
    | succ i =>
      have := ih (a + 1) i (by simpa using h)
      simp [flashAt, tabGet, ← this, Nat.add_assoc, Nat.add_comm 1 i]

theorem signed0_length : signed0.length = 389 := by decide +kernel

/-- Reads of the signed image in slot 0. -/
theorem read_signed0 (o n : Nat) (k : o + n ≤ 389) : flashRead (rebooting true).dev (0x80_0000 + o) n = (signed0.drop o).take n := by
  apply List.ext_getElem
  · simp [flashRead, signed0_length]; omega
  · intro i h1 h2
    have hj : o + i < 389 := by simp [flashRead] at h1; omega
    have hi : o + i < signed0.length := by rw [signed0_length]; exact hj
    have e : (rebooting true).dev.sec.flash = (0x140_0000, some 0) :: (0x140_0001, some 0) :: (0x140_0002, some 0) :: (0x140_0003, some 0) ::
      flashAt 0x80_0000 signed0 := rfl
    simp only [flashRead, List.getElem_map, List.getElem_range, flashByte, e, tabGet, Nat.add_assoc]
    rw [if_neg (by omega), if_neg (by omega), if_neg (by omega), if_neg (by omega), tabGet_flashAt _ _ _ hi]
    simp [hi]

theorem slot0_passes : slotOk (rebooting true).dev 0 = true := by
  have n1 : leNat (flashRead (rebooting true).dev 0x80_000C 4) = 1 := by rw [read_signed0 0xC 4 (by decide)]; decide +kernel
  have n2 : fwLength (rebooting true).dev 0 = 1 := n1
  have sv : fwSvn (rebooting true).dev 0 = 0 := by
    show leNat (flashRead (rebooting true).dev (0x80_0000 + 6) 2) = 0
    rw [read_signed0 6 2 (by decide)]; decide +kernel
  have ky : fwKey (rebooting true).dev 0 = (signed0.drop 0x40).take 133 := read_signed0 0x40 133 (by decide)
  have dg : fwDigest (rebooting true).dev 0 = sha512 ((signed0.drop 0).take 257) := by
    unfold fwDigest; rw [n2]; exact congrArg sha512 (read_signed0 0 257 (by decide))
  have m0 : flashRead (rebooting true).dev (slotBase 0) 4 = (signed0.drop 0).take 4 := read_signed0 0 4 (by decide)
  have m4 : flashRead (rebooting true).dev (slotBase 0 + 4) 2 = (signed0.drop 4).take 2 := read_signed0 4 2 (by decide)
  have sg : flashRead (rebooting true).dev (slotBase 0 + 0x100 + 1) 132 = (signed0.drop 257).take 132 := read_signed0 257 132 (by decide)
  simp only [slotOk, n2, sv, ky, dg, m0, m4, sg]
  decide +kernel

theorem slot1_fails : slotOk (rebooting true).dev 1 = false := by decide +kernel

theorem bootSlot_first (d : Dev) (h0 : slotOk d 0 = true) (h1 : slotOk d 1 = false) : bootSlot d = some 0 := by simp only [bootSlot, h0, h1]

theorem slot0_boots : bootSlot (rebooting true).dev = some 0 := bootSlot_first _ slot0_passes slot1_fails

theorem witness_ColdResetAndBoot :
    (live (st []).dev = true ∧ (st []).dev.raised = []) ∧
    ((on (st []) fun d => { d with pwr := { d.pwr with rstN := false } }).dev.pwr.on = true ∧
      (on (st []) fun d => { d with pwr := { d.pwr with rstN := false } }).dev.pwr.rstN = false) ∧
    (live (rebooting false).dev = true ∧ booting (rebooting false).dev = true ∧ bootSlot (rebooting false).dev = none ∧
      (List.replicate 8 (none : Option Dimm)).length = 8) ∧
    (live (rebooting true).dev = true ∧ (rebooting true).dev.raised = [] ∧ booting (rebooting true).dev = true ∧ bootSlot (rebooting true).dev = some 0 ∧
      lcs (rebooting true).dev < 3 ∧ linksTrained (rebooting true).dev = true) :=
  ⟨by decide +kernel, by decide +kernel, by decide +kernel, by decide +kernel, by decide +kernel, by decide +kernel, slot0_boots, by decide +kernel,
    by decide +kernel⟩

/-! ### Security and the module -/

/-- A token of a KIND with an ARG for this device, signed by the test key. -/
def token0 (kind arg s : Nat) : List Byte :=
  leBytes 4 0x4E4B_5453 ++ leBytes 2 1 ++ leBytes 2 kind ++ leBytes 4 arg ++ List.replicate 124 0 ++ sig5 s

/-- A transition to SCRAPPED, and an unlock of every scope. -/
def scrapToken : List Byte :=
  token0 1 4
    0xd05ef54984f559fdde4ec6d3153100c16c72a5a8ddc95be56e93745d7b9db1984593f3795e1a60d90ffc9073afc7b52c9bac6adc65be8170f794be05a0763e04ba

def unlockToken : List Byte :=
  token0 2 7
    0x1f50643dce0094873a7c0ce4de61a43caea89b0e7be4a7afdd3bc33dae695e266b455935ce307e3977a9ed5d099602a79df26e4e34745b298c3cb91895a0aabf016

/-- Security command `op` runs in state `lc`, with the token in its buffer. -/
def securing (lc op : Nat) (l : Tab W64) (t : List Byte) : State :=
  on (st l) fun d => putBytes { d with sec := { d.sec with cmd := some op, fuses := { d.sec.fuses with lcs := lc, okey := some key5 } } } 0xC0_1000 t

theorem witness_SecurityCommandsEnd :
    (secRuns (securing 0 1 [] []).dev 1 = true ∧ lcs (securing 0 1 [] []).dev = 0 ∧ live (securing 0 1 [] []).dev = true ∧ (securing 0 1 [] []).dev.raised = []) ∧
    (secRuns (securing 2 1 [] []).dev 1 = true ∧ lcs (securing 2 1 [] []).dev = 2 ∧
      reportFits (securing 2 1 [] []).dev (rgf (securing 2 1 [] []).dev 0xC0_0020 47 6 * 64) = true) ∧
    (secRuns (securing 2 2 [(0xC0_0018, 0x40)] scrapToken).dev 2 = true ∧ rgf (securing 2 2 [(0xC0_0018, 0x40)] scrapToken).dev 0xC0_0018 7 4 = 4 ∧
      transitionKey (securing 2 2 [(0xC0_0018, 0x40)] scrapToken).dev 4 = some (some key5) ∧
      tokenFails (securing 2 2 [(0xC0_0018, 0x40)] scrapToken).dev 1 (tokenArg (token (securing 2 2 [(0xC0_0018, 0x40)] scrapToken).dev) == 4) (some key5) = none ∧
      notIdle (securing 2 2 [(0xC0_0018, 0x40)] scrapToken).dev = false) ∧
    transitionKey (securing 0 2 [] []).dev (rgf (securing 0 2 [] []).dev 0xC0_0018 7 4) = none ∧
    (secRuns (securing 2 3 [] unlockToken).dev 3 = true ∧ unlockRefused (securing 2 3 [] unlockToken).dev = false ∧
      unlockFails (securing 2 3 [] unlockToken).dev = none ∧ notIdle (securing 2 3 [] unlockToken).dev = false ∧
      (securing 2 3 [] unlockToken).dev.upset = []) ∧
    (secRuns (securing 0 4 [] []).dev 4 = true ∧ notIdle (securing 0 4 [] []).dev = false) ∧
    (secRuns (securing 1 4 [] []).dev 4 = true ∧ lcs (securing 1 4 [] []).dev ≠ 0) :=
  ⟨by decide +kernel, by decide +kernel, by decide +kernel, by decide +kernel, by decide +kernel, by decide +kernel, by decide +kernel⟩

/-- Mailbox operation `op` runs at an address; its page is erased. -/
def mailing (op a : Nat) : State :=
  on (st [(0xC0_2000, BitVec.ofNat 64 (128 + op)), (0xC0_2008, BitVec.ofNat 64 a)]) fun d =>
    { d with sec := { d.sec with mbox := some (op, false), flash := flashAt 0x80_0000 (List.replicate 256 0xFF) } }

theorem witness_FlashMailbox :
    (live (st []).dev = true ∧ (st []).dev.raised = [] ∧ Writable (st []) 0xC0_2000 ∧ mgmtServes (st []).dev 0xC0_2000 1 = true ∧
      rgf (st []).dev 0xC0_2000 7 7 = 0) ∧
    ((mailing 1 0).dev.sec.mbox = some (1, false) ∧ mbRefused (mailing 1 0).dev 1 = some 1) ∧
    (mbRefused (mailing 1 0x80_0000).dev 1 = none ∧ mbRefused (mailing 3 0x80_0000).dev 3 = none) ∧
    (mbRefused (mailing 2 0x80_0000).dev 2 = none ∧ (flashRead (mailing 2 0x80_0000).dev (mbAddr (mailing 2 0x80_0000).dev) 256).all (· == 0xFF) = true) :=
  ⟨by decide +kernel, by decide +kernel, by decide +kernel, by decide +kernel⟩

/-- R631: the IDCODEs that the rule states for revision 0. -/
theorem test_idcode : idcodeAt 0 0 = 0x0B39_00D1 ∧ idcodeAt 0 3 = 0x0B39_30D1 := by decide

/-- The management bus has written SEC_NONCE register 0 in this NCLK. -/
def bused : State := on (st []) fun d => noteBus (putRg d 0xC0_0080 5) 0xC0_0080 5

theorem witness_ManagementAndBoundaryScan_sameNclk :
    lockw bused.dev = false ∧ busNow bused.dev 0xC0_0080 = [5] ∧ busNow (on bused fun d => { d with root := d.root + 4 }).dev 0xC0_0080 = [] := by decide +kernel

/-- R626: the bus started ATTEST and the host link writes PROVISION in the same NCLK: the host's write acts first. -/
theorem test_same_nclk :
    (match busReg (st []).dev 0xC0_0018 1 with
      | .ok d => match hostReg d 0xC0_0018 4 with | .ok d => d.sec.cmd | _ => none
      | _ => none) = some 4 := by decide +kernel

theorem witness_ManagementAndBoundaryScan :
    ((st []).dev.pwr.on = true ∧ (st []).dev.raised = [] ∧ okDie 0 = true) ∧
    (mgmtServes (st []).dev 0x30B_0000 (w64 (leNat (List.take 8 (List.replicate 8 (0 : Byte))))) = false) ∧
    (8 ≤ (List.replicate 8 (0 : Byte)).length ∧ (List.replicate 8 (0 : Byte)).length < 16 ∧
      mgmtServes (st []).dev 0xC0_0080 (w64 (leNat (List.take 8 (List.replicate 8 (0 : Byte))))) = true) := by decide +kernel

end Sys2Proof.Tests
end

section
/-! SUPPORT. Memory and its canonical form (R8, R303). Memory changes only where bytes are written (`wrL` and what is made of it),
made unspecified, wiped, or lost with the supply; every other operation leaves it. So an operation `f` of the model has here one of
two rules: `f_mem` (it leaves memory) or `f_wf` (it keeps memory in canonical form), in the order of the model's files, and the rule
of an operation rests on the rules of those that it calls. -/

namespace Sys2Proof.Machine
open Sys2Proof.Safety

/-! ### Folds, results and cases -/

/-- A fold whose steps leave memory leaves memory. -/
@[simp] theorem foldl_mem {α : Type} {f : Dev → α → Dev} (hf : ∀ d a, (f d a).mem = d.mem) (l : List α) (d : Dev) :
    (l.foldl f d).mem = d.mem :=
  foldl_frame (·.mem) f hf l d

/-- A fold that carries the device beside a result. -/
@[simp] theorem foldl_snd_mem {α β : Type} {f : β × Dev → α → β × Dev} (hf : ∀ s a, (f s a).2.mem = s.2.mem) :
    ∀ (l : List α) (s : β × Dev), (l.foldl f s).2.mem = s.2.mem
  | [], _ => rfl
  | a :: t, s => by rw [List.foldl_cons, foldl_snd_mem hf t, hf]

theorem pair_mem {α : Type} (a : α) {e : Dev} {m : Tab Byte} (h : e.mem = m) : (a, e).2.mem = m := h
theorem withRing_mem (d : Dev) (x : RingSt) : ({ d with ring := x } : Dev).mem = d.mem := rfl
theorem withHost_mem (d : Dev) (x : HostSt) : ({ d with host := x } : Dev).mem = d.mem := rfl

@[simp] theorem drawBytes_mem : ∀ (n : Nat) (d : Dev), (drawBytes n d).2.mem = d.mem
  | 0, _ => rfl
  | n + 1, d => drawBytes_mem n { d with fresh := d.fresh + 1 }

@[simp] theorem freeAt_mem : ∀ (ks : List Nat) (l : List W32) (d : Dev), (freeAt ks l d).2.mem = d.mem
  | [], _, _ => rfl
  | _ :: t, _, d => freeAt_mem t _ { d with fresh := d.fresh + 1 }

@[simp] theorem freeCodes_mem : ∀ (ks l : List Nat) (d : Dev), (freeCodes ks l d).2.mem = d.mem
  | [], _, _ => rfl
  | _ :: t, _, d => freeCodes_mem t _ { d with fresh := d.fresh + 1 }

/-- What a meaning answers, if it answers, has the property `Q`. -/
def Ensures {α : Type} (Q : α → Prop) (r : Res α) : Prop := ∀ a, r = .ok a → Q a

section Ensures
variable {α β : Type} {P : α → Prop} {Q : β → Prop}

@[simp] theorem ensures_ok {a : α} : Ensures P (.ok a) ↔ P a := by simp [Ensures]
@[simp] theorem ensures_pure {a : α} : Ensures P (pure a) ↔ P a := ensures_ok
@[simp] theorem ensures_error {e : Fault} : Ensures P (.error e) := by simp [Ensures]
@[simp] theorem ensures_throw {e : Fault} : Ensures P (throw e) := ensures_error

theorem Ensures.bind {r : Res α} {k : α → Res β} (hr : Ensures P r) (hk : ∀ a, P a → Ensures Q (k a)) : Ensures Q (r >>= k) := by
  cases r with
  | ok a => exact hk a (hr a rfl)
  | error e => exact ensures_error

/-- Nothing need be known of what a read answers. -/
theorem ensures_bind_any {r : Res α} {k : α → Res β} (hk : ∀ a, Ensures Q (k a)) : Ensures Q (r >>= k) :=
  Ensures.bind (P := fun _ => True) (fun _ _ => trivial) fun a _ => hk a

theorem Ensures.map {r : Res α} {f : α → β} (hr : Ensures P r) (hf : ∀ a, P a → Q (f a)) : Ensures Q (r.map f) := by
  cases r with
  | ok a => exact ensures_ok.2 (hf a (hr a rfl))
  | error e => exact ensures_error

/-- A check before the rest: where it fails there is no answer. -/
theorem ensures_unless {c : Prop} [Decidable c] {e : Fault} {k : Unit → Res β} (hk : Ensures Q (k ())) :
    Ensures Q (if c then (do let r ← throw e; k r) else k ()) := by
  split
  · exact Ensures.bind ensures_throw (P := fun _ => False) fun _ h => h.elim
  · exact hk

/-- A check that only some cases need. -/
theorem ensures_when {c : Prop} [Decidable c] {r : Res Unit} {k : Unit → Res β} (hk : ∀ u, Ensures Q (k u)) :
    Ensures Q (if c then r >>= k else k ()) := by
  split
  · exact ensures_bind_any hk
  · exact hk ()

/-- One of two ways to the rest. -/
theorem ensures_ite_bind {c : Prop} [Decidable c] {r s : Res α} {k : α → Res β} (hr : Ensures P r) (hs : Ensures P s)
    (hk : ∀ a, P a → Ensures Q (k a)) : Ensures Q (if c then r >>= k else s >>= k) := by
  split
  · exact hr.bind hk
  · exact hs.bind hk

theorem ensures_ite {c : Prop} [Decidable c] {r s : Res β} (hr : Ensures Q r) (hs : Ensures Q s) : Ensures Q (if c then r else s) := by
  split <;> assumption

theorem Ensures.foldlM {k : β → α → Res β} (hk : ∀ b a, Q b → Ensures Q (k b a)) : ∀ (l : List α) (b : β), Q b → Ensures Q (l.foldlM k b)
  | [], _, h => ensures_pure.2 h
  | a :: t, b, h => by rw [List.foldlM_cons]; exact (hk b a h).bind fun b hb => Ensures.foldlM hk t b hb
end Ensures

/-- The device that a meaning answers has its memory in canonical form. -/
abbrev OkWf (r : Res Dev) : Prop := Ensures (fun d => memWf d.mem = true) r

theorem foldl_wf {α : Type} {f : Dev → α → Dev} (hf : ∀ d a, memWf d.mem = true → memWf (f d a).mem = true) :
    ∀ (l : List α) (d : Dev), memWf d.mem = true → memWf (l.foldl f d).mem = true
  | [], _, h => h
  | a :: t, d, h => foldl_wf hf t (f d a) (hf d a h)

/-- The device answered, if there is one, has its memory in canonical form. -/
def SomeWf (o : Option Dev) : Prop := ∀ d, o = some d → memWf d.mem = true

@[simp] theorem someWf_none : SomeWf none := by simp [SomeWf]
@[simp] theorem someWf_some {d : Dev} : SomeWf (some d) ↔ memWf d.mem = true := by simp [SomeWf]
theorem someWf_ite {c : Prop} [Decidable c] {a b : Option Dev} (ha : SomeWf a) (hb : SomeWf b) : SomeWf (if c then a else b) := by
  split <;> assumption

theorem wf_of_mem {d e : Dev} (he : e.mem = d.mem) (h : memWf d.mem = true) : memWf e.mem = true := he ▸ h

/-- A change that is made in some cases only. -/
theorem ite_then_wf {c : Prop} [Decidable c] {a b : Dev} (ha : memWf b.mem = true → memWf a.mem = true) (hb : memWf b.mem = true) :
    memWf (if c then a else b).mem = true := by
  split
  · exact ha hb
  · exact hb

theorem ite_wf {c : Prop} [Decidable c] {a b : Dev} (ha : memWf a.mem = true) (hb : memWf b.mem = true) :
    memWf (if c then a else b).mem = true := by
  split <;> assumption

/-! ### Ops: what the operations on the state do to memory -/

@[simp] theorem thawCell_mem (d : Dev) (c : Nat) : (thawCell d c).mem = d.mem := by
  unfold thawCell
  split <;> simp

@[simp] theorem drawWord_mem (d : Dev) : (drawWord d).2.mem = d.mem := rfl

@[simp] theorem newId_mem (d : Dev) : (newId d).2.mem = d.mem := rfl

@[simp] theorem stopDocent_mem (d : Dev) (c : Nat) : (stopDocent d c).mem = d.mem := by simp [stopDocent, apply_ite Dev.mem]

@[simp] theorem eccCorrect_mem (d : Dev) (w : Nat) : (eccCorrect d w).mem = d.mem := by simp [eccCorrect, apply_ite Dev.mem]

@[simp] theorem eccFault_mem (d : Dev) (w : Nat) (bundle : Option Nat) : (eccFault d w bundle).mem = d.mem := by
  simp only [eccFault]
  (repeat' split) <;> simp

@[simp] theorem eccBytes_mem (d : Dev) (l : List (Nat × Byte)) : (eccBytes d l).2.mem = d.mem := by
  have h (ws : List (Nat × Nat)) : (ws.foldl (fun d e => eccCorrect d e.1) d).mem = d.mem := foldl_mem (fun _ _ => eccCorrect_mem ..) ws d
  unfold eccBytes
  dsimp only
  split
  · exact h _
  · refine (foldl_snd_mem (fun s _ => ?_) _ _).trans ?_
    · exact drawBytes_mem 8 s.2
    · rw [eccFault_mem, h]

@[simp] theorem eccRead_mem (d : Dev) (a : Nat) (bs : List Byte) :
    (eccRead d a bs).2.mem = d.mem := by simp [eccRead, apply_ite Prod.snd, apply_ite Dev.mem]

@[simp] theorem eccTouch_wf {d : Dev} {a n : Nat} (h : memWf d.mem) : memWf (eccTouch d a n).mem := by
  unfold eccTouch
  split
  · exact h
  · refine foldl_wf (fun d e h => ?_) _ d h
    split
    · exact wrUnspec_wf _ _ (by simpa using h)
    · simpa using h

@[simp] theorem eccFetch_mem (d : Dev) (c a : Nat) : (eccFetch d c a).2.mem = d.mem := by
  simp only [eccFetch]
  split <;> simp

@[simp] theorem stateEcc_mem (d : Dev) (c : Nat) (st : CellStore) (inst : Nat) (p : Nat → Bool) :
    (stateEcc d c st inst p).2.mem = d.mem := by
  simp only [stateEcc]
  (repeat' split) <;> simp

@[simp] theorem stateRow_mem (d : Dev) (c : Nat) (st : CellStore) (inst w0 n : Nat) (l : List W32) :
    (stateRow d c st inst w0 n l).2.mem = d.mem := by simp [stateRow]

/-! ### Stores: the stores of a cell -/

@[simp] theorem readFolio_mem (d : Dev) (c off n : Nat) :
    (readFolio d c off n).2.mem = d.mem := by simp [readFolio, apply_ite Prod.snd, apply_ite Dev.mem]

@[simp] theorem readDesc_wf {d : Dev} {c i : Nat} (h : memWf d.mem) : memWf (readDesc d c i).2.mem := by
  simp only [readDesc]
  split <;> simp [h]

@[simp] theorem gaugeAdd_mem (d : Dev) (c baro g n : Nat) : (gaugeAdd d c baro g n).mem = d.mem := by simp [gaugeAdd, apply_ite Dev.mem]

@[simp] theorem gaugesAdd_mem (d : Dev) (c baro : Nat) (gs : List (Nat × Nat)) : (gaugesAdd d c baro gs).mem = d.mem := by simp [gaugesAdd]

@[simp] theorem descGauges_mem (d : Dev) (c : Nat) (x : Desc) (gs : List (Nat × Nat)) :
    (descGauges d c x gs).mem = d.mem := by simp [descGauges, apply_ite Dev.mem]

@[simp] theorem observe_wf {d : Dev} {c baro k : Nat} {m : Option W32} (h : memWf d.mem) : memWf (observe d c baro k m).mem := by
  simp only [observe]
  (repeat' split) <;> simp [h]

theorem usePorts_wf {d : Dev} {c e : Nat} {banks : List Nat} (h : memWf d.mem) : OkWf (usePorts d c e banks) := by
  unfold usePorts
  extract_lets x used
  split <;> simp [h]

theorem readPorts_wf {d : Dev} {c e off n : Nat} (h : memWf d.mem) : Ensures (fun p => memWf p.2.mem) (readPorts d c e off n) := by
  unfold readPorts
  exact ensures_bind_any fun _ => (usePorts_wf h).bind fun d h => by simpa using h

theorem readScales_wf {d : Dev} {c w : Nat} {offs : List Nat} (h : memWf d.mem) :
    Ensures (fun p => memWf p.2.mem) (readScales d c w offs) := by
  unfold readScales
  refine ensures_bind_any fun _ => ensures_pure.2 ?_
  split
  · exact h
  · simpa using h

theorem storeFolio_wf {d : Dev} {c e : Nat} {bs : List (Nat × Byte)} {banks : List Nat} (h : memWf d.mem) :
    OkWf (storeFolio d c e bs banks) := by
  unfold storeFolio
  exact ensures_unless ((usePorts_wf h).bind fun d h => ensures_pure.2 (wrL_wf d _ h))

@[simp] theorem surveyRun_mem (d : Dev) (visiting : Bool) (site : Nat) (x : Desc) (els : List (Nat × Nat × Val × Nat)) :
    (surveyRun d visiting site x els).mem = d.mem := by simp [surveyRun, apply_ite Dev.mem]

@[simp] theorem residueFault_mem (d : Dev) (c sub : Nat) (addr tid : Nat) :
    (residueFault d c sub addr tid).mem = d.mem := by simp [residueFault]

/-! ### Forward: the forward unit -/

theorem ploadStart_wf {d : Dev} {c e desc p j : Nat} {vslot : Bool} (h : memWf d.mem) : OkWf (ploadStart d c e desc p j vslot) := by
  unfold ploadStart
  dsimp only
  refine ensures_bind_any fun f => ensures_unless (ensures_bind_any fun _ => ?_)
  simp [h]

theorem ploadRead_wf {d : Dev} {c e k : Nat} (h : memWf d.mem) : OkWf (ploadRead d c e k) := by
  unfold ploadRead
  split
  · simpa using h
  · dsimp only
    split
    · exact (readPorts_wf h).bind fun (_, d) h => (readPorts_wf h).bind fun (_, d) h => by simpa using h
    · split
      · exact (readPorts_wf h).bind fun (_, d) h => by simpa using h
      · split
        · simpa using h
        · exact (readPorts_wf h).bind fun (_, d) h => by simpa using h

@[simp] theorem plinthDone_mem (d : Dev) (c : Nat) : (plinthDone d c).mem = d.mem := rfl

theorem fwdDescRead_wf {d : Dev} {c t : Nat} (h : memWf d.mem) : OkWf (fwdDescRead d c t) := by
  unfold fwdDescRead
  dsimp only
  split
  · simpa using h
  · exact ensures_bind_any fun f => ensures_unless (by simpa using readDesc_wf h)

theorem fwdPrePass_wf {d : Dev} {c e t k : Nat} (h : memWf d.mem) : OkWf (fwdPrePass d c e t k) := by
  unfold fwdPrePass
  split
  · simpa using h
  · split
    · simpa using h
    · dsimp only
      split
      · simpa using h
      · exact (readPorts_wf h).bind fun (_, d) h => by simpa using h

@[simp] theorem enterVector_mem (d : Dev) (c : Nat) (r : FwdRun) (entry i : Nat) (act : Bool) (bytes : List Byte) (eb : List Nat) :
    (enterVector d c r entry i act bytes eb).mem = d.mem := by simp [enterVector]

theorem fwdVector_wf {d : Dev} {c e t i : Nat} (h : memWf d.mem) : OkWf (fwdVector d c e t i) := by
  unfold fwdVector
  split
  · simpa using h
  · split
    · simpa using h
    · refine (readPorts_wf h).bind fun (_, d) h => (readScales_wf h).bind fun (_, d) h => ensures_pure.2 ?_
      rw [modCell_mem]
      exact ite_wf (by simpa using h) h

theorem fwdVector2_wf {d : Dev} {c e t i : Nat} {act : Bool} {first : List Byte} {eb : List Nat} (h : memWf d.mem) :
    OkWf (fwdVector2 d c e t i act first eb) := by
  unfold fwdVector2
  split
  · simpa using h
  · split
    · simpa using h
    · exact (readPorts_wf h).bind fun (_, d) h => by simpa using h

@[simp] theorem fwdNext_mem (d : Dev) (c e : Nat) : (fwdNext d c e).mem = d.mem := rfl

@[simp] theorem accAdd_mem (d : Dev) (c bank row : Nat) (clr : Bool) (cols : List (List W32)) :
    (accAdd d c bank row clr cols).mem = d.mem := by
  unfold accAdd
  split <;> simp

@[simp] theorem accFree_mem (d : Dev) (c bank row : Nat) (cols : List Nat) : (accFree d c bank row cols).mem = d.mem := freeAt_mem _ _ _

theorem convDescRead_wf {d : Dev} {c : Nat} (h : memWf d.mem) : OkWf (convDescRead d c) := by
  unfold convDescRead
  dsimp only
  split
  · simpa using h
  · split
    · simpa using h
    · exact ensures_bind_any fun f => ensures_unless (by simpa using readDesc_wf h)

theorem storeLow_wf {d : Dev} {c off code : Nat} (h : memWf d.mem) : OkWf (storeLow d c off code) := by
  unfold storeLow
  extract_lets a
  split
  · simp
  · exact ensures_ok.2 (wrL_wf d _ h)

@[simp] theorem convCounts_wf {d : Dev} {c : Nat} {x : Desc} {o : ConvOut} {ovf sat : Nat} {vs : List W32} (h : memWf d.mem) :
    memWf (convCounts d c x o ovf sat vs).mem := by
  unfold convCounts
  split <;> simp [h]

theorem fcvtRow_wf {d : Dev} {c e i : Nat} (h : memWf d.mem) : OkWf (fcvtRow d c e i) := by
  unfold fcvtRow
  split
  · simpa using h
  · split
    · simpa using h
    · have hd {b w n : Nat} {l : List W32} : memWf (stateRow d c .acc b w n l).2.mem := wf_of_mem (stateRow_mem ..) h
      refine ensures_bind_any fun f => ?_
      dsimp only
      refine ensures_ite (ensures_pure.2 ?_) (ensures_ite ?_ (ensures_ite ?_ (ensures_pure.2 ?_)))
      · exact wf_of_mem (modCell_mem ..) (wf_of_mem (surveyRun_mem ..) (convCounts_wf hd))
      · exact ensures_pure.2 (wf_of_mem (modCell_mem ..) (convCounts_wf hd))
      · exact ensures_pure.2 (wf_of_mem (modCell_mem ..) (convCounts_wf hd))
      · refine wf_of_mem (modCell_mem ..) (wf_of_mem (foldl_mem (fun _ _ => surveyRun_mem ..) _ _) ?_)
        exact wf_of_mem (descGauges_mem ..) (convCounts_wf hd)

@[simp] theorem fdrainRow_mem (d : Dev) (c e i : Nat) : (fdrainRow d c e i).mem = d.mem := by
  unfold fdrainRow
  split <;> simp

@[simp] theorem convFree_mem (d : Dev) (c : Nat) : (convFree d c).mem = d.mem := rfl

/-! ### Backward: the backward unit -/

@[simp] theorem bpxEvent_mem (d : Dev) (c edge unit row col blk tid n : Nat) :
    (bpxEvent d c edge unit row col blk tid n).mem = d.mem := by simp [bpxEvent, apply_ite Dev.mem]

theorem bldStart_wf {d : Dev} {c e : Nat} {x : Bool} (h : memWf d.mem) : OkWf (bldStart d c e x) := by
  unfold bldStart
  dsimp only
  split
  · simpa using h
  · refine ensures_bind_any fun f => ensures_unless ?_
    refine ensures_when fun _ => ensures_bind_any fun _ => ?_
    exact (usePorts_wf (ite_wf (eccTouch_wf (readDesc_wf h)) (readDesc_wf h))).bind fun d h => by simpa using h

theorem bldRows_wf {d : Dev} {c e : Nat} {x : Bool} {k : Nat} (h : memWf d.mem) : OkWf (bldRows d c e x k) := by
  unfold bldRows
  split
  · simpa using h
  · split
    · simpa using h
    · exact ensures_bind_any fun _ => (readPorts_wf h).bind fun (_, d) h => by simpa using h

theorem bldDone_wf {d : Dev} {c e : Nat} {x : Bool} (h : memWf d.mem) : OkWf (bldDone d c e x) := by
  unfold bldDone
  split
  · simpa using h
  · split
    · simpa using h
    · exact ensures_bind_any fun _ => by simpa using h

theorem rowScales_wf {d : Dev} {c : Nat} {x : Desc} {f : Fmt} {r col n : Nat} {on : Nat → Bool} (h : memWf d.mem) :
    Ensures (fun p => memWf p.2.mem) (rowScales d c x f r col n on) := by
  unfold rowScales
  dsimp only
  split
  · simpa using h
  · split
    · simp
    · exact (readScales_wf h).bind fun (_, d) h => by simpa using h

theorem bldyStart_wf {d : Dev} {c e : Nat} (h : memWf d.mem) : OkWf (bldyStart d c e) := by
  unfold bldyStart
  dsimp only
  split
  · simpa using h
  · exact ensures_unless (ensures_unless (by simpa using readDesc_wf (readDesc_wf h)))

theorem savedRow_wf {d : Dev} {c e i : Nat} {r : BldyRun} {y : Desc} {first : Bool} (h : memWf d.mem) :
    Ensures (fun p => memWf p.2.mem) (savedRow d c e i r y first) := by
  unfold savedRow
  dsimp only
  refine ensures_bind_any fun _ => (usePorts_wf h).bind fun d h => ?_
  split
  · simp
  · refine (rowScales_wf (by simpa using h)).bind fun (_, d) h => ?_
    refine ensures_ite_bind (usePorts_wf h) (ensures_pure.2 h) fun d h => ensures_pure.2 ?_
    dsimp only
    split
    · exact h
    · simpa using h

theorem bldyRow_wf {d : Dev} {c e i : Nat} {r : BldyRun} {x y : Desc} {first : Bool} (h : memWf d.mem) :
    Ensures (fun p => memWf p.2.mem) (bldyRow d c e i r x y first) := by
  unfold bldyRow
  refine (readPorts_wf h).bind fun (_, d) h => ?_
  refine Ensures.bind (P := fun p => memWf p.2.mem) ?_ fun ((ys, wrong), d) h => ensures_pure.2 ?_
  · split
    · exact ensures_pure.2 h
    · exact savedRow_wf h
  · simpa [apply_ite Dev.mem] using h

theorem bldyRows_wf {d : Dev} {c e k : Nat} (h : memWf d.mem) : OkWf (bldyRows d c e k) := by
  unfold bldyRows
  split
  · simpa using h
  · split
    · split
      · exact (bldyRow_wf h).bind fun (_, d) h => by simpa using h
      · exact (bldyRow_wf h).bind fun (_, d) h => (bldyRow_wf h).bind fun (_, d) h => by simpa using h
    · simpa using h

@[simp] theorem bldyDone_mem (d : Dev) (c e : Nat) : (bldyDone d c e).mem = d.mem := rfl

@[simp] theorem pairScanned_mem (d : Dev) (c : Nat) : (pairScanned d c).mem = d.mem := by simp [pairScanned]

@[simp] theorem invalidsFormed_mem (d : Dev) (c e unit bank tid : Nat) (evs : List (Nat × Nat × Nat × Nat)) :
    (invalidsFormed d c e unit bank tid evs).mem = d.mem := by simp [invalidsFormed]

@[simp] theorem leftEnter_mem (d : Dev) (c e i : Nat) (r : BwdRun) (lost : Bool) :
    (leftEnter d c e i r lost).mem = d.mem := by simp [leftEnter]

@[simp] theorem rightEnter_mem (d : Dev) (c e i : Nat) (r : BwdRun) (lostN : List Nat) :
    (rightEnter d c e i r lostN).mem = d.mem := by simp [rightEnter]

@[simp] theorem bwdRow_mem (d : Dev) (c e t i : Nat) : (bwdRow d c e t i).mem = d.mem := by
  unfold bwdRow
  (repeat' split) <;> simp

@[simp] theorem bwdNext_mem (d : Dev) (c e : Nat) : (bwdNext d c e).mem = d.mem := rfl

@[simp] theorem laccAdd_mem (d : Dev) (c e bank row : Nat) (clr : Bool) (cols : List (W32 × W32)) :
    (laccAdd d c e bank row clr cols).mem = d.mem := by
  unfold laccAdd
  split <;> simp

@[simp] theorem laccWrite_mem (d : Dev) (c bank row : Nat) (xs : List W32) : (laccWrite d c bank row xs).mem = d.mem := rfl

@[simp] theorem laccFree_mem (d : Dev) (c bank row : Nat) (cols : List Nat) : (laccFree d c bank row cols).mem = d.mem := freeAt_mem _ _ _

@[simp] theorem raccAdd_mem (d : Dev) (c bank : Nat) (clr : Bool) (blk : List (List W32)) : (raccAdd d c bank clr blk).mem = d.mem := by
  refine foldl_mem (fun d p => ?_) _ d
  dsimp only
  split <;> simp

@[simp] theorem raccFree_mem (d : Dev) (c bank : Nat) (sites : List Nat) : (raccFree d c bank sites).mem = d.mem := by
  refine foldl_mem (fun d k => ?_) _ d
  dsimp only
  split <;> simp

@[simp] theorem flushLeft_mem (d : Dev) (c bank : Nat) (x : Desc) : (flushLeft d c bank x).mem = d.mem := by simp [flushLeft]

@[simp] theorem flushRight_mem (d : Dev) (c bank : Nat) (x : Desc) : (flushRight d c bank x).mem = d.mem := by simp [flushRight]

@[simp] theorem drainDesc_wf {d : Dev} {c : Nat} (h : memWf d.mem) : memWf (drainDesc d c).mem := by
  simp only [drainDesc]
  (repeat' split) <;> simp [h]

@[simp] theorem surveyAt_mem (d : Dev) (c site : Nat) (x : Desc) (bits off : Nat) (els : List (Val × Nat)) :
    (surveyAt d c site x bits off els).mem = d.mem := by
  unfold surveyAt
  split <;> simp

theorem drainRow_wf {d : Dev} {c e i : Nat} (h : memWf d.mem) : OkWf (drainRow d c e i) := by
  unfold drainRow
  split
  · simpa using h
  · next r _ =>
    dsimp only
    split
    · exact (readPorts_wf h).bind fun (_, d) h => by simpa using h
    · split
      · simpa using h
      · have hd (b : Nat) (l : List W32) (x : Desc) :
            memWf (if i = 63 then flushLeft (stateRow d c .lacc b (64 * i) 64 l).2 c b x else (stateRow d c .lacc b (64 * i) 64 l).2).mem :=
          ite_wf (by simpa using h) (by simpa using h)
        split
        · simpa using hd _ _ _
        · refine ensures_pure.2 ?_
          simp only [modCell_mem, surveyAt_mem]
          exact ite_wf (by simpa using hd _ _ _) (observe_wf (by simpa using hd _ _ _))

@[simp] theorem lfillWrite_mem (d : Dev) (c e bank row : Nat) (xs : List W32) : (lfillWrite d c e bank row xs).mem = d.mem := rfl

@[simp] theorem drainFree_mem (d : Dev) (c : Nat) : (drainFree d c).mem = d.mem := rfl

@[simp] theorem dwDesc_wf {d : Dev} {c : Nat} (h : memWf d.mem) : memWf (dwDesc d c).mem := by
  unfold dwDesc
  split <;> simp [h]

theorem dwRow_wf {d : Dev} {c e i : Nat} (h : memWf d.mem) : OkWf (dwRow d c e i) := by
  unfold dwRow
  split
  · simpa using h
  · split
    · simpa using h
    · refine Ensures.bind (P := fun p => memWf p.2.mem) ?_ fun (row, d) h => ensures_pure.2 ?_
      · split
        · exact (readPorts_wf h).bind fun (_, d) h => by simpa using h
        · simpa using h
      · rw [modCell_mem]
        refine ite_wf ?_ ?_
        · rw [flushRight_mem]
          exact ite_wf (by simpa using h) (observe_wf (by simpa using h))
        · exact ite_wf (by simpa using h) (observe_wf (by simpa using h))

@[simp] theorem dwFree_mem (d : Dev) (c : Nat) : (dwFree d c).mem = d.mem := rfl

/-! ### Vector: the vector unit -/

@[simp] theorem vxEvent_mem (d : Dev) (c edge bundle lane : Nat) (ev : LaneEvent) :
    (vxEvent d c edge bundle lane ev).mem = d.mem := by simp [vxEvent, apply_ite Dev.mem]

@[simp] theorem vxSing_mem (d : Dev) (c n : Nat) : (vxSing d c n).mem = d.mem := by simp [vxSing, apply_ite Dev.mem]

@[simp] theorem vregEcc_mem (d : Dev) (c : Nat) (regs : List Nat) : (vregEcc d c regs).mem = d.mem := by
  unfold vregEcc
  split
  · rfl
  · refine foldl_mem (fun d r => ?_) _ d
    dsimp only
    split <;> simp

@[simp] theorem solveEcc_mem (d : Dev) (c : Nat) : (solveEcc d c).mem = d.mem := by
  unfold solveEcc
  split <;> simp

@[simp] theorem solveDone_mem (d : Dev) (c : Nat) (xs : List (Nat × W32)) (rep : Nat) : (solveDone d c xs rep).mem = d.mem := by
  unfold solveDone
  split <;> simp

theorem vldHalf_wf {d : Dev} {c e v addr i : Nat} {int : Bool} {m : W256} (h : memWf d.mem) : OkWf (vldHalf d c e v addr i int m) := by
  unfold vldHalf
  exact (readPorts_wf h).bind fun (_, d) h => by simpa using h

theorem vldRow_wf {d : Dev} {c e v addr desc f : Nat} {m : W256} (h : memWf d.mem) : OkWf (vldRow d c e v addr desc f m) := by
  unfold vldRow
  dsimp only
  refine (readPorts_wf h).bind fun (bs, d) h => ?_
  have hd : memWf (if f = 9 then (readDesc d c desc).2 else d).mem := ite_wf (readDesc_wf h) h
  split
  · simpa using hd
  · split
    · simp
    · refine (rowScales_wf (readDesc_wf hd)).bind fun (sc, d) h => (usePorts_wf h).bind fun d h => ?_
      split
      · split <;> simpa using h
      · simpa using h

@[simp] theorem laneUnspec_mem (d : Dev) (c v : Nat) (lanes : List Nat) : (laneUnspec d c v lanes).mem = d.mem := by
  unfold laneUnspec
  refine foldl_mem (fun d i => ?_) _ _
  dsimp only
  rw [modCell_mem, drawWord_mem]

@[simp] theorem surveyIdx_mem (d : Dev) (c : Nat) (x : Desc) (x0 : Nat) (m : W256) (els : List (Val × Nat)) :
    (surveyIdx d c x x0 m els).mem = d.mem := by simp [surveyIdx]

@[simp] theorem vstPlain_wf {d : Dev} {c e addr f : Nat} {x : Desc} {v : List W32} {m : W256} (h : memWf d.mem) :
    memWf (vstPlain d c e addr f x v m).mem := by
  simp only [vstPlain]
  (repeat' split) <;> simp [h]

theorem vstMoment_wf {d : Dev} {c e addr f : Nat} {x : Desc} {v : List W32} {m : W256} {x0 stamp : Nat} (h : memWf d.mem) :
    OkWf (vstMoment d c e addr f x v m x0 stamp) := by
  unfold vstMoment
  dsimp only
  split
  · simpa using h
  · split
    · simpa using h
    · refine (readPorts_wf h).bind fun (bs, d) h => (readPorts_wf h).bind fun (ss, d) h => ensures_pure.2 ?_
      simp only [modCell_mem, surveyIdx_mem]
      exact ite_wf (by simpa using h) (observe_wf (by simpa using h))

theorem vstMaster_wf {d : Dev} {c e addr : Nat} {x : Desc} {v : List W32} {m : W256} {x0 stamp : Nat} (h : memWf d.mem) :
    OkWf (vstMaster d c e addr x v m x0 stamp) := by
  unfold vstMaster
  refine (readPorts_wf h).bind fun (bs, d) h => ensures_pure.2 ?_
  simp only [modCell_mem, surveyIdx_mem]
  exact ite_wf (by simpa using h) (observe_wf (observe_wf (by simpa using h)))

@[simp] theorem convertGroup_wf {d : Dev} {c e : Nat} {g : GroupRun} (h : memWf d.mem) : memWf (convertGroup d c e g).mem := by
  simp only [convertGroup]
  (repeat' split) <;> simp [h]

@[simp] theorem vstCopy_wf {d : Dev} {c e addr f : Nat} {x : Desc} {v : List W32} {m : W256} {x0 : Nat} (h : memWf d.mem) :
    memWf (vstCopy d c e addr f x v m x0).mem := by
  simp only [vstCopy]
  (repeat' split) <;> simp [h]

theorem vstRow_wf {d : Dev} {c e addr desc f : Nat} {v : List W32} {m : W256} {x0 stamp : Nat} (h : memWf d.mem) :
    OkWf (vstRow d c e addr desc f v m x0 stamp) := by
  unfold vstRow
  dsimp only
  have hd := readDesc_wf h (c := c) (i := desc)
  split
  · simp [h]
  · split
    · exact vstMoment_wf hd
    · split
      · exact vstMaster_wf hd
      · simp [h]

/-! ### Engine: the micro-operations of an edge -/

@[simp] theorem readDmaDesc_mem (d : Dev) (c id : Nat) : (readDmaDesc d c id).mem = d.mem := by
  unfold readDmaDesc
  split <;> simp

theorem runMicro_wf {d : Dev} {c e : Nat} {op : Micro} (h : memWf d.mem) : OkWf (runMicro d c e op) := by
  unfold runMicro
  cases op
  case laneEvents b evs => exact ensures_ok.2 (foldl_wf (fun d p h => wf_of_mem (vxEvent_mem ..) h) _ d h)
  case load => exact (readPorts_wf h).bind fun (_, d) h => by simpa using h
  case unspec => exact ensures_ok.2 (wrUnspec_wf _ d h)
  case reduce => exact ensures_ok.2 (by rw [modCell_mem]; exact ite_wf (wf_of_mem (vregEcc_mem ..) h) h)
  case store => exact storeFolio_wf h
  case storeLow => exact storeLow_wf h
  case vldHalf => exact vldHalf_wf h
  case vld => exact vldRow_wf h
  case vst => exact vstRow_wf h
  case pload => exact ploadStart_wf h
  case ploadRead => exact ploadRead_wf h
  case fwdDesc => exact fwdDescRead_wf h
  case fwdPre => exact fwdPrePass_wf h
  case fwdVec => exact fwdVector_wf h
  case fwdVec2 => exact fwdVector2_wf h
  case convDesc => exact convDescRead_wf h
  case fcvtRow => exact fcvtRow_wf h
  case bldStart => exact bldStart_wf h
  case bldRows => exact bldRows_wf h
  case bldDone => exact bldDone_wf h
  case bldyStart => exact bldyStart_wf h
  case bldyRows => exact bldyRows_wf h
  case drainRow => exact drainRow_wf h
  case dwRow => exact dwRow_wf h
  all_goals simp [h]

theorem settleN_wf : ∀ (n : Nat) {d : Dev} {c e : Nat}, memWf d.mem → OkWf (settleN n d c e)
  | 0, _, _, _, h => ensures_ok.2 h
  | n + 1, d, c, e, h => by
    unfold settleN
    split
    · exact ensures_ok.2 h
    · exact (runMicro_wf (by simpa using h)).bind fun d h => settleN_wf n h

theorem settle_wf {d : Dev} {c e : Nat} (h : memWf d.mem) : OkWf (settle d c e) :=
  settleN_wf _ h

/-! ### UnitTree: the queues of the unit ports -/

@[simp] theorem countAt_mem (d : Dev) (c : Nat) (q : Credit) : (countAt d c q).mem = d.mem := by simp [countAt, apply_ite Dev.mem]

@[simp] theorem markNew_mem (d : Dev) (p bits : Nat) : (markNew d p bits).mem = d.mem := rfl

@[simp] theorem setFaultBit_mem (d : Dev) (p b : Nat) : (setFaultBit d p b).mem = d.mem := by simp [setFaultBit, apply_ite Dev.mem]

@[simp] theorem clearFaults_mem (d : Dev) (p bits : Nat) : (clearFaults d p bits).mem = d.mem := by simp [clearFaults, apply_ite Dev.mem]

@[simp] theorem refuse_mem (d : Dev) (p : Nat) : (refuse d p).mem = d.mem := rfl

@[simp] theorem enqueue_mem (d : Dev) (p : Nat) (w : W64) (parent : Option (Nat × Nat)) (know : List Nat) :
    (enqueue d p w parent know).mem = d.mem := rfl

@[simp] theorem pushFrom_mem (d : Dev) (p : Nat) (w : W64) (extra : Bool) (know : List Nat) :
    (pushFrom d p w extra know).2.mem = d.mem := by simp [pushFrom, apply_ite Prod.snd, apply_ite Dev.mem]

@[simp] theorem pushCmd_mem (d : Dev) (p : Nat) (w : W64) (extra : Bool) : (pushCmd d p w extra).2.mem = d.mem := by simp [pushCmd]

@[simp] theorem fanOut_mem (d : Dev) (p : Nat) : (fanOut d p).mem = d.mem := by
  unfold fanOut
  dsimp only
  split
  · rfl
  · (repeat' split) <;> simp [foldl_mem (f := fun d q => enqueue d q _ _ _) (fun _ _ => enqueue_mem ..)]

/-! ### Trace: the trace -/

@[simp] theorem putLost_mem (d : Dev) (g : Nat) : (putLost d g).mem = d.mem := by simp [putLost, apply_ite Dev.mem]

@[simp] theorem putWords_mem (d : Dev) (g : Nat) (ws : List Nat) : (putWords d g ws).mem = d.mem := by simp [putWords, apply_ite Dev.mem]

@[simp] theorem putTimed_mem (d : Dev) (c type why cyc : Nat) : (putTimed d c type why cyc).mem = d.mem := by simp [putTimed]

@[simp] theorem resyncCell_mem (d : Dev) (c cyc : Nat) : (resyncCell d c cyc).mem = d.mem := by simp [resyncCell, apply_ite Dev.mem]

@[simp] theorem emitRec_mem (d : Dev) (c : Nat) (r : TraceRec) : (emitRec d c r).mem = d.mem := by simp [emitRec, apply_ite Dev.mem]

@[simp] theorem flushRun_mem (d : Dev) (c : Nat) : (flushRun d c).mem = d.mem := by
  simp only [flushRun]
  split <;> simp

@[simp] theorem addRec_mem (d : Dev) (c : Nat) (r : TraceRec) : (addRec d c r).mem = d.mem := by simp [addRec, apply_ite Dev.mem]

@[simp] theorem addTimed_mem (d : Dev) (c type why cyc : Nat) : (addTimed d c type why cyc).mem = d.mem := by simp [addTimed]

@[simp] theorem joinRun_mem (d : Dev) (c pc edge : Nat) (w : Bool) : (joinRun d c pc edge w).mem = d.mem := by
  simp only [joinRun]
  (repeat' split) <;> simp

@[simp] theorem gapRec_mem (d : Dev) (c cause dwt : Nat) : (gapRec d c cause dwt).mem = d.mem := by simp [gapRec]

@[simp] theorem updateFunnel_mem (d : Dev) (c : Nat) : (updateFunnel d c).mem = d.mem := by simp [updateFunnel, apply_ite Dev.mem]

@[simp] theorem updateFunnels_mem (d : Dev) (p : Nat) : (updateFunnels d p).mem = d.mem := by simp [updateFunnels]

/-! ### Docent: the docents -/

@[simp] theorem illegalBundle_mem (d : Dev) (c slot : Nat) : (illegalBundle d c slot).mem = d.mem := by simp [illegalBundle]

theorem moveWindow_wf {d : Dev} {c : Nat} (h : memWf d.mem) : OkWf (moveWindow d c) := by
  unfold moveWindow
  dsimp only
  split
  · simpa using h
  · split
    · simp
    · simpa using h

@[simp] theorem noteSweep_mem (d : Dev) (id : Nat) : (noteSweep d id).mem = d.mem := by simp [noteSweep, apply_ite Dev.mem]

@[simp] theorem issueDma_mem (d : Dev) (c t : Nat) (o : DmaOp) : (issueDma d c t o).mem = d.mem := by
  unfold issueDma
  split <;> simp

@[simp] theorem issueSync_mem (d : Dev) (c e : Nat) (pc : Nat) (extra : Bool) (o : SyncOp) : (issueSync d c e pc extra o).mem = d.mem := by
  unfold issueSync
  split <;> simp

@[simp] theorem completeStart_mem (d : Dev) (c : Nat) : (completeStart d c).mem = d.mem := by
  unfold completeStart
  (repeat' split) <;> simp

@[simp] theorem traceIssue_mem (d : Dev) (c e pc : Nat) (b : Bundle) (w : Option Wait) (waited : Nat) (loopN : Option Nat) :
    (traceIssue d c e pc b w waited loopN).mem = d.mem := by
  unfold traceIssue
  (repeat' split) <;> simp

theorem issueBundle_wf {d : Dev} {c e : Nat} {b : Bundle} {extra : Bool} (h : memWf d.mem) : OkWf (issueBundle d c e b extra) := by
  unfold issueBundle
  dsimp only
  refine ensures_unless (ensures_unless ((moveWindow_wf h).bind fun d h => ensures_bind_any fun xf => ?_))
  split <;> refine ensures_pure.2 ?_
  · simpa [apply_ite Dev.mem] using h
  · simpa [apply_ite Dev.mem] using h

@[simp] theorem holdCell_mem (d : Dev) (c e : Nat) (w : Nat × Nat × Nat) : (holdCell d c e w).mem = d.mem := by simp [holdCell]

@[simp] theorem waitLocal_mem (d : Dev) (c e : Nat) : (waitLocal d c e).mem = d.mem := rfl

theorem tryIssue_wf : ∀ (n : Nat) {d : Dev} {c last : Nat} {extra : Bool}, memWf d.mem → OkWf (tryIssue n d c last extra)
  | 0, _, _, _, _, h => ensures_ok.2 h
  | n + 1, d, c, last, extra, h => by
    unfold tryIssue
    dsimp only
    split
    · exact ensures_pure.2 h
    · refine (settle_wf h).bind fun s hs => ?_
      split
      · simpa using hs
      · split
        · simpa using hs
        · split
          · exact tryIssue_wf n (by simpa using hs)
          · split
            · exact (settle_wf h).bind fun d h => by simpa using h
            · split
              · exact (settle_wf h).bind fun d h => by simpa using h
              · exact issueBundle_wf (by simpa using hs)

@[simp] theorem resumeCell_mem (d : Dev) (c : Nat) : (resumeCell d c).mem = d.mem := by
  unfold resumeCell
  split <;> simp

theorem bundleIssue_wf {d : Dev} {c : Nat} {extra : Bool} (h : memWf d.mem) : OkWf (bundleIssue d c extra) := by
  unfold bundleIssue
  dsimp only
  split
  · exact ensures_ok.2 h
  · exact tryIssue_wf _ (by simpa using h)

@[simp] theorem startDocent_mem (d : Dev) (c addr : Nat) : (startDocent d c addr).mem = d.mem := by simp [startDocent]

/-! ### Dma: the DMA engines -/

@[simp] theorem lineAlloc_mem (d : Dev) (a n : Nat) : (lineAlloc d a n).mem = d.mem := by simp [lineAlloc, apply_ite Dev.mem]

@[simp] theorem lineDrop_mem (d : Dev) (a n : Nat) : (lineDrop d a n).mem = d.mem := rfl

@[simp] theorem engRead_mem (d : Dev) (a n : Nat) : (engRead d a n).2.mem = d.mem := by
  unfold engRead
  dsimp only
  (repeat' split) <;> simp

@[simp] theorem engWrite_wf {d : Dev} {a : Nat} {bs : List Byte} (h : memWf d.mem) : memWf (engWrite d a bs).mem := by
  unfold engWrite
  dsimp only
  split
  · exact h
  · split
    · exact wrBytes_wf _ _ _ (wf_of_mem (lineDrop_mem ..) h)
    · exact h
    · exact h
    · exact wrBytes_wf _ _ _ h

@[simp] theorem takeSlot_mem (d : Dev) (port : Nat) : (takeSlot d port).mem = d.mem := by
  unfold takeSlot
  split <;> simp

@[simp] theorem stashSpill_mem (d : Dev) (n : Nat) : (stashSpill d n).mem = d.mem := by
  simp only [stashSpill]
  split <;> simp

@[simp] theorem stashFault_mem (d : Dev) (n o : Nat) : (stashFault d n o).mem = d.mem := by simp [stashFault, apply_ite Dev.mem]

@[simp] theorem dmaFault_mem (d : Dev) (g : Nat) (x : Xfer) (sub a : Nat) : (dmaFault d g x sub a).mem = d.mem := rfl

@[simp] theorem countDma_mem (d : Dev) (g n : Nat) : (countDma d g n).mem = d.mem := by simp [countDma, apply_ite Dev.mem]

@[simp] theorem putXfer_mem (d : Dev) (g : Nat) (x : Xfer) : (putXfer d g x).mem = d.mem := rfl

theorem settleNow_wf {d : Dev} {c : Nat} (h : memWf d.mem) : OkWf (settleNow d c) := by
  unfold settleNow
  exact settle_wf h

theorem settlePlace_wf {d : Dev} {a : Nat} (h : memWf d.mem) : OkWf (settlePlace d a) := by
  unfold settlePlace
  (repeat' split) <;> simp [settleNow_wf, h]

@[simp] theorem putBundle_mem (d : Dev) (c a : Nat) (bs : List Byte) :
    (putBundle d c a bs).mem = d.mem := by simp [putBundle, apply_ite Dev.mem]

@[simp] theorem useSlot_mem (d : Dev) : ∀ n : SlotNeed, (useSlot d n).mem = d.mem
  | .free => rfl
  | .spill p | .cls _ p => takeSlot_mem d p

theorem landPiece_wf {d : Dev} {a : Nat} {bs : List Byte} {keep : Nat → Bool} (h : memWf d.mem) : OkWf (landPiece d a bs keep) := by
  unfold landPiece
  refine ensures_bind_any fun _ => ?_
  split
  · exact ensures_pure.2 (engWrite_wf h)
  · exact ensures_pure.2 (foldl_wf (fun _ _ h => engWrite_wf h) _ d h)

theorem movePlain_wf {d : Dev} {g : Nat} {before : List Xfer} {x : Xfer} {write : Bool} {a n : Nat}
    {need : SlotNeed} {keep : Nat → Bool} (h : memWf d.mem) : OkWf (movePlain d g before x write a n need keep) := by
  unfold movePlain
  dsimp only
  split
  · simp [h]
  · simp
  · refine ensures_bind_any fun ok => ensures_ite (ensures_pure.2 h) (ensures_ite ensures_throw ?_)
    refine (settlePlace_wf (by simpa using h)).bind fun d h => ?_
    split
    · exact (landPiece_wf h).bind fun d h => by simpa using h
    · simpa using h

theorem moveStash_wf {d : Dev} {g : Nat} {before : List Xfer} {x : Xfer} {write : Bool} {o n : Nat} (h : memWf d.mem) :
    OkWf (moveStash d g before x write o n) := by
  unfold moveStash
  dsimp only
  split
  · have hd : memWf (if x.overflow then d else stashFault d x.region o).mem := ite_wf h (by simpa using h)
    split <;> simpa using hd
  · refine ensures_unless ?_
    split
    · refine (movePlain_wf h).bind fun d h => ensures_pure.2 ?_
      exact ite_wf (by simpa using h) h
    · exact movePlain_wf h
    · exact ensures_pure.2 h

theorem pieceTransfer_wf {d : Dev} {g k : Nat} {write : Bool} (h : memWf d.mem) : OkWf (pieceTransfer d g k write) := by
  unfold pieceTransfer
  dsimp only
  split
  · simp [h]
  · split
    · simp [h]
    · split
      · split <;> simp [h]
      · exact ensures_ite (moveStash_wf h) (movePlain_wf h)

theorem dmaTake_wf {d : Dev} {g : Nat} (h : memWf d.mem) : OkWf (dmaTake d g) := by
  unfold dmaTake
  dsimp only
  split
  · simp [h]
  · refine (Ensures.foldlM (fun _ _ h => settleNow_wf h) _ d h).bind fun d h => ?_
    split
    · simp [h]
    · split <;> simp [h]

theorem dmaComplete_wf {d : Dev} {g k : Nat} (h : memWf d.mem) : OkWf (dmaComplete d g k) := by
  unfold dmaComplete
  split
  · simpa using h
  · dsimp only
    split
    · simpa using h
    · split <;> simpa using h

/-! ### Accumulate: the gradient accumulation -/

@[simp] theorem dwFault_mem (d : Dev) (c a : Nat) (r : DwRun) : (dwFault d c a r).mem = d.mem := rfl

@[simp] theorem dwRead_mem (d : Dev) (c : Nat) (r : DwRun) (x : Desc) :
    (dwRead d c r x).2.mem = d.mem := by simp [dwRead, apply_ite Prod.snd, apply_ite Dev.mem]

@[simp] theorem dwCounts_mem (d : Dev) (c : Nat) (r : DwRun) (x : Desc) (bs : List DwBlock) :
    (dwCounts d c r x bs).mem = d.mem := by simp [dwCounts, apply_ite Dev.mem]

theorem dwStore_wf {d : Dev} {c : Nat} {r : DwRun} {x : Desc} {bs : List DwBlock} (h : memWf d.mem) : OkWf (dwStore d c r x bs) := by
  unfold dwStore
  dsimp only
  refine Ensures.foldlM (fun d b h => ?_) _ d h
  exact ensures_bind_any fun _ => ensures_bind_any fun _ => by simp [h]

/-! ### Events: events and squalls -/

@[simp] theorem hostWrite_wf {d : Dev} {a : Nat} {bs : List Byte} (h : memWf d.mem) : memWf (hostWrite d a bs).mem := by
  unfold hostWrite
  split <;> simp [h]

@[simp] theorem hostDrain_wf {d : Dev} (h : memWf d.mem) : memWf (hostDrain d).mem :=
  foldl_wf (fun _ _ h => engWrite_wf h) _ _ h

@[simp] theorem pushHeld_mem (d : Dev) (e : HeldEvent) : (pushHeld d e).mem = d.mem := rfl

@[simp] theorem eventGone_mem (d : Dev) : (eventGone d).mem = d.mem := by simp [eventGone, apply_ite Dev.mem]

@[simp] theorem eventWrite_wf {d : Dev} (h : memWf d.mem) : memWf (eventWrite d).mem := by
  simp only [eventWrite]
  (repeat' split) <;> simp [h]

@[simp] theorem holdEvent_wf {d : Dev} {e : HeldEvent} (h : memWf d.mem) : memWf (holdEvent d e).mem := by
  simp only [holdEvent]
  (repeat' split) <;> simp [h]

@[simp] theorem postEvent_wf {d : Dev} {type : Nat} {arg0 arg1 : W64} (h : memWf d.mem) :
    memWf (postEvent d type arg0 arg1).mem := by simp [postEvent, h]

@[simp] theorem linkEvent_wf {d : Dev} {p state : Nat} (h : memWf d.mem) : memWf (linkEvent d p state).mem := by simp [linkEvent, h]

@[simp] theorem emitSquall_mem (d : Dev) (cause : Nat) : (emitSquall d cause).mem = d.mem := by
  unfold emitSquall
  split
  · rfl
  · exact foldl_mem (fun _ _ => sendMsg_mem ..) _ _

@[simp] theorem sendRing_mem (d : Dev) (r : Nat) (body : List Byte) : (sendRing d r body).mem = d.mem := rfl

@[simp] theorem ringFlush_mem (d : Dev) : (ringFlush d).mem = d.mem := foldl_mem (fun _ _ => sendRing_mem ..) _ d

@[simp] theorem fabMarkers_mem (d : Dev) : (fabMarkers d).mem = d.mem := by
  unfold fabMarkers
  split
  · exact foldl_mem (fun d _ => sendMsg_mem d _ _) _ d
  · rfl

@[simp] theorem fabFlushEnd_mem (d : Dev) : (fabFlushEnd d).mem = d.mem := by simp [fabFlushEnd, apply_ite Dev.mem]

@[simp] theorem xringSkip_wf {d : Dev} {r : Nat} (h : memWf d.mem) : memWf (xringSkip d r).mem := by simp [xringSkip, h]

@[simp] theorem fabFlush_wf {d : Dev} (h : memWf d.mem) : memWf (fabFlush d).mem := by
  unfold fabFlush
  dsimp only
  split
  · exact h
  · have hr (l : List Nat) : memWf (l.foldl (fun d r => if bitAt (xring d r) 63 then xringSkip d r else d) d).mem :=
      foldl_wf (fun _ _ h => ite_wf (xringSkip_wf h) h) l d h
    simpa using hr _

@[simp] theorem stopAll_mem (d : Dev) : (stopAll d).mem = d.mem := by simp [stopAll, apply_ite Dev.mem]

@[simp] theorem abandonStep_wf {d : Dev} (h : memWf d.mem) : memWf (abandonStep d).mem := by
  simp only [abandonStep]
  (repeat' split) <;> simp [h]

/-! ### Faults: faults -/

@[simp] theorem logFault_mem (d : Dev) (r : List W64) : (logFault d r).mem = d.mem := by simp [logFault, apply_ite Dev.mem]

@[simp] theorem faultEvent_wf {d : Dev} (h : memWf d.mem) : memWf (faultEvent d).mem := by
  unfold faultEvent
  split <;> simp [h]

@[simp] theorem abandonRegs_mem (d : Dev) : (abandonRegs d).mem = d.mem := by simp [abandonRegs, apply_ite Dev.mem]

@[simp] theorem takeFault_wf {d : Dev} {f : FaultReq} (h : memWf d.mem) : memWf (takeFault d f).mem := by
  simp only [takeFault]
  (repeat' split) <;> simp [h]

@[simp] theorem takeRound_wf {d : Dev} (h : memWf d.mem) : memWf (takeRound d).mem :=
  foldl_wf (fun _ _ h => takeFault_wf h) _ _ h

@[simp] theorem takeFaults_wf {d : Dev} (h : memWf d.mem) : memWf (takeFaults d).mem := by simp [takeFaults, h]

@[simp] theorem freezeEnd_mem (d : Dev) (g : Nat) : (freezeEnd d g).mem = d.mem := by simp [freezeEnd, apply_ite Dev.mem]

@[simp] theorem dumpFreeze_mem (d : Dev) (cause port bundle : Nat) (task : Option Nat) :
    (dumpFreeze d cause port bundle task).mem = d.mem := by simp [dumpFreeze, apply_ite Dev.mem]

@[simp] theorem ringFault_mem (d : Dev) (kind ring src bucket tile q blk : Nat) :
    (ringFault d kind ring src bucket tile q blk).mem = d.mem := by
  rw [ringFault]
  dsimp only
  rw [raise_mem]
  split
  · exact (withRing_mem (putRg ..) _).trans (putRg_mem ..)
  · rfl

@[simp] theorem clearLog_mem (d : Dev) : (clearLog d).mem = d.mem := rfl

@[simp] theorem overrun_mem (d : Dev) (c : Nat) : (overrun d c).mem = d.mem := by
  simp only [overrun]
  split <;> simp

@[simp] theorem freezeSquall_mem (d : Dev) : (freezeSquall d).mem = d.mem := by simp [freezeSquall, apply_ite Dev.mem]

@[simp] theorem holdOverrun_mem (d : Dev) (c : Nat) : (holdOverrun d c).mem = d.mem := by
  simp only [holdOverrun]
  (repeat' split) <;> simp

@[simp] theorem overrunSweep_mem (d : Dev) : (overrunSweep d).mem = d.mem := by simp [overrunSweep]

/-! ### Ring: the ring -/

@[simp] theorem readBucket_mem (d : Dev) (n stamp : Nat) : (readBucket d n stamp).2.mem = d.mem := by
  unfold readBucket
  exact pair_mem _ (engRead_mem ..)

@[simp] theorem putBucket_mem (d : Dev) (b : Bucket) : (putBucket d b).mem = d.mem := rfl

theorem ensureOpen_mem {d e : Dev} {n stamp : Nat} {b : Bucket} (h : ensureOpen d n stamp = some (.ok (b, e))) : e.mem = d.mem := by
  have hr := readBucket_mem d n stamp
  unfold ensureOpen at h
  generalize readBucket d n stamp = r at h hr
  grind

@[simp] theorem dwLeave_mem (d : Dev) (c : Nat) (r : DwRun) (count : Bool) :
    (dwLeave d c r count).mem = d.mem := by simp [dwLeave, apply_ite Dev.mem]

@[simp] theorem ringOwnFault_mem (d : Dev) (kind q bucket tile blk : Nat) :
    (ringOwnFault d kind q bucket tile blk).mem = d.mem := by simp [ringOwnFault]

theorem handOver_mem {d e : Dev} {c : Nat} {r : DwRun} {x : Desc} (h : handOver d c r x = some e) : e.mem = d.mem := by
  unfold handOver at h
  dsimp only at h
  grind [ensureOpen_mem, dwLeave_mem, ringOwnFault_mem, dwFault_mem, putBucket_mem, dwCounts_mem, dwRead_mem]

theorem ringHandover_wf {d : Dev} {c : Nat} (h : memWf d.mem) : OkWf (ringHandover d c) := by
  unfold ringHandover
  refine (settleNow_wf h).bind fun d h => ensures_pure.2 ?_
  cases hf : (cellOf d c).dwMem.findSome? fun r => if r.last then r.d.bind (handOver d c r) else none with
  | none => exact h
  | some e =>
    obtain ⟨r, -, hr⟩ := List.exists_of_findSome?_eq_some hf
    split at hr
    · obtain ⟨x, -, hx⟩ := Option.bind_eq_some_iff.1 hr
      exact wf_of_mem (handOver_mem hx) h
    · cases hr

theorem dwaccComplete_wf {d : Dev} {c : Nat} (h : memWf d.mem) : OkWf (dwaccComplete d c) := by
  unfold dwaccComplete
  dsimp only
  refine (settleNow_wf h).bind fun d h => ?_
  split
  · simp [h]
  · split
    · simp [h]
    · split
      · simp [h]
      · exact (dwStore_wf (by simpa using h)).bind fun d h => by simpa using h

theorem acceptPartial_mem {d e : Dev} {r : Nat} {m : List Byte} (h : acceptPartial d r m = some e) : e.mem = d.mem := by
  unfold acceptPartial at h
  dsimp only at h
  grind [ensureOpen_mem, ringFault_mem, putBucket_mem]

@[simp] theorem sendMaxima_mem (d : Dev) (type : Nat) (l : List (Nat × W32)) : (sendMaxima d type l).mem = d.mem := rfl

theorem acceptMaxima_mem {d e : Dev} {m : List Byte} (h : acceptMaxima d m = some e) : e.mem = d.mem := by
  unfold acceptMaxima at h
  grind [sendMaxima_mem]

theorem acceptHead_mem {d e : Dev} {r : Nat} {m : List Byte} (h : acceptHead d r m = some e) : e.mem = d.mem := by
  unfold acceptHead at h
  split at h
  · exact acceptPartial_mem h
  · split at h
    · exact acceptMaxima_mem h
    · cases h; rfl

@[simp] theorem acceptAll_mem (r : Nat) : ∀ (ms : List (List Byte)) (d : Dev), (acceptAll d r ms).1.mem = d.mem
  | [], _ => rfl
  | m :: t, d => by
    unfold acceptAll
    split
    · rfl
    · next e h => rw [acceptAll_mem r t, acceptHead_mem h]

@[simp] theorem ringTake_mem (d : Dev) (r : Nat) (types : List Nat) (m : Option (List Byte)) : (ringTake d r types m).mem = d.mem := by
  unfold ringTake
  dsimp only
  split
  · rfl
  · exact acceptAll_mem ..

@[simp] theorem ringReceive_mem (d : Dev) (r : Nat) (m : Option (List Byte)) : (ringReceive d r m).mem = d.mem := by simp [ringReceive]

@[simp] theorem devGaugeAdd_mem (d : Dev) (baro g n : Nat) :
    (devGaugeAdd d baro g n).mem = d.mem := by simp [devGaugeAdd, apply_ite Dev.mem]

@[simp] theorem storeFree_mem (d : Dev) (b : Bucket) (j : Nat) : (storeFree d b j).mem = d.mem := by simp [storeFree, apply_ite Dev.mem]

@[simp] theorem storeRead_mem (d : Dev) (n j q : Nat) (own : List (List Nat)) :
    (storeRead d n j q own).2.mem = d.mem := by simp [storeRead, apply_ite Prod.snd, apply_ite Dev.mem]

@[simp] theorem ringAdd_mem (d : Dev) (n j q : Nat) : (ringAdd d n j q).mem = d.mem := by
  simp only [ringAdd]
  (repeat' split) <;> simp

@[simp] theorem devObserve_wf {d : Dev} {baro : Nat} {m : Option W32} (h : memWf d.mem) : memWf (devObserve d baro m).mem := by
  simp only [devObserve]
  (repeat' split) <;> simp [h]

theorem deliverBlock_wf {b : Bucket} {j q : Nat} {p : RingPart} {d : Dev} {k : Nat} (h : memWf d.mem) :
    OkWf (deliverBlock b j q p d k) := by
  unfold deliverBlock
  dsimp only
  split
  · simp [h]
  · refine ensures_bind_any fun _ => ensures_bind_any fun _ => ensures_pure.2 ?_
    rw [surveyRun_mem]
    exact devObserve_wf (by simpa using engWrite_wf (engWrite_wf h))

theorem ringDeliver_wf {d : Dev} {n j q : Nat} (h : memWf d.mem) : OkWf (ringDeliver d n j q) := by
  unfold ringDeliver
  dsimp only
  split
  · simp [h]
  · split
    · split
      · simp [h]
      · split
        · simp [h]
        · refine (Ensures.foldlM (fun _ _ h => deliverBlock_wf h) _ d h).bind fun d h => ensures_pure.2 ?_
          rw [storeFree_mem, putBucket_mem]
          split <;> exact h
    · simp [h]

@[simp] theorem bucketComplete_mem (d : Dev) (n : Nat) : (bucketComplete d n).mem = d.mem := by
  unfold bucketComplete
  (repeat' split) <;> simp

@[simp] theorem maximaFirst_mem (d : Dev) (m : Option (List Byte)) : (maximaFirst d m).mem = d.mem := by
  simp only [maximaFirst]
  (repeat' split) <;> simp

@[simp] theorem maximaSecond_mem (d : Dev) (m : Option (List Byte)) : (maximaSecond d m).mem = d.mem := by
  unfold maximaSecond
  (repeat' split) <;> simp

/-! ### Report: the report -/

@[simp] theorem sendRouted_mem (d : Dev) (letter : Nat) (m : FabMsg) : (sendRouted d letter m).mem = d.mem := by
  unfold sendRouted
  split <;> simp

@[simp] theorem fabDrain_mem (d : Dev) : (fabDrain d).mem = d.mem := by simp [fabDrain]

@[simp] theorem sendReport_mem (d : Dev) (root a : Nat) (bs : List Byte) : (sendReport d root a bs).mem = d.mem := by simp [sendReport]

@[simp] theorem writeReport_wf {d : Dev} {committed : Bool} (h : memWf d.mem) : memWf (writeReport d committed).mem := by
  simp only [writeReport]
  (repeat' split) <;> simp [h]

/-! ### TrainStep: the training step -/

@[simp] theorem recordSkew_mem (d : Dev) (n : Nat) : (recordSkew d n).mem = d.mem := by simp [recordSkew, apply_ite Dev.mem]

@[simp] theorem launchEntry_wf {stamp : Nat} {d : Dev} {n : Nat} (h : memWf d.mem) : memWf (launchEntry stamp d n).mem := by
  unfold launchEntry
  dsimp only
  refine ite_then_wf (wf_of_mem (recordSkew_mem ..)) ?_
  exact wrN_wf _ _ _ _ (wrN_wf _ _ _ _ (wrN_wf _ _ _ _ h))

@[simp] theorem commitEntry_wf {d : Dev} {n : Nat} (h : memWf d.mem) : memWf (commitEntry d n).mem :=
  ite_then_wf (wrN_wf _ _ _ _) h

@[simp] theorem seqLaunch_wf {d : Dev} {n : Nat} (h : memWf d.mem) : memWf (seqLaunch d n).mem :=
  ite_then_wf (wrN_wf _ _ _ _) h

@[simp] theorem seqCommit_wf {stamp : Nat} {d : Dev} {n : Nat} (h : memWf d.mem) : memWf (seqCommit stamp d n).mem := by
  unfold seqCommit
  dsimp only
  split
  · exact wrN_wf _ _ _ _ (wrN_wf _ _ _ _ h)
  · exact h

@[simp] theorem snapScalesNow_wf {d : Dev} {base t : Nat} (h : memWf d.mem) :
    memWf (snapScalesNow d base t).mem := by simp [snapScalesNow, h]

@[simp] theorem snapshotBaro_wf {d : Dev} {b : Nat} (h : memWf d.mem) : memWf (snapshotBaro d b).mem :=
  wrN_wf _ _ _ _ h

@[simp] theorem snapshotAll_wf {d : Dev} (h : memWf d.mem) : memWf (snapshotAll d).mem :=
  foldl_wf (fun _ _ h => snapshotBaro_wf h) _ _ (eccTouch_wf h)

@[simp] theorem baroScalesReady_wf {d : Dev} (h : memWf d.mem) : memWf (baroScalesReady d).mem := by
  unfold baroScalesReady
  dsimp only
  split
  · exact ite_then_wf snapshotAll_wf (foldl_wf (fun d _ h => wrN_wf d _ _ _ h) _ _ (snapScalesNow_wf h))
  · exact h

@[simp] theorem baroHistWrite_wf {d : Dev} {n : Nat} (h : memWf d.mem) : memWf (baroHistWrite d n).mem := by
  unfold baroHistWrite
  split
  · exact h
  · exact ite_wf h (ite_wf h (wrN_wf _ _ _ _ h))

@[simp] theorem launchStep_wf {d : Dev} {stamp addr : Nat} {replay : Bool} (h : memWf d.mem) :
    memWf (launchStep d stamp addr replay).mem := by
  unfold launchStep
  refine wf_of_mem (pushCmd_mem ..) (wf_of_mem (foldl_mem (fun _ _ => modCell_mem ..) _ _) ?_)
  refine foldl_wf (fun _ _ h => launchEntry_wf h) _ _ (ite_then_wf (foldl_wf (fun _ _ h => seqLaunch_wf h) _ _) ?_)
  refine ite_wf ?_ (snapScalesNow_wf ?_) <;>
    exact eccTouch_wf (ite_then_wf eccTouch_wf (foldl_wf (fun d _ h => wrN_wf d _ _ _ h) _ _ (eccTouch_wf h)))

@[simp] theorem flip_mem (d : Dev) : (flip d).mem = d.mem := by simp [flip, apply_ite Dev.mem]

@[simp] theorem stopLoan_wf {d : Dev} {x : FabXfer} (h : memWf d.mem) : memWf (stopLoan d x).mem := by simp [stopLoan, h]

@[simp] theorem stopLoans_wf {d : Dev} (h : memWf d.mem) : memWf (stopLoans d).mem :=
  foldl_wf (fun _ _ h => stopLoan_wf h) _ _ h

@[simp] theorem giveUpSlot_mem (d : Dev) : (giveUpSlot d).mem = d.mem := by
  unfold giveUpSlot
  exact foldl_mem (fun _ _ => modCell_mem ..) _ _

@[simp] theorem gateOpen_wf {d : Dev} (h : memWf d.mem) : memWf (gateOpen d).mem := by
  unfold gateOpen
  split
  · refine stopLoans_wf (wf_of_mem (giveUpSlot_mem ..) (ite_then_wf snapshotAll_wf ?_))
    exact wf_of_mem (foldl_mem (fun _ _ => countAt_mem ..) _ _) h
  · exact h

@[simp] theorem commitRecord_mem (d : Dev) (b : Nat) : (commitRecord d b).mem = d.mem := by simp [commitRecord, apply_ite Dev.mem]

@[simp] theorem commitGauge_wf {d : Dev} {k : Nat} (h : memWf d.mem) : memWf (commitGauge d k).mem :=
  wrN_wf _ _ _ _ h

@[simp] theorem closeBucket_mem (d : Dev) (b : Bucket) : (closeBucket d b).mem = d.mem := by simp [closeBucket]

@[simp] theorem clearPartials_mem (d : Dev) : (clearPartials d).mem = d.mem := by
  unfold clearPartials
  exact foldl_mem (fun _ _ => modCell_mem ..) _ d

@[simp] theorem commit_wf {d : Dev} (h : memWf d.mem) : memWf (commit d).mem := by
  unfold commit
  split
  · refine wf_of_mem (foldl_mem (fun _ _ => closeBucket_mem ..) _ _) (wf_of_mem (clearPartials_mem _) ?_)
    refine writeReport_wf (wf_of_mem (putRgf_mem ..) (wf_of_mem (putRgf_mem ..) ?_))
    refine foldl_wf (fun _ _ h => commitEntry_wf h) _ _ (ite_then_wf (foldl_wf (fun _ _ h => seqCommit_wf h) _ _) ?_)
    refine foldl_wf (fun _ _ h => commitGauge_wf h) _ _ (wf_of_mem (foldl_mem (fun _ _ => commitRecord_mem ..) _ _) ?_)
    exact eccTouch_wf (eccTouch_wf (ite_then_wf eccTouch_wf h))
  · exact h

theorem abandonComplete_wf {d : Dev} (h : memWf d.mem) : OkWf (abandonComplete d) := by
  unfold abandonComplete
  split
  · exact ensures_pure.2 h
  · refine (Ensures.foldlM (fun d c h => ensures_ite (ensures_pure.2 h) (settleNow_wf h)) _ d h).bind fun d h => ?_
    split
    · simp [h]
    · exact ensures_pure.2 h

/-! ### Ports: the commands of the unit ports -/

@[simp] theorem emptyQueues_mem (d : Dev) (ps : List Nat) : (emptyQueues d ps).mem = d.mem := by simp [emptyQueues, apply_ite Dev.mem]

@[simp] theorem resetUnits_wf {d : Dev} {p : Nat} (h : memWf d.mem) : memWf (resetUnits d p).mem := by
  unfold resetUnits
  refine wf_of_mem (modPort_mem ..) (wipeMem_wf _ _ ?_)
  refine wf_of_mem (foldl_mem (fun _ _ => ?_) _ _) (wf_of_mem (emptyQueues_mem ..) h)
  rw [modCell_mem, flushRun_mem]

@[simp] theorem unitReset_wf {d : Dev} {p : Nat} (h : memWf d.mem) : memWf (unitReset d p).mem := by
  unfold unitReset
  (repeat' split) <;> simp [h]

@[simp] theorem unitWipeDone_mem (d : Dev) (p : Nat) : (unitWipeDone d p).mem = d.mem := by simp [unitWipeDone, apply_ite Dev.mem]

@[simp] theorem portNop_mem (d : Dev) (p : Nat) : (portNop d p).mem = d.mem := by
  unfold portNop
  (repeat' split) <;> simp

@[simp] theorem portStart_mem (d : Dev) (p : Nat) : (portStart d p).mem = d.mem := by
  unfold portStart
  (repeat' split) <;> simp

@[simp] theorem portStop_mem (d : Dev) (p : Nat) : (portStop d p).mem = d.mem := by
  unfold portStop
  (repeat' split) <;> simp

@[simp] theorem portHset_mem (d : Dev) (p : Nat) : (portHset d p).mem = d.mem := by
  unfold portHset
  (repeat' split) <;> simp

@[simp] theorem portHinc_mem (d : Dev) (p : Nat) : (portHinc d p).mem = d.mem := by
  unfold portHinc
  (repeat' split) <;> simp

@[simp] theorem portHwait_mem (d : Dev) (p : Nat) : (portHwait d p).mem = d.mem := by
  unfold portHwait
  (repeat' split) <;> simp

@[simp] theorem portReset_wf {d : Dev} {p : Nat} (h : memWf d.mem) : memWf (portReset_ d p).mem := by
  unfold portReset_
  (repeat' split) <;> simp [h]

@[simp] theorem clearSummary_mem (d : Dev) (p bits : Nat) : (clearSummary d p bits).mem = d.mem := by simp [clearSummary, apply_ite Dev.mem]

@[simp] theorem portFclr_mem (d : Dev) (p : Nat) : (portFclr d p).mem = d.mem := by
  unfold portFclr
  (repeat' split) <;> simp

@[simp] theorem driverPush_mem (d : Dev) (p : Nat) (w : W64) : (driverPush d p w).mem = d.mem := by simp [driverPush]

@[simp] theorem writeReset_wf {d : Dev} {p : Nat} {v : W64} (h : memWf d.mem) : memWf (writeReset d p v).mem := by
  unfold writeReset
  split <;> simp [h]

@[simp] theorem writeFaultSum_mem (d : Dev) (p : Nat) (v : W64) :
    (writeFaultSum d p v).mem = d.mem := by simp [writeFaultSum, apply_ite Dev.mem]

@[simp] theorem writeHold_mem (d : Dev) (p i : Nat) (v : W64) : (writeHold d p i v).mem = d.mem := by simp [writeHold, apply_ite Dev.mem]

@[simp] theorem writeTrace_mem (d : Dev) (p : Nat) (v : W64) : (writeTrace d p v).mem = d.mem := by simp [writeTrace, apply_ite Dev.mem]

/-! ### Accession: the accession -/

theorem crateWrite_wf {d : Dev} {off : Nat} {v : W64} (h : memWf d.mem) : OkWf (crateWrite d off v) := by
  unfold crateWrite
  extract_lets m
  (repeat' split) <;> simp [h]

@[simp] theorem crateEmpty_mem (d : Dev) : (crateEmpty d).mem = d.mem := rfl

@[simp] theorem crateDiscard_mem (d : Dev) (v : W64) : (crateDiscard d v).mem = d.mem := by simp [crateDiscard, apply_ite Dev.mem]

@[simp] theorem accReport_mem (d : Dev) (reason : Nat) (off : Option Nat) : (accReport d reason off).mem = d.mem := rfl

@[simp] theorem accedeTake_wf {d : Dev} {mode : Nat} {w : W64} {task : Option Nat} (h : memWf d.mem) :
    memWf (accedeTake d mode w task).2.mem := by
  simp only [accedeTake]
  (repeat' split) <;> simp [h]

@[simp] theorem accEnd_wf {d : Dev} {reason : Nat} {off : Option Nat} (h : memWf d.mem) :
    memWf (accEnd d reason off).mem := by simp [accEnd, h]

@[simp] theorem checkEnd_wf {d : Dev} (h : memWf d.mem) : memWf (checkEnd d).2.mem := by
  simp only [checkEnd]
  (repeat' split) <;> simp [h]

@[simp] theorem cellOut_wf {d : Dev} {c : Nat} (h : memWf d.mem) : memWf (cellOut d c).mem := by
  unfold cellOut
  exact wipeMem_wf _ _ (wf_of_mem (modCell_mem ..) (wf_of_mem (flushRun_mem ..) h))

@[simp] theorem applyMap_wf {d : Dev} {m : BitVec 1024} (h : memWf d.mem) : memWf (applyMap d m).mem := by
  unfold applyMap
  dsimp only
  refine wf_of_mem (foldl_mem (fun _ _ => modPort_mem ..) _ _) ?_
  refine (fun hd => ite_wf hd (wipeMem_wf _ _ hd)) ?_
  exact foldl_wf (fun d c h => ite_wf (cellOut_wf h) (ite_wf (wf_of_mem (thawCell_mem ..) h) h)) _ d h

@[simp] theorem applyEntry_mem (d : Dev) (e : Nat × Option W64) : (applyEntry d e).mem = d.mem := by
  unfold applyEntry
  (repeat' split) <;> simp

@[simp] theorem applyCrate_wf {d : Dev} (h : memWf d.mem) : memWf (applyCrate d).mem := by
  unfold applyCrate
  have hd : memWf (d.acc.crate.foldl applyEntry d).mem := wf_of_mem (foldl_mem (fun _ _ => applyEntry_mem ..) _ d) h
  refine wf_of_mem (foldl_mem (fun _ _ => updateFunnel_mem ..) _ _) (foldl_wf (fun d o h => ?_) _ _ ?_)
  · exact (xringSkip_wf h : memWf (xringSkip d ((o - 0x100_0200) / 8)).mem)
  · split
    · dsimp only
      exact ite_wf hd (applyMap_wf hd)
    · exact ite_wf hd (applyMap_wf hd)

@[simp] theorem accApply_wf {d : Dev} (h : memWf d.mem) : memWf (accApply d).2.mem := by
  unfold accApply
  (repeat' split) <;> simp [h]

@[simp] theorem accAbandon_wf {d : Dev} (h : memWf d.mem) : memWf (accAbandon d).2.mem := by
  unfold accAbandon
  split <;> simp [h]

/-! ### Ledger: the ledger -/

@[simp] theorem flashWrite_mem (d : Dev) (a : Nat) (bs : List Byte) : (flashWrite d a bs).mem = d.mem := rfl

@[simp] theorem flashErase_mem (d : Dev) (a : Nat) : (flashErase d a).mem = d.mem := rfl

@[simp] theorem ldgMarks_mem (d : Dev) : (ldgMarks d).mem = d.mem := rfl

@[simp] theorem ldgUse_mem (d : Dev) (k : Nat) : (ldgUse d k).mem = d.mem := rfl

@[simp] theorem linkPresets_mem (d : Dev) : (linkPresets d).2.mem = d.mem := rfl

@[simp] theorem ledgerUpdate_mem (d : Dev) (v : W64) : (ledgerUpdate d v).mem = d.mem := by
  simp only [ledgerUpdate]
  (repeat' split) <;> simp

@[simp] theorem programCopy_mem (d : Dev) (k : Nat) (bs : List Byte) : (programCopy d k bs).mem = d.mem := rfl

@[simp] theorem ledgerDone_wf {d : Dev} {readback : Bool} (h : memWf d.mem) : memWf (ledgerDone d readback).mem := by
  simp only [ledgerDone]
  (repeat' split) <;> simp [h]

@[simp] theorem ledgerAbandon_wf {d : Dev} (h : memWf d.mem) : memWf (ledgerAbandon d).mem := by
  unfold ledgerAbandon
  split <;> simp [h]

/-! ### Observe: streams, counters and the dump -/

@[simp] theorem syncPeriodic_mem (d : Dev) (c : Nat) : (syncPeriodic d c).mem = d.mem := by simp [syncPeriodic, apply_ite Dev.mem]

@[simp] theorem writeTrcBase_mem (d : Dev) (g : Nat) (v : W64) :
    (writeTrcBase d g v).mem = d.mem := by simp [writeTrcBase, apply_ite Dev.mem]

@[simp] theorem traceStream_wf {d : Dev} {g : Nat} (h : memWf d.mem) : memWf (traceStream d g).mem := by
  simp only [traceStream]
  (repeat' split) <;> simp [h]

@[simp] theorem clearAllCounts_mem (d : Dev) : (clearAllCounts d).mem = d.mem := by
  simp only [clearAllCounts, putRg_mem]
  rw [foldl_mem fun _ _ => putRg_mem .., foldl_mem fun _ _ => modCell_mem ..]

@[simp] theorem writeCntCtl_mem (d : Dev) (v : W64) : (writeCntCtl d v).mem = d.mem := by simp [writeCntCtl, apply_ite Dev.mem]

@[simp] theorem dumpLand_wf {d : Dev} {base : Nat} {ps : List Piece} (h : memWf d.mem) : memWf (dumpLand d base ps).mem :=
  foldl_wf (fun d _ h => wrBytes_wf d _ _ h) _ _ (wipeMem_wf _ _ (wf_of_mem (lineDrop_mem ..) h))

@[simp] theorem dumpEnd_wf {d : Dev} {ok : Bool} (h : memWf d.mem) : memWf (dumpEnd d ok).mem := by simp [dumpEnd, h]

@[simp] theorem dumpUnspec_wf {d : Dev} (h : memWf d.mem) : memWf (dumpUnspec d).mem :=
  ite_then_wf (wrUnspec_wf _ d) h

@[simp] theorem dumpDone_wf {d : Dev} {ok : Bool} (h : memWf d.mem) : memWf (dumpDone d ok).2.mem := by
  simp only [dumpDone]
  (repeat' split) <;> simp [h]

/-! ### Registers: the registers -/

@[simp] theorem readReg_mem (d : Dev) (off : Nat) : (readReg d off).2.mem = d.mem := by simp [readReg, apply_ite Dev.mem]

@[simp] theorem ringError_wf {d : Dev} {r : Nat} (h : memWf d.mem) : memWf (ringError d r).mem := by simp [ringError, h]

@[simp] theorem writeCqBase_wf {d : Dev} {r : Nat} {v : W64} (h : memWf d.mem) : memWf (writeCqBase d r v).mem := by
  simp only [writeCqBase]
  (repeat' split) <;> simp [h]

@[simp] theorem writeCqDb_wf {d : Dev} {r : Nat} {v : W64} (h : memWf d.mem) : memWf (writeCqDb d r v).mem := by
  simp only [writeCqDb]
  split <;> simp [h]

@[simp] theorem writeSecCmd_mem (d : Dev) (v : W64) : (writeSecCmd d v).mem = d.mem := by simp [writeSecCmd, apply_ite Dev.mem]

@[simp] theorem writeMbox_mem (d : Dev) (v : W64) : (writeMbox d v).mem = d.mem := by simp [writeMbox, apply_ite Dev.mem]

@[simp] theorem writeFrame_wf {d : Dev} {p o : Nat} {v : W64} (h : memWf d.mem) : memWf (writeFrame d p o v).mem := by
  unfold writeFrame
  (repeat' split) <;> simp [h]

@[simp] theorem writeByCode_mem (d : Dev) (off : Nat) (r : RegRow) (v : W64) : (writeByCode d off r v).mem = d.mem := rfl

theorem writeOwn_wf {d : Dev} {src : Src} {off : Nat} {v : W64} (h : memWf d.mem) : SomeWf (writeOwn d src off v) := by
  unfold writeOwn
  repeat' apply someWf_ite
  all_goals simp [apply_ite Dev.mem, h]

theorem writeReg_wf {d : Dev} {src : Src} {off : Nat} {v : W64} (h : memWf d.mem) : OkWf (writeReg d src off v) := by
  unfold writeReg
  dsimp only
  split
  · exact ensures_ok.2 h
  · split
    · exact ensures_ok.2 h
    · split
      · exact ensures_ite (ensures_ite (crateWrite_wf h) (ensures_ok.2 h)) (ensures_ok.2 (writeFrame_wf h))
      · split
        · exact crateWrite_wf h
        · split
          · next e he => exact ensures_ok.2 (writeOwn_wf h e he)
          · exact ensures_ok.2 (wf_of_mem (writeByCode_mem ..) h)

@[simp] theorem noteBus_mem (d : Dev) (off : Nat) (v : W64) : (noteBus d off v).mem = d.mem := rfl

@[simp] theorem busUndo_mem (d : Dev) (off : Nat) : (busUndo d off).mem = d.mem := by simp [busUndo, apply_ite Dev.mem]

theorem busReg_wf {d : Dev} {off : Nat} {v : W64} (h : memWf d.mem) : OkWf (busReg d off v) := by
  unfold busReg
  exact (writeReg_wf h).bind fun e h => ensures_ok.2 (ite_wf h (wf_of_mem (noteBus_mem ..) h))

theorem hostReg_wf {d : Dev} {off : Nat} {v : W64} (h : memWf d.mem) : OkWf (hostReg d off v) := by
  unfold hostReg
  split
  · exact writeReg_wf h
  · exact (writeReg_wf (wf_of_mem (busUndo_mem ..) h)).bind fun d h => Ensures.foldlM (fun _ _ h => writeReg_wf h) _ d h

/-! ### HostTasks: the tasks of the host -/

@[simp] theorem markBusy_mem (d : Dev) (r : Nat) : (markBusy d r).mem = d.mem := rfl

@[simp] theorem putTask_mem (d : Dev) (t : HostTask) : (putTask d t).mem = d.mem := rfl

@[simp] theorem dropTask_mem (d : Dev) (i : Nat) : (dropTask d i).mem = d.mem := rfl

@[simp] theorem writeRecord_wf {d : Dev} {t : HostTask} (h : memWf d.mem) : memWf (writeRecord d t).mem := by simp [writeRecord, h]

@[simp] theorem sendReply_mem (d : Dev) (root tag port : Nat) (s : Share) : (sendReply d root tag port s).mem = d.mem := by simp [sendReply]

@[simp] theorem finishTask_wf {d : Dev} {i : Nat} (h : memWf d.mem) : memWf (finishTask d i).mem := by
  unfold finishTask
  (repeat' split) <;> simp [h]

@[simp] theorem endShare_wf {d : Dev} {i status reason : Nat} (h : memWf d.mem) : memWf (endShare d i status reason).mem := by
  unfold endShare
  split <;> simp [h]

@[simp] theorem endShareOf_wf {d : Dev} {i : Option Nat} {status reason : Nat} (h : memWf d.mem) :
    memWf (endShareOf d i status reason).mem := by
  unfold endShareOf
  split <;> simp [h]

@[simp] theorem abandonPoll_wf {d : Dev} (h : memWf d.mem) : memWf (abandonPoll d).mem := by
  unfold abandonPoll
  split
  · exact foldl_wf (fun _ _ h => endShare_wf h) _ d h
  · exact h

@[simp] theorem accedeEnd_wf {d : Dev} {task : Option Nat} {r : Option Nat} (h : memWf d.mem) : memWf (accedeEnd d task r).mem := by
  unfold accedeEnd
  split <;> simp [h]

/-! ### Resets: resets -/

@[simp] theorem resetDump_wf {d : Dev} (h : memWf d.mem) : memWf (resetDump d).mem := by
  unfold resetDump
  split
  · split <;> simp [h]
  · exact ite_wf (endShareOf_wf (dumpEnd_wf (dumpUnspec_wf h))) h

@[simp] theorem resetStep_wf {d : Dev} (h : memWf d.mem) : memWf (resetStep d).mem := by
  simp only [resetStep]
  split <;> simp [h]

@[simp] theorem resetFlush_wf {d : Dev} (h : memWf d.mem) : memWf (resetFlush d).mem := by
  unfold resetFlush
  split <;> simp [h]

@[simp] theorem resetTasks_wf {d : Dev} (h : memWf d.mem) : memWf (resetTasks d).mem :=
  foldl_wf (fun _ _ h => endShare_wf h) _ d h

@[simp] theorem resetAccession_wf {d : Dev} (h : memWf d.mem) : memWf (resetAccession d).mem := by
  simp only [resetAccession]
  split <;> simp [h]

@[simp] theorem cutLoans_mem (d : Dev) : (cutLoans d).mem = d.mem := rfl

@[simp] theorem resetDies_wf {d : Dev} (h : memWf d.mem) : memWf (resetDies d).mem := by
  unfold resetDies
  refine wf_of_mem (clearAllCounts_mem ..) (wipeMem_wf _ _ ?_)
  exact resetUnits_wf h

@[simp] theorem startReset_wf {d : Dev} {kind : Nat} (h : memWf d.mem) : memWf (startReset d kind).mem := by
  unfold startReset
  dsimp only
  split
  · exact wipeMem_wf _ _ (by simpa using h)
  · refine abandonPoll_wf ?_
    dsimp only
    rw [putRgf_mem, putRgf_mem]
    refine resetDies_wf (resetTasks_wf (ledgerAbandon_wf (resetAccession_wf (wf_of_mem (cutLoans_mem _) ?_))))
    have hd : memWf (resetDump (emitSquall d (0x10 + kind))).mem := resetDump_wf (wf_of_mem (emitSquall_mem ..) h)
    exact foldl_wf (fun _ _ h => stopLoan_wf h) _ _ (ite_wf (resetStep_wf hd) (resetFlush_wf (resetStep_wf hd)))

@[simp] theorem endReset_mem (d : Dev) : (endReset d).mem = d.mem := rfl

@[simp] theorem wipeComplete_wf {d : Dev} (h : memWf d.mem) : memWf (wipeComplete d).mem := by
  simp only [wipeComplete]
  (repeat' split) <;> simp [h]

@[simp] theorem retrainPort_mem (d : Dev) (p : Nat) : (retrainPort d p).mem = d.mem := rfl

@[simp] theorem dropDiscards_mem (d : Dev) (ps : List Nat) : (dropDiscards d ps).mem = d.mem := by simp [dropDiscards]

@[simp] theorem takeDown_wf {d : Dev} {p : Nat} (h : memWf d.mem) : memWf (takeDown d p).mem := by
  simp only [takeDown]
  (repeat' split) <;> simp [h]

@[simp] theorem warmLinksDown_wf {d : Dev} (h : memWf d.mem) : memWf (warmLinksDown d).mem := by
  unfold warmLinksDown
  split
  · exact h
  · split
    · exact h
    · refine abandonPoll_wf (wf_of_mem (dropDiscards_mem ..) ?_)
      dsimp only
      exact foldl_wf (fun _ _ h => takeDown_wf h) _ d h

@[simp] theorem warmRetrainDone_wf {d : Dev} {lanes : Nat} (h : memWf d.mem) : memWf (warmRetrainDone d lanes).mem := by
  unfold warmRetrainDone
  split <;> simp [h]

/-! ### HostCmd: the commands of the host -/

@[simp] theorem readPieces_mem (d : Dev) (ps : List (Nat × Nat)) : (readPieces d ps).2.mem = d.mem := by simp [readPieces]

@[simp] theorem writePieces_wf : ∀ (ps : List (Nat × Nat)) {d : Dev} {bs : List Byte}, memWf d.mem → memWf (writePieces d ps bs).mem
  | [], _, _, h => h
  | _ :: ps, _, _, h => writePieces_wf ps (engWrite_wf h)

@[simp] theorem engineCount_mem (d : Dev) (c h : Nat) (know : List Nat) : (engineCount d c h know).mem = d.mem := by simp [engineCount]

theorem settlePieces_wf {d : Dev} {ps : List (Nat × Nat)} (h : memWf d.mem) : OkWf (settlePieces d ps) :=
  Ensures.foldlM (fun _ _ h => settlePlace_wf h) _ d h

@[simp] theorem hostDmaFault_mem (d : Dev) (port sub a : Nat) : (hostDmaFault d port sub a).mem = d.mem := rfl

@[simp] theorem dumpCommand_mem (d : Dev) (task : Nat) : (dumpCommand d task).mem = d.mem := by simp [dumpCommand]

@[simp] theorem takeProgload_mem (d : Dev) (ws : List W64) :
    (takeProgload d ws).2.mem = d.mem := by simp [takeProgload, apply_ite Prod.snd, apply_ite Dev.mem]

@[simp] theorem takeReset_wf {d : Dev} {ws : List W64} (h : memWf d.mem) : memWf (takeReset d ws).2.mem := by
  unfold takeReset
  (repeat' split) <;> simp [h]

theorem execOp_wf {d : Dev} {src : Src} {ws : List W64} {task : Nat} (h : memWf d.mem) :
    Ensures (fun p => memWf p.2.mem) (execOp d src ws task) := by
  unfold execOp
  dsimp only
  split
  · exact ensures_ok.2 h
  · split <;> simp [h]
  · exact (writeReg_wf h).bind fun d h => ensures_pure.2 h
  · simp [h]
  · split <;> simp [h]
  · split <;> simp [h]
  · have hd : memWf (if bitAt (argOf ws 0) 0 then emitSquall d 0x13 else d).mem := ite_wf (wf_of_mem (emitSquall_mem ..) h) h
    exact ensures_ok.2 (ite_wf (abandonStep_wf hd) (ite_wf (fabFlush_wf hd) hd))
  · simp [h]
  · split <;> simp [h]
  · exact ensures_ok.2 (accedeTake_wf h)
  · exact ensures_ok.2 (takeReset_wf h)
  · split <;> simp [h]
  · exact ensures_ok.2 h

theorem ownShare_wf {d : Dev} {src : Src} {i : Nat} (h : memWf d.mem) : OkWf (ownShare d src i) := by
  unfold ownShare
  split
  · exact ensures_ok.2 h
  · exact (execOp_wf h).bind fun r h => ensures_pure.2 (abandonPoll_wf (finishTask_wf h))

@[simp] theorem sendRequests_mem (d : Dev) (ws : List W64) (l : List Nat) : (sendRequests d ws l).mem = d.mem := by simp [sendRequests]

@[simp] theorem takeEntry_mem (d : Dev) (r : Nat) : (takeEntry d r).mem = d.mem := by
  unfold takeEntry
  exact (withHost_mem (putRgf ..) _).trans ((putRgf_mem ..).trans (lineAlloc_mem ..))

theorem takeCommand_wf {d : Dev} {r : Nat} {ws : List W64} (h : memWf d.mem) : OkWf (takeCommand d r ws) := by
  unfold takeCommand
  dsimp only
  have ht : memWf (newId (takeEntry d r)).2.mem := wf_of_mem (newId_mem _) (wf_of_mem (takeEntry_mem ..) h)
  split
  · exact ensures_ok.2 (writeRecord_wf ht)
  · have hs {t : HostTask} {l : List Nat} : memWf (sendRequests (markBusy (putTask (newId (takeEntry d r)).2 t) r) ws l).mem :=
      wf_of_mem (sendRequests_mem ..) (wf_of_mem (markBusy_mem ..) (wf_of_mem (putTask_mem ..) ht))
    refine ensures_ite_bind (ownShare_wf hs) (ensures_pure.2 hs) fun d h => ensures_pure.2 (finishTask_wf ?_)
    exact wf_of_mem (sendRequests_mem ..) h

theorem commandTake_wf {d : Dev} {op : Option Nat} (h : memWf d.mem) : OkWf (commandTake d op) := by
  unfold commandTake
  (repeat' split) <;> simp [takeCommand_wf, h]

theorem progloadComplete_wf {d : Dev} {i : Nat} (h : memWf d.mem) : OkWf (progloadComplete d i) := by
  unfold progloadComplete
  split
  · exact ensures_ok.2 h
  · have hf (l : List Nat) (sub a : Nat) : memWf (l.foldl (fun d g => hostDmaFault d (galleryPort g) sub a) d).mem :=
      wf_of_mem (foldl_mem (fun _ _ => hostDmaFault_mem ..) _ d) h
    dsimp only
    split
    · exact ensures_ok.2 (endShare_wf (hf ..))
    · split
      · exact ensures_ok.2 (endShare_wf (hf ..))
      · refine ensures_ite ensures_error (ensures_ite (ensures_ok.2 h) (ensures_ite ensures_error ?_))
        refine (settlePieces_wf h).bind fun d h => ensures_pure.2 (endShare_wf ?_)
        refine wf_of_mem (foldl_mem (fun _ _ => foldl_mem (fun _ _ => putBundle_mem ..) _ _) _ _) ?_
        exact wf_of_mem (readPieces_mem ..) h

theorem copyComplete_wf {d : Dev} {i : Nat} (h : memWf d.mem) : OkWf (copyComplete d i) := by
  unfold copyComplete
  split
  · exact ensures_ok.2 h
  · dsimp only
    split
    · exact ensures_ok.2 (endShare_wf (wf_of_mem (hostDmaFault_mem ..) h))
    · refine ensures_ite ensures_error (ensures_ite (ensures_ok.2 h) (ensures_ite ensures_error ?_))
      refine (settlePieces_wf h).bind fun d h => ensures_bind_any fun _ => ensures_pure.2 (endShare_wf ?_)
      exact ite_then_wf (wf_of_mem (engineCount_mem ..)) (writePieces_wf _ (wf_of_mem (readPieces_mem ..) h))

theorem relayRequest_wf {d : Dev} {m : FabMsg} (h : memWf d.mem) : OkWf (relayRequest d m) := by
  unfold relayRequest
  dsimp only
  refine ensures_ite (ensures_ok.2 h) (ensures_ite (ensures_ok.2 (wf_of_mem (sendReply_mem ..) h)) ?_)
  refine (execOp_wf (by simpa using h)).bind fun r h => ensures_pure.2 (abandonPoll_wf (finishTask_wf ?_))
  split <;> simpa using h

theorem relayReply_wf {d : Dev} {m : FabMsg} (h : memWf d.mem) : OkWf (relayReply d m) := by
  unfold relayReply
  dsimp only
  split
  · exact ensures_ok.2 h
  · split
    · exact ensures_ok.2 h
    · exact ensures_ite (ownShare_wf (wf_of_mem (putTask_mem ..) h)) (ensures_ok.2 (finishTask_wf (wf_of_mem (putTask_mem ..) h)))

@[simp] theorem relayTimeout_wf {d : Dev} {i : Nat} (h : memWf d.mem) : memWf (relayTimeout d i).mem := by
  unfold relayTimeout
  (repeat' split) <;> simp [h]

@[simp] theorem countInvalid_mem (d : Dev) : (countInvalid d).mem = d.mem := rfl

@[simp] theorem failAccess_mem (d : Dev) (len : Nat) (data : Option (List Byte)) : (failAccess d len data).mem = d.mem := by
  unfold failAccess
  split <;> simp

@[simp] theorem invalidAccess_mem (d : Dev) (len : Nat) (data : Option (List Byte)) :
    (invalidAccess d len data).mem = d.mem := by simp [invalidAccess]

theorem linkWrite_wf {d : Dev} {off : Nat} {v : W64} (h : memWf d.mem) : OkWf (linkWrite d off v) := by
  unfold linkWrite
  (repeat' split) <;> simp [countInvalid_mem, hostReg_wf, h]

@[simp] theorem readWindow0_mem (d : Dev) (off len : Nat) : (readWindow0 d off len).mem = d.mem := by simp [readWindow0, apply_ite Dev.mem]

theorem writeWindow0_wf {d : Dev} {off : Nat} {bs : List Byte} (h : memWf d.mem) : OkWf (writeWindow0 d off bs) := by
  unfold writeWindow0
  (repeat' split) <;> simp [countInvalid_mem, linkWrite_wf, h]

theorem moveAccess_wf {d : Dev} {a : HostAcc} (h : memWf d.mem) : OkWf (moveAccess d a) := by
  unfold moveAccess
  refine (settlePieces_wf h).bind fun d h => ?_
  split
  · exact ensures_bind_any fun _ => ensures_pure.2 (writePieces_wf _ h)
  · exact ensures_pure.2 (wf_of_mem (readPieces_mem ..) h)

theorem serveAccess_wf {d : Dev} {a : HostAcc} (h : memWf d.mem) : OkWf (serveAccess d a) := by
  unfold serveAccess
  (repeat' split) <;> simp [invalidAccess_mem, moveAccess_wf, h]

theorem windowAccess_wf {d : Dev} {w off len : Nat} {data : Option (List Byte)} (h : memWf d.mem) :
    OkWf (windowAccess d w off len data) := by
  unfold windowAccess
  (repeat' split) <;> simp [readWindow0_mem, serveAccess_wf, writeWindow0_wf, h]

theorem retryAccesses_wf {d : Dev} (h : memWf d.mem) : OkWf (retryAccesses d) := by
  unfold retryAccesses
  exact ensures_ite (ensures_ok.2 h) (Ensures.foldlM (fun _ _ h => serveAccess_wf h) _ _ h)

@[simp] theorem accessTimeout_mem (d : Dev) : (accessTimeout d).mem = d.mem := by
  unfold accessTimeout
  (repeat' split) <;> simp

@[simp] theorem hostLineWrite_wf {d : Dev} {off : Nat} {bs : List Byte} (h : memWf d.mem) : memWf (hostLineWrite d off bs).mem :=
  ite_then_wf (fun _ => wrBytes_wf _ _ _ (wf_of_mem (lineDrop_mem ..) h)) h

@[simp] theorem forwarded_wf {d : Dev} {m : FabMsg} (h : memWf d.mem) : memWf (forwarded d m).mem := by
  unfold forwarded
  (repeat' split) <;> simp [h]

/-! ### Boot: boot -/

@[simp] theorem cutUpdate_mem (d : Dev) : (cutUpdate d).mem = d.mem := by
  unfold cutUpdate
  (repeat' split) <;> simp

@[simp] theorem flashUnspec_mem (d : Dev) (a n : Nat) : (flashUnspec d a n).mem = d.mem := by simp [flashUnspec]

@[simp] theorem cutMailbox_mem (d : Dev) : (cutMailbox d).mem = d.mem := by
  unfold cutMailbox
  (repeat' split) <;> simp

@[simp] theorem coldOf_wf {d : Dev} (h : memWf d.mem) : memWf (coldOf d).mem := by
  have hd : memWf (cutUpdate (cutMailbox d)).mem := by simpa using h
  exact tabWf_filter memDefault _ hd

@[simp] theorem drawScalar_mem (d : Dev) : (drawScalar d).2.mem = d.mem := rfl

@[simp] theorem putBytes_mem (d : Dev) (off : Nat) (bs : List Byte) : (putBytes d off bs).mem = d.mem := by
  unfold putBytes
  exact foldl_mem (fun _ _ => putRg_mem ..) _ _

@[simp] theorem newChallenge_mem (d : Dev) : (newChallenge d).mem = d.mem := by simp [newChallenge]

@[simp] theorem deviceSign_mem (d : Dev) (digest : List Byte) : (deviceSign d digest).2.mem = d.mem := by
  unfold deviceSign
  split <;> simp

@[simp] theorem showFuses_mem (d : Dev) : (showFuses d).mem = d.mem := by
  simp only [showFuses]
  split <;> simp

@[simp] theorem strippedCopy_mem (d : Dev) (bs : List Byte) (seq : Nat) :
    (strippedCopy d bs seq).2.mem = d.mem := by simp [strippedCopy, apply_ite Prod.snd, apply_ite Dev.mem]

@[simp] theorem clearOwner_mem (d : Dev) : (clearOwner d).mem = d.mem := by simp [clearOwner, apply_ite Dev.mem]

@[simp] theorem loadRoute_mem (d : Dev) (bs : List Byte) : (loadRoute d bs).mem = d.mem := by
  simp only [loadRoute]
  rw [foldl_mem fun _ _ => putRg_mem .., putRg_mem, putRg_mem]

@[simp] theorem loadPower_mem (d : Dev) (bs : List Byte) : (loadPower d bs).mem = d.mem := by simp [loadPower]

@[simp] theorem loadDepot_mem (d : Dev) (ms : List (Option Dimm)) : (loadDepot d ms).mem = d.mem := by
  unfold loadDepot
  dsimp only
  split <;> exact putRg_mem ..

@[simp] theorem loadLedger_wf {d : Dev} (h : memWf d.mem) : memWf (loadLedger d).mem := by simp [loadLedger, h]

@[simp] theorem finishClearing_mem (d : Dev) : (finishClearing d).mem = d.mem := by simp [finishClearing, apply_ite Dev.mem]

@[simp] theorem commitSvn_mem (d : Dev) (svn : Nat) (commit : Bool) (burnt : Nat) :
    (commitSvn d svn commit burnt).mem = d.mem := by simp [commitSvn, apply_ite Dev.mem]

@[simp] theorem startSteward_mem (d : Dev) (s : Nat) : (startSteward d s).mem = d.mem := by
  rw [startSteward]
  dsimp only
  rw [newChallenge_mem, putBytes_mem, putRg_mem, putRgf_mem, showFuses_mem]

@[simp] theorem bootComplete_wf {d : Dev} {ms : List (Option Dimm)} {burnt : Nat} (h : memWf d.mem) :
    memWf (bootComplete d ms burnt).mem := by
  unfold bootComplete
  (repeat' split) <;> simp [h]

/-! ### Fabric: the fabric -/

@[simp] theorem linkLoss_wf {d : Dev} {p : Nat} (h : memWf d.mem) : memWf (linkLoss d p).mem := by
  simp only [linkLoss]
  (repeat' split) <;> simp [h]

@[simp] theorem hostLinkLoss_wf {d : Dev} (h : memWf d.mem) : memWf (hostLinkLoss d).mem := by
  unfold hostLinkLoss
  split <;> simp [h]

@[simp] theorem trainingDone_wf {d : Dev} {p : Nat} {ok : Bool} {peer pport lanes : Nat} (h : memWf d.mem) :
    memWf (trainingDone d p ok peer pport lanes).mem := by
  simp only [trainingDone]
  (repeat' split) <;> simp [h]

@[simp] theorem cableMate_wf {d : Dev} {p : Nat} {present : Bool} (h : memWf d.mem) : memWf (cableMate d p present).mem := by
  simp only [cableMate]
  (repeat' split) <;> simp [h]

@[simp] theorem noteRequest_mem (d : Dev) (m : FabMsg) : (noteRequest d m).mem = d.mem := rfl

@[simp] theorem startMsg_mem (d : Dev) (p : Nat) : (startMsg d p).mem = d.mem := by
  unfold startMsg
  (repeat' split) <;> simp

@[simp] theorem portsTick_mem (d : Dev) : (portsTick d).mem = d.mem := by simp [portsTick, apply_ite Dev.mem]

@[simp] theorem forwardMsg_mem (d : Dev) (p : Nat) (m : FabMsg) : (forwardMsg d p m).mem = d.mem := by
  unfold forwardMsg
  (repeat' split) <;> simp

@[simp] theorem unknownClass_mem (d : Dev) (p : Nat) (m : FabMsg) :
    (unknownClass d p m).mem = d.mem := by simp [unknownClass, apply_ite Dev.mem]

@[simp] theorem flushMarker_wf {d : Dev} {p : Nat} {m : FabMsg} (h : memWf d.mem) : memWf (flushMarker d p m).mem := by
  simp only [flushMarker]
  (repeat' split) <;> simp [h]

@[simp] theorem ringPoll_mem (d : Dev) (r : Nat) : (ringPoll d r).mem = d.mem := by simp [ringPoll, apply_ite Dev.mem]

theorem takeXfer_wf {d : Dev} (h : memWf d.mem) : OkWf (takeXfer d) := by
  unfold takeXfer
  dsimp only
  split
  · exact ensures_ok.2 h
  · split
    · exact ensures_ok.2 h
    · refine ensures_ite (ensures_ok.2 h) (ensures_ite ensures_error ?_)
      split <;> exact ensures_ok.2 (by simpa using engWrite_wf (wf_of_mem (engRead_mem ..) h))

@[simp] theorem putFab_mem (d : Dev) (x : FabXfer) : (putFab d x).mem = d.mem := rfl

theorem sendPiece_wf {d : Dev} {k : Nat} (h : memWf d.mem) : OkWf (sendPiece d k) := by
  unfold sendPiece
  dsimp only
  split
  · exact ensures_ok.2 h
  · split
    · exact ensures_ok.2 h
    · split
      · exact ensures_ok.2 h
      · refine ensures_ite ensures_error (ensures_ite (ensures_ok.2 h) (ensures_ite ensures_error ?_))
        exact (settlePieces_wf h).bind fun d h => ensures_pure.2 (by simpa using h)

@[simp] theorem sourceDone_wf {d : Dev} {k : Nat} (h : memWf d.mem) : memWf (sourceDone d k).mem := by
  unfold sourceDone
  (repeat' split) <;> simp [h]

@[simp] theorem noteLoan_mem (d : Dev) (m : FabMsg) (last : Bool) : (noteLoan d m last).mem = d.mem := by simp [noteLoan, apply_ite Dev.mem]

@[simp] theorem dataCounted_mem (d : Dev) (w1 : Nat) : (dataCounted d w1).mem = d.mem := by simp [dataCounted, apply_ite Dev.mem]

theorem dataReceive_wf {d : Dev} {p : Nat} {m : FabMsg} (h : memWf d.mem) : OkWf (dataReceive d p m) := by
  unfold dataReceive
  dsimp only
  refine ensures_ite (ensures_ok.2 h) (ensures_ite (ensures_ok.2 (wf_of_mem (noteLoan_mem ..) h)) ?_)
  split
  · exact ensures_ok.2 (wf_of_mem (raise_mem ..) h)
  · refine ensures_ite (ensures_ok.2 h) (ensures_ite ensures_error (ensures_ite (ensures_ok.2 h) ?_))
    refine (settlePieces_wf h).bind fun d h => ensures_bind_any fun _ => ?_
    have hw {ps : List (Nat × Nat)} {last : Bool} : memWf (noteLoan (writePieces d ps m.body) m last).mem :=
      wf_of_mem (noteLoan_mem ..) (writePieces_wf _ h)
    refine ensures_ite (ensures_pure.2 hw) (ensures_pure.2 ?_)
    exact ite_then_wf (wf_of_mem (sendRouted_mem ..)) (ite_then_wf (wf_of_mem (dataCounted_mem ..)) hw)

@[simp] theorem loanAck_wf {d : Dev} {m : FabMsg} (h : memWf d.mem) : memWf (loanAck d m).mem := by
  unfold loanAck
  (repeat' split) <;> simp [h]

@[simp] theorem missExchange_mem (d : Dev) : (missExchange d).mem = d.mem := by simp [missExchange, apply_ite Dev.mem]

@[simp] theorem wtExchange_mem (d : Dev) : (wtExchange d).mem = d.mem := by
  simp only [wtExchange]
  (repeat' split) <;> simp

@[simp] theorem wtRequest_mem (d : Dev) (p : Nat) (m : FabMsg) : (wtRequest d p m).mem = d.mem := by simp [wtRequest, apply_ite Dev.mem]

@[simp] theorem wtCorrect_mem (d : Dev) (o : Int) (locked : Bool) :
    (wtCorrect d o locked).mem = d.mem := by simp [wtCorrect, apply_ite Dev.mem]

@[simp] theorem wtReply_mem (d : Dev) (m : FabMsg) : (wtReply d m).mem = d.mem := by
  simp only [wtReply]
  (repeat' split) <;> simp

@[simp] theorem loansOf_wf {d : Dev} {m : FabMsg} (h : memWf d.mem) : memWf (loansOf d m).mem := by
  unfold loansOf
  dsimp only
  split
  · exact foldl_wf (fun _ _ h => stopLoan_wf h) _ d h
  · exact h

@[simp] theorem noteSquall_mem (d : Dev) (m : FabMsg) : (noteSquall d m).mem = d.mem := by
  unfold noteSquall
  dsimp only
  split
  · rfl
  · rw [putRg_mem]

@[simp] theorem squallReceive_wf {d : Dev} {p : Nat} {m : FabMsg} (h : memWf d.mem) : memWf (squallReceive d p m).mem := by
  unfold squallReceive
  split
  · exact h
  · have hn : memWf (noteSquall (overrunSweep d) m).mem := by simpa using h
    generalize noteSquall (overrunSweep d) m = n at hn ⊢
    refine ite_then_wf (fun h => wf_of_mem (foldl_mem (fun _ _ => sendMsg_mem ..) _ _) h) (postEvent_wf (loansOf_wf ?_))
    refine ite_wf (ite_wf (abandonStep_wf hn) ?_) (ite_wf (abandonPoll_wf (fabFlush_wf hn)) hn)
    exact wf_of_mem (foldl_mem (fun _ _ => raise_mem ..) _ n) hn

/-! ### Power: power -/

@[simp] theorem countStretch_mem (d : Dev) (w : Nat) : (countStretch d w).mem = d.mem := by simp [countStretch, apply_ite Dev.mem]

@[simp] theorem wingTick_mem (d : Dev) (w : Nat) : (wingTick d w).mem = d.mem := by simp [wingTick, apply_ite Dev.mem]

@[simp] theorem wallTick_mem (d : Dev) : (wallTick d).mem = d.mem := rfl

theorem edgeSettle_wf {d : Dev} {c : Nat} (h : memWf d.mem) : OkWf (edgeSettle d c) := by
  unfold edgeSettle
  (repeat' split) <;> simp [settle_wf, h]

theorem settleWing_wf {d : Dev} {w : Nat} (h : memWf d.mem) : OkWf (settleWing d w) :=
  Ensures.foldlM (fun _ _ h => edgeSettle_wf h) _ d h

theorem issueWing_wf {d : Dev} {w : Nat} (h : memWf d.mem) : OkWf (issueWing d w) :=
  Ensures.foldlM (fun _ _ h => bundleIssue_wf h) _ d h

@[simp] theorem seeCounters_mem (d : Dev) (w : Nat) : (seeCounters d w).mem = d.mem := by
  unfold seeCounters
  exact foldl_mem (fun _ _ => modCell_mem ..) _ _

theorem wingEdge_wf {d : Dev} {w : Nat} (h : memWf d.mem) : OkWf (wingEdge d w) := by
  unfold wingEdge
  refine ensures_ite (ensures_ok.2 (wf_of_mem (wingTick_mem ..) h)) ((issueWing_wf h).bind fun d h => settleWing_wf ?_)
  simpa using h

@[simp] theorem linkErrors_mem (d : Dev) : (linkErrors d).mem = d.mem := by
  have h := foldl_mem (f := fun d p => putRgf (drawWord d).2 (fabPort p) 15 0 (satAdd 16 (rgf d (fabPort p) 15 0) (drawWord d).1.toNat))
    (fun _ _ => rfl) (upPorts d) d
  unfold linkErrors
  dsimp only
  split <;> exact h

theorem rootTick_wf {d : Dev} (h : memWf d.mem) : OkWf (rootTick d) := by
  unfold rootTick
  dsimp only
  refine ensures_ite (ensures_ok.2 h) ?_
  refine ensures_ite_bind (retryAccesses_wf ?_) (ensures_ok.2 ?_) fun d h =>
    ensures_ite (ensures_ok.2 h) (Ensures.foldlM (fun _ _ h => wingEdge_wf h) _ d h)
  · simpa [apply_ite Dev.mem] using h
  · simpa [apply_ite Dev.mem] using h

@[simp] theorem droopTrip_mem (d : Dev) (g : Nat) (tripped : Bool) :
    (droopTrip d g tripped).mem = d.mem := by simp [droopTrip, apply_ite Dev.mem]

@[simp] theorem stretchDecay_mem (d : Dev) (w : Nat) : (stretchDecay d w).mem = d.mem := by simp [stretchDecay, apply_ite Dev.mem]

@[simp] theorem alertEvent_wf {d : Dev} {kind : Nat} {arg1 : W64} (h : memWf d.mem) :
    memWf (alertEvent d kind arg1).mem := by simp [alertEvent, h]

@[simp] theorem supplyAlertOn_wf {d : Dev} (h : memWf d.mem) : memWf (supplyAlertOn d).mem := by
  unfold supplyAlertOn
  split <;> simp [h]

@[simp] theorem supplyAlertOff_wf {d : Dev} (h : memWf d.mem) : memWf (supplyAlertOff d).mem := by
  unfold supplyAlertOff
  split <;> simp [h]

@[simp] theorem thermAlertOn_wf {d : Dev} (h : memWf d.mem) : memWf (thermAlertOn d).mem := by
  unfold thermAlertOn
  split <;> simp [h]

@[simp] theorem thermAlertOff_wf {d : Dev} (h : memWf d.mem) : memWf (thermAlertOff d).mem := by
  unfold thermAlertOff
  split <;> simp [h]

@[simp] theorem freezeStart_wf {d : Dev} {kind sub : Nat} {detail : W64} (h : memWf d.mem) : memWf (freezeStart d kind sub detail).mem := by
  unfold freezeStart
  dsimp only
  refine wf_of_mem (foldl_mem (fun d c => ?_) _ _) (ite_wf (supplyAlertOn_wf ?_) (thermAlertOn_wf ?_))
  · split <;> simp
  · simpa using h
  · simpa using h

theorem edgesStop_wf {d : Dev} (h : memWf d.mem) : OkWf (edgesStop d) := by
  unfold edgesStop
  refine ensures_ite (ensures_ok.2 h) ((Ensures.foldlM (fun _ _ h => settleNow_wf h) _ d h).bind fun s h => ?_)
  exact ensures_ite (ensures_pure.2 h) (ensures_pure.2 h)

@[simp] theorem freezeLift_wf {d : Dev} (h : memWf d.mem) : memWf (freezeLift d).mem := by
  unfold freezeLift
  dsimp only
  split
  · exact h
  · refine wf_of_mem (foldl_mem (fun d c => ?_) _ _) (alertEvent_wf (ite_then_wf thermAlertOff_wf (ite_then_wf supplyAlertOff_wf ?_)))
    · split <;> simp
    · simpa using h

@[simp] theorem countBand_mem (d : Dev) (hi lo : Nat) : (countBand d hi lo).mem = d.mem := rfl

@[simp] theorem supplyChange_wf {d : Dev} {mV pin : Nat} (h : memWf d.mem) : memWf (supplyChange d mV pin).mem := by
  simp only [supplyChange]
  (repeat' split) <;> simp [h]

@[simp] theorem bandExpiry_wf {d : Dev} (h : memWf d.mem) : memWf (bandExpiry d).mem := by
  unfold bandExpiry
  (repeat' split) <;> simp [h]

@[simp] theorem railLost_wf {d : Dev} {die : Nat} (h : memWf d.mem) : memWf (railLost d die).mem := by simp [railLost, h]

@[simp] theorem lockLost_wf {d : Dev} {die : Nat} (h : memWf d.mem) : memWf (lockLost d die).mem := by simp [lockLost, h]

@[simp] theorem powerOff_wf {d : Dev} (h : memWf d.mem) : memWf (powerOff d).mem := by simp [powerOff, h]

@[simp] theorem shutdown_wf {d : Dev} (h : memWf d.mem) : memWf (shutdown d).mem := by
  unfold shutdown
  split <;> simp [h]

@[simp] theorem powerOn_wf {d : Dev} (h : memWf d.mem) : memWf (powerOn d).mem := by
  unfold powerOn
  split <;> simp [h]

@[simp] theorem coldReset_wf {d : Dev} (h : memWf d.mem) : memWf (coldReset d).mem := by
  unfold coldReset
  split <;> simp [h]

@[simp] theorem assertReset_mem (d : Dev) : (assertReset d).mem = d.mem := by simp [assertReset, apply_ite Dev.mem]

@[simp] theorem throttle_wf {d : Dev} {w : Nat} (h : memWf d.mem) : memWf (throttle d w).mem := by
  simp only [throttle]
  (repeat' split) <;> simp [h]

@[simp] theorem gateCell_mem (d : Dev) (c : Nat) : (gateCell d c).mem = d.mem := by simp [gateCell, apply_ite Dev.mem]

@[simp] theorem ungateCell_mem (d : Dev) (c cause : Nat) : (ungateCell d c cause).mem = d.mem := by simp [ungateCell, apply_ite Dev.mem]

@[simp] theorem powerQuantum_wf {d : Dev} {p1 p10 : Nat} (h : memWf d.mem) : memWf (powerQuantum d p1 p10).mem := by
  unfold powerQuantum
  dsimp only
  split
  · exact h
  · refine wf_of_mem (foldl_mem (fun _ _ => foldl_mem (fun _ _ => gateCell_mem ..) _ _) _ _) ?_
    refine wf_of_mem (foldl_mem (fun _ _ => foldl_mem (fun _ _ => ungateCell_mem ..) _ _) _ _) ?_
    exact foldl_wf (fun _ _ h => throttle_wf h) _ _ (by simpa using h)

@[simp] theorem readDie_mem (first : Bool) (l : List Int) (d : Dev) (k : Nat) : (readDie first l d k).mem = d.mem := rfl

@[simp] theorem sensorRead_wf {d : Dev} {l : List Int} (h : memWf d.mem) : memWf (sensorRead d l).mem := by
  unfold sensorRead
  dsimp only
  have hr : memWf ((List.range 5).foldl (readDie (!d.pwr.sensed) l) d).mem := wf_of_mem (foldl_mem (fun _ _ => readDie_mem ..) _ d) h
  have ha (e : Dev) (he : memWf e.mem) :
      memWf (if 1600 ≤ maxReading l then thermAlertOn e else if rgf e pwrStat 1 1 = 1 then e else thermAlertOff e).mem :=
    ite_wf (thermAlertOn_wf he) (ite_wf he (thermAlertOff_wf he))
  split
  · exact ite_wf (ha _ hr) (freezeStart_wf (ha _ hr))
  · exact ha _ hr

/-! ### Security: security -/

@[simp] theorem secEnd_mem (d : Dev) (result : Nat) : (secEnd d result).mem = d.mem := rfl

@[simp] theorem attest_wf {d : Dev} (h : memWf d.mem) : memWf (attest d).mem := by
  simp only [attest]
  (repeat' split) <;> simp [h]

@[simp] theorem setFuses_mem (d : Dev) (f : Fuses) : (setFuses d f).mem = d.mem := by simp [setFuses]

@[simp] theorem doTransition_wf {d : Dev} {target burnt : Nat} (h : memWf d.mem) : memWf (doTransition d target burnt).mem := by
  simp only [doTransition]
  (repeat' split) <;> simp [h]

@[simp] theorem transition_wf {d : Dev} {burnt : Nat} (h : memWf d.mem) : memWf (transition d burnt).mem := by
  simp only [transition]
  (repeat' split) <;> simp [h]

@[simp] theorem provision_wf {d : Dev} {burnt : Nat} (h : memWf d.mem) : memWf (provision d burnt).mem := by
  unfold provision
  split
  · exact h
  · refine ite_wf (wf_of_mem (secEnd_mem ..) h) (ite_wf (wf_of_mem (secEnd_mem ..) h) ?_)
    refine ite_wf (coldOf_wf (wf_of_mem (secEnd_mem ..) (wf_of_mem (setFuses_mem ..) ?_))) (wf_of_mem (secEnd_mem ..) ?_) <;>
      refine ite_then_wf (wf_of_mem (setFuses_mem ..)) (ite_then_wf (wf_of_mem (setFuses_mem ..)) ?_) <;>
      split
    · exact h
    · exact wf_of_mem (drawScalar_mem _) h
    · exact h
    · exact wf_of_mem (drawScalar_mem _) h

@[simp] theorem debugUnlock_wf {d : Dev} {burnt : Bool} (h : memWf d.mem) : memWf (debugUnlock d burnt).mem := by
  unfold debugUnlock
  (repeat' split) <;> simp [h]

theorem mgmtReg_wf {d : Dev} {off : Nat} {v : W64} (h : memWf d.mem) : OkWf (mgmtReg d off v) := by
  unfold mgmtReg
  (repeat' split) <;> simp [busReg_wf, h]

theorem mgmtWrite_wf {d : Dev} {off : Nat} {bs : List Byte} (h : memWf d.mem) : OkWf (mgmtWrite d off bs) :=
  Ensures.foldlM (fun _ _ h => mgmtReg_wf h) _ d h

theorem mailboxWrite_wf {d : Dev} {op : Nat} {bus : Bool} (h : memWf d.mem) : OkWf (mailboxWrite d op bus) := by
  unfold mailboxWrite
  (repeat' split) <;> simp [linkWrite_wf, mgmtWrite_wf, h]

@[simp] theorem programPage_mem (d : Dev) (a : Nat) : (programPage d a).mem = d.mem := by simp [programPage, apply_ite Dev.mem]

@[simp] theorem mailboxEffect_mem (d : Dev) (op : Nat) (ok : Bool) : (mailboxEffect d op ok).mem = d.mem := by
  unfold mailboxEffect
  (repeat' split) <;> simp

@[simp] theorem mailboxDone_mem (d : Dev) (ok : Bool) : (mailboxDone d ok).mem = d.mem := by
  unfold mailboxDone
  (repeat' split) <;> simp

@[simp] theorem tapLoad_mem (d : Dev) (die : Nat) (o : TapOp) : (tapLoad d die o).mem = d.mem := by simp [tapLoad, apply_ite Dev.mem]

@[simp] theorem tapClear_mem (d : Dev) : (tapClear d).mem = d.mem := rfl

@[simp] theorem assignAddress_mem (d : Dev) (a : Nat) : (assignAddress d a).mem = d.mem := by simp [assignAddress, apply_ite Dev.mem]

/-! ### Act: the cell that acts -/

theorem cellEvent_wf {d : Dev} {c : Nat} {p : Micro → Bool} (h : memWf d.mem) : OkWf (cellEvent d c p) := by
  unfold cellEvent
  (repeat' split) <;> simp [settle_wf, h]

/-! ### The step -/

/-- The next state, if there is one, has memory in canonical form. -/
def NextWf (o : Host.Outcome State Fault Refusal) : Prop := ∀ t, o = .next t → memoryOk t

theorem nextWf_next {s : State} (h : memoryOk s) : NextWf (.next s) := by
  intro t e
  cases e
  exact h

theorem lift_wf {s : State} {r : Res Dev} (hr : OkWf r) : NextWf (lift s r) := by
  cases r with
  | ok d => exact nextWf_next (takeFaults_wf (hr d rfl))
  | error e => intro t ht; cases ht

theorem happen_wf {c : Instr} {can : Dev → Bool} {f : Dev → Res Dev} {s : State} (h : memoryOk s)
    (hf : ∀ d, memWf d.mem → OkWf (f d)) : NextWf (happen c can f s) := by
  unfold happen
  split
  · exact lift_wf (hf _ h)
  · exact nextWf_next h

theorem driverWrite_wf {c : Instr} {off : Nat} {v : W64} {s : State} (h : memoryOk s) :
    NextWf (driverWrite c off v s) :=
  happen_wf h fun _ h => linkWrite_wf h

/-- Every command keeps memory in canonical form, for the meaning it gives to the device does. -/
theorem exec_wf (c : Instr) {s : State} (h : memoryOk s) : NextWf (exec c s) := by
  unfold exec
  cases c
  all_goals dsimp only
  case crateWrite off v =>
    unfold execCrateWrite
    split
    · exact nextWf_next h
    · exact driverWrite_wf h
  case registerWrite | unitPortPush | upReset | faultSumClear | holdCounterWrite | traceFunnelWrite | commandRingEnable | doorbell
      | crateDiscard | ledgerUpdate | faultLogClear | traceStreamEnable | counterClear | counterFreeze => exact driverWrite_wf h
  case plinthReady | fwdPendingStart | backwardBufferReady | pairScan | bwdPendingStart | vsolveComplete | converterDone | drainPathDone
      | dwPathDone | transcendentalPipeFree => exact happen_wf h fun _ h => cellEvent_wf h
  case bundleIssue => exact happen_wf h fun _ h => bundleIssue_wf h
  case dwaccComplete => exact happen_wf h fun _ h => dwaccComplete_wf h
  case dmaTake => exact happen_wf h fun _ h => dmaTake_wf h
  case dmaPieceTransfer => exact happen_wf h fun _ h => pieceTransfer_wf h
  case dmaComplete => exact happen_wf h fun _ h => dmaComplete_wf h
  case launch | abandon | commandTake => exact happen_wf h fun _ h => commandTake_wf h
  case abandonComplete => exact happen_wf h fun _ h => (abandonComplete_wf h).map fun _ h => abandonPoll_wf h
  case ringHandover => exact happen_wf h fun _ h => ringHandover_wf h
  case ringDeliver => exact happen_wf h fun _ h => ringDeliver_wf h
  case fabTransferTake k =>
    cases k with
    | none => exact happen_wf h fun _ h => takeXfer_wf h
    | some k => exact happen_wf h fun _ h => sendPiece_wf h
  case fabDataReceive => exact happen_wf h fun _ h => dataReceive_wf h
  case relayRequestReceive => exact happen_wf h fun _ h => relayRequest_wf h
  case relayReplyReceive => exact happen_wf h fun _ h => relayReply_wf h
  case hostWindowAccess => exact happen_wf h fun _ h => windowAccess_wf h
  case progloadComplete => exact happen_wf h fun _ h => progloadComplete_wf h
  case copyComplete => exact happen_wf h fun _ h => copyComplete_wf h
  case freezeEdgesStop => exact happen_wf h fun _ h => edgesStop_wf h
  case mgmtBusWrite => exact happen_wf h fun _ h => mgmtWrite_wf h
  case flashErase | flashProgram | flashRead => exact happen_wf h fun _ h => mailboxWrite_wf h
  all_goals exact happen_wf h fun _ h => by simp [h]

/-- Settles O6: the device of the next state is what a command, or a tick of the root clock, makes of the present one, and both keep
memory in canonical form. -/
theorem memoryStaysCanonical : Obligations.MemoryStaysCanonical := by
  unfold Obligations.MemoryStaysCanonical
  intro s t h e
  cases hp : s.pending with
  | nil => exact lift_wf (rootTick_wf h) t (by simpa [step, hp] using e)
  | cons c rest => exact exec_wf c (s := { s with pending := rest }) h t (by simpa [step, hp] using e)

end Sys2Proof.Machine
end

section
/-! SUPPORT. Writes of registers by their access codes (R14, R466), and the clearing of fault summaries (R15, R45). -/

namespace Sys2Proof.Machine
open Sys2Proof.Safety

/-! ### Register writes -/

/-- A register outside the frames of the unit ports, with no staged bits and no rule of its own, is written by its access codes. -/
theorem writeReg_byCode {d : Dev} {off : Nat} {v : W64} {r : RegRow} (free : lockw d = false) (hr : regAt off = some r) (plain : r.st = 0)
    (out : off < 0x200_0000 ∨ 0x240_0000 ≤ off) (own : writeOwn d .link off v = none) : writeReg d .link off v = .ok (writeByCode d off r v) := by
  have frame : ¬(0x200_0000 ≤ off ∧ off < 0x240_0000) := by omega
  simp [writeReg, free, hr, plain, frame, own]

/-- A write of a reserved offset, or before READY, is counted and has no other effect. -/
theorem linkWrite_invalid {d : Dev} {off : Nat} {v : W64} (h : ((regAt off).isNone || (!isReady d && off != 0)) = true) :
    linkWrite d off v = .ok (countInvalid d) := by
  rw [linkWrite, if_pos h]

/-- A write at offset `o` of the frame of port `p`, other than of the staged LIMIT, is the frame's. -/
theorem writeReg_frame {d : Dev} {p o : Nat} {v : W64} (free : lockw d = false) (hr : (regAt (upReg p o)).isSome) (hp : okPort p = true)
    (ho : o < 0x1000) (ne : o ≠ 0x38) : writeReg d .link (upReg p o) v = .ok (writeFrame d p o v) := by
  have lt : p < 1024 := by simpa [okPort] using hp
  obtain ⟨r, hr⟩ := Option.isSome_iff_exists.1 hr
  have frame : 0x200_0000 ≤ upReg p o ∧ upReg p o < 0x240_0000 := by unfold upReg; omega
  have port : (upReg p o - 0x200_0000) / 0x1000 = p := by unfold upReg; omega
  have offset : upReg p o % 0x1000 = o := by unfold upReg; omega
  simp [writeReg, free, hr, frame, port, offset, ne]

theorem exec_registerWrite (off : Nat) (v : W64) (s : State) : exec (.registerWrite off v) s = driverWrite (.registerWrite off v) off v s := rfl

/-- Settles O9: such a write reaches the last branch of `writeReg`, which is the rule of the access codes; a write that finds no register
open to it does not reach `writeReg`. -/
theorem registerWriteFollowsAccessCodes : Obligations.RegisterWriteFollowsAccessCodes := by
  unfold Obligations.RegisterWriteFollowsAccessCodes
  intro s off v
  refine ⟨fun r w hr plain out own => ?_, fun reach calm ok bad => ?_⟩
  · have ⟨_, calm, _, free, ok, _, _⟩ := w
    exact (exec_registerWrite off v s).trans (driverWrite_ok ok w (writeReg_byCode free hr plain out own) calm)
  · exact (exec_registerWrite off v s).trans (happen_ok ok reach (linkWrite_invalid bad) calm)

/-! ### Fault summaries -/

/-- A port whose fault bits `bits` have been cleared, but for the bits `new` that events of the present NCLK have set (R15). -/
def cleared (bits new : Nat) (x : Port) : Port := { x with own := x.own &&& ((2 ^ 64 - 1) ^^^ (bits &&& ((2 ^ 64 - 1) ^^^ new))) }

/-- To clear the same bits again changes nothing. -/
theorem cleared_cleared (bits new : Nat) (x : Port) : cleared bits new (cleared bits new x) = cleared bits new x := by
  simp [cleared]

/-- What `clearFaults` does at one port of the subtree. -/
def clearPort (bits : Nat) (d : Dev) (q : Nat) : Dev :=
  let b := bits &&& ((2 ^ 64 - 1) ^^^ newBits d q)
  let d := modPort d q (cleared bits (newBits d q))
  if bitAt b 4 && isCell q then modCell d (q - 64) fun x => { x with ill := none } else d

theorem clearFaults_eq_foldl (d : Dev) (p bits : Nat) : clearFaults d p bits = (subtree d p).foldl (clearPort bits) d := rfl

@[simp] theorem clearPort_raised (bits : Nat) (d : Dev) (q : Nat) : (clearPort bits d q).raised = d.raised := by
  unfold clearPort
  dsimp only
  split <;> rfl

@[simp] theorem portOf_clearPort (bits : Nat) (d : Dev) (q u : Nat) :
    portOf (clearPort bits d q) u = if u = q then cleared bits (newBits d q) (portOf d q) else portOf d u := by
  unfold clearPort
  dsimp only
  split
  · exact portOf_modPort ..
  · exact portOf_modPort ..

@[simp] theorem portNclk_clearPort (bits : Nat) (d : Dev) (q u : Nat) : portNclk (clearPort bits d q) u = portNclk d u := by
  unfold clearPort
  dsimp only
  split <;> rfl

/-- Clearing leaves what the events of the present NCLK have set on record. -/
@[simp] theorem newBits_clearPort (bits : Nat) (d : Dev) (q u : Nat) : newBits (clearPort bits d q) u = newBits d u := by
  have same : (portOf (clearPort bits d q) u).news = (portOf d u).news := by
    rw [portOf_clearPort]
    split
    · next e => rw [e]; rfl
    · rfl
  simp only [newBits, same, portNclk_clearPort]

/-- Each port listed is cleared, however often it is listed, and no other. -/
theorem portOf_foldl_clearPort (bits : Nat) : ∀ (l : List Nat) (d : Dev) (u : Nat),
    portOf (l.foldl (clearPort bits) d) u = if u ∈ l then cleared bits (newBits d u) (portOf d u) else portOf d u
  | [], _, _ => by simp
  | a :: t, d, u => by
    rw [List.foldl_cons, portOf_foldl_clearPort bits t, newBits_clearPort, portOf_clearPort]
    by_cases e : u = a
    · subst e
      simp [cleared_cleared]
    · simp [e]

theorem portOf_clearFaults (d : Dev) (p bits u : Nat) :
    portOf (clearFaults d p bits) u = if u ∈ subtree d p then cleared bits (newBits d u) (portOf d u) else portOf d u := by
  rw [clearFaults_eq_foldl, portOf_foldl_clearPort]

@[simp] theorem clearFaults_raised (d : Dev) (p bits : Nat) : (clearFaults d p bits).raised = d.raised := by
  rw [clearFaults_eq_foldl, foldl_frame (·.raised) _ (clearPort_raised bits)]

@[simp] theorem clearSummary_raised (d : Dev) (p bits : Nat) : (clearSummary d p bits).raised = d.raised := by
  unfold clearSummary
  dsimp only
  split <;> exact clearFaults_raised ..

theorem portOf_clearSummary (d : Dev) (p bits u : Nat) : portOf (clearSummary d p bits) u =
    if u ∈ subtree d p then cleared (bits % 2 ^ 11) (newBits d u) (portOf d u) else portOf d u := by
  unfold clearSummary
  dsimp only
  split <;> exact portOf_clearFaults ..

/-- A write of UP_FAULT_SUM at a port in service. -/
theorem writeReg_faultSum {d : Dev} {p : Nat} {v : W64} (free : lockw d = false) (hr : (regAt (upReg p 0x20)).isSome) (hp : okPort p = true)
    (up : portUp d p = true) : writeReg d .link (upReg p 0x20) v = .ok (clearSummary d p v.toNat) := by
  rw [writeReg_frame free hr hp (by decide) (by decide)]
  simp [writeFrame, writeFaultSum, up]

/-- FCLR at the head of the queue of a port in service. -/
theorem portFclr_head {d : Dev} {p : Nat} {e : PortCmd} (runs : clocked d = true) (up : portUp d p = true) (head : headCmd d p = some e)
    (op : cmdOp e.cmd = 7) : portFclr d p = complete (clearSummary d p (cmdArg e.cmd % 2 ^ 16)) p e.id := by
  simp [portFclr, clocked_halted runs, headOp, head, op, up]

theorem exec_faultSumClear (p : Nat) (v : W64) (s : State) :
    exec (.faultSumClear p v) s = driverWrite (.faultSumClear p v) (upReg p 0x20) v s := rfl

theorem exec_fclr (p : Nat) (s : State) : exec (.fclr p) s = happen (.fclr p) clocked (fun d => .ok (portFclr d p)) s := rfl

/-- Settles O14: both ways lead to `clearSummary`, which goes through the subtree port by port; a port that the subtree lists twice is
cleared of the same bits twice. -/
theorem faultSummariesClear : Obligations.FaultSummariesClear := by
  unfold Obligations.FaultSummariesClear
  intro s p
  refine ⟨fun v up w hp => ?_, fun e ⟨runs, calm, hp, up, head, op⟩ => ?_⟩
  · have ⟨_, calm, _, free, _, hr, _⟩ := w
    rw [exec_faultSumClear]
    refine ⟨_, driverWrite_ok hp w (writeReg_faultSum free hr hp up) (by simpa using calm), clearSummary_mem .., fun q hq => ?_, fun q hq => ?_⟩
    · rw [portOf_clearSummary, if_pos hq]
      rfl
    · rw [portOf_clearSummary, if_neg hq]
  · have calm' : (complete (clearSummary s.dev p (cmdArg e.cmd % 2 ^ 16)) p e.id).raised = [] := by simpa using calm
    exact (exec_fclr p s).trans (happen_ok hp runs (congrArg _ (portFclr_head runs up head op)) calm')

end Sys2Proof.Machine
end

section
/-! SUPPORT. The unit tree (01_unit_tree.md): the commands at the head of a port's queue (R30–R33), the driver's writes of a port's frame
(R31, R38, R47–R49), fan-out (R33), and the unit reset of a cell (R49–R51). -/

namespace Sys2Proof.Machine
open Sys2Proof.Safety

/-! ### How these commands act -/

theorem exec_unitPortNop (p : Nat) (s : State) : exec (.unitPortNop p) s = happen (.unitPortNop p) clocked (fun d => .ok (portNop d p)) s := rfl
theorem exec_hset (p : Nat) (s : State) : exec (.hset p) s = happen (.hset p) clocked (fun d => .ok (portHset d p)) s := rfl
theorem exec_hinc (p : Nat) (s : State) : exec (.hinc p) s = happen (.hinc p) clocked (fun d => .ok (portHinc d p)) s := rfl
theorem exec_hwait (p : Nat) (s : State) : exec (.hwait p) s = happen (.hwait p) clocked (fun d => .ok (portHwait d p)) s := rfl
theorem exec_stop (p : Nat) (s : State) : exec (.stop p) s = happen (.stop p) clocked (fun d => .ok (portStop d p)) s := rfl
theorem exec_start (p : Nat) (s : State) : exec (.start p) s = happen (.start p) clocked (fun d => .ok (portStart d p)) s := rfl
theorem exec_unitPortReset (p : Nat) (s : State) :
    exec (.unitPortReset p) s = happen (.unitPortReset p) clocked (fun d => .ok (portReset_ d p)) s := rfl
theorem exec_commandFanOut (p : Nat) (s : State) : exec (.commandFanOut p) s = happen (.commandFanOut p) clocked (fun d => .ok (fanOut d p)) s := rfl
theorem exec_unitResetWipeDone (p : Nat) (s : State) :
    exec (.unitResetWipeDone p) s = happen (.unitResetWipeDone p) running (fun d => .ok (unitWipeDone d p)) s := rfl
theorem exec_unitPortPush (p : Nat) (w : W64) (s : State) :
    exec (.unitPortPush p w) s = driverWrite (.unitPortPush p w) (upReg p 0x10) w s := rfl
theorem exec_traceFunnelWrite (p : Nat) (v : W64) (s : State) :
    exec (.traceFunnelWrite p v) s = driverWrite (.traceFunnelWrite p v) (upReg p 0x28) v s := rfl
theorem exec_upReset (p : Nat) (v : W64) (s : State) : exec (.upReset p v) s = driverWrite (.upReset p v) (upReg p 0x30) v s := rfl
theorem exec_holdCounterWrite (p i : Nat) (v : W64) (s : State) :
    exec (.holdCounterWrite p i v) s = driverWrite (.holdCounterWrite p i v) (upReg p (0x100 + 8 * i)) v s := rfl

/-- A command whose event can happen, and whose effect asks for no fault. -/
theorem happen_yields {c : Instr} {can : Dev → Bool} {f : Dev → Dev} {s : State} {d : Dev} (ex : exec c s = happen c can (fun d => .ok (f d)) s)
    (wf : c.wf = true) (may : can s.dev = true) (calm : s.dev.raised = []) (eff : f s.dev = d) (keeps : d.raised = s.dev.raised) : Yields c s d :=
  ex.trans (happen_ok wf may (congrArg _ eff) (keeps.trans calm))

/-- A driver's write in the frame of a port, other than of the staged LIMIT, whose effect asks for no fault. -/
theorem frameWrite_yields {c : Instr} {p o : Nat} {v : W64} {s : State} {d : Dev} (ex : exec c s = driverWrite c (upReg p o) v s)
    (wf : c.wf = true) (hp : okPort p = true) (w : Writable s (upReg p o)) (ho : o < 0x1000) (ne : o ≠ 0x38)
    (eff : writeFrame s.dev p o v = d) (keeps : d.raised = s.dev.raised) : Yields c s d := by
  have ⟨_, calm, _, free, _, hr, _⟩ := w
  exact ex.trans (driverWrite_ok wf w ((writeReg_frame free hr hp ho ne).trans (congrArg _ eff)) (keeps.trans calm))

/-! ### Commands at the head of a cell's queue -/

theorem headOp_of_headOf {s : State} {p op : Nat} {e : PortCmd} (h : HeadOf s p op e) : headOp s.dev p op = some e := by
  obtain ⟨_, _, _, up, head, hop⟩ := h
  simp [headOp, head, hop, up]

theorem halted_of_headOf {s : State} {p op : Nat} {e : PortCmd} (h : HeadOf s p op e) : halted s.dev = false := clocked_halted h.1

/-- A command for the head of a port's queue, found there, whose effect asks for no fault. -/
theorem head_yields {c : Instr} {f : Dev → Dev} {s : State} {p op : Nat} {e : PortCmd} {d : Dev} (h : HeadOf s p op e)
    (ex : exec c s = happen c clocked (fun d => .ok (f d)) s) (wf : c.wf = okPort p) (eff : f s.dev = d) (keeps : d.raised = s.dev.raised) :
    Yields c s d := by
  obtain ⟨runs, calm, hp, _⟩ := h
  exact happen_yields ex (wf.trans hp) runs calm eff keeps

section CellHead
variable {d : Dev} {p : Nat} {e : PortCmd} (cell : isCell p = true) (runs : halted d = false)
include cell runs

theorem portNop_head (h : headOp d p 0 = some e) : portNop d p = complete d p e.id := by
  simp [portNop, cell, runs, h]

theorem portHset_head (h : headOp d p 3 = some e) : portHset d p =
    complete (modCell d (p - 64) fun x => holdStart x (cmdH e.cmd) 0 (cmdArg e.cmd % 2 ^ 32) fun _ => false) p e.id := by
  simp [portHset, cell, runs, h]

theorem portHinc_head (h : headOp d p 4 = some e) : portHinc d p =
    complete (modCell d (p - 64) fun x => holdCredit x { h := cmdH e.cmd, n := cmdArg e.cmd % 2 ^ 32, know := e.know, nclk := none }) p e.id := by
  simp [portHinc, cell, runs, h]

theorem portHwait_head (h : headOp d p 5 = some e) : portHwait d p =
    if holdDone (cellOf d (p - 64)) (cmdH e.cmd) then complete d p e.id else d := by
  simp [portHwait, cell, runs, h]

theorem portStop_head (h : headOp d p 2 = some e) : portStop d p =
    complete (if docentRuns d (p - 64) then flushRun (stopDocent d (p - 64)) (p - 64) else d) p e.id := by
  simp [portStop, cell, runs, h]

theorem portStart_head (h : headOp d p 1 = some e) (thawed : d.pwr.freeze = none) (new : e.begun = false) (stopped : docentRuns d (p - 64) = false) :
    portStart d p = startDocent
      (modPort d p fun x => { x with q := x.q.map fun u => if u.id == e.id then { u with begun := true } else u }) (p - 64) (cmdArg e.cmd) := by
  simp [portStart, cell, runs, h, thawed, new, stopped]
end CellHead

/-- Settles O10: each of the four finds its entry at the head, and completion asks for no fault. -/
theorem cellCounterCommandsComplete : Obligations.CellCounterCommandsComplete := by
  unfold Obligations.CellCounterCommandsComplete
  intro s p e cell
  refine ⟨fun h => ?nop, fun h => ?hset, fun h => ?hinc, fun h => ?hwait⟩
  case nop => exact head_yields h (exec_unitPortNop p s) rfl (portNop_head cell (halted_of_headOf h) (headOp_of_headOf h)) (by simp)
  case hset => exact head_yields h (exec_hset p s) rfl (portHset_head cell (halted_of_headOf h) (headOp_of_headOf h)) (by simp)
  case hinc => exact head_yields h (exec_hinc p s) rfl (portHinc_head cell (halted_of_headOf h) (headOp_of_headOf h)) (by simp)
  case hwait => exact head_yields h (exec_hwait p s) rfl (portHwait_head cell (halted_of_headOf h) (headOp_of_headOf h)) (by split <;> simp)

/-! ### START and STOP -/

@[simp] theorem thawCell_raised (d : Dev) (c : Nat) : (thawCell d c).raised = d.raised := by
  unfold thawCell
  split <;> rfl

@[simp] theorem stopDocent_raised (d : Dev) (c : Nat) : (stopDocent d c).raised = d.raised := by
  unfold stopDocent
  split
  · rfl
  · simp

@[simp] theorem thawCell_trun (d : Dev) (c : Nat) : (cellOf (thawCell d c) c).trun = (cellOf d c).trun := by
  unfold thawCell
  split <;> simp

@[simp] theorem stopDocent_trun (d : Dev) (c : Nat) : (cellOf (stopDocent d c) c).trun = (cellOf d c).trun := by
  unfold stopDocent
  split <;> simp [stopCell]

/-- The cell of a docent that begins at bundle `addr`, when the cell stands at edge `e` (R32, R253). -/
def begunCell (e addr : Nat) (x : Cell) : Cell :=
  { x with running := true, started := true, loops := [], redirects := [], pc := addr % 4096, visiting := false, wait := none
           nextEdge := max (if x.frozen.isSome then e + 1 else e) x.nextEdge }

/-- A record of a cell whose funnel is off, with no run open, is not written. -/
theorem addTimed_off {d : Dev} {c type why cyc : Nat} (off : (cellOf d c).traceOn = false) (idle : (cellOf d c).trun = none) :
    addTimed d c type why cyc = d := by
  simp [addTimed, addRec, emitRec, off, idle]

/-- START changes the cell alone where nothing is traced. -/
theorem startDocent_off {d : Dev} {c addr : Nat} (off : (cellOf d c).traceOn = false) (idle : (cellOf d c).trun = none) :
    startDocent d c addr = modCell d c (begunCell (cellEdge d c) addr) := by
  have eq : startDocent d c addr = addTimed (modCell (flushRun d c) c (begunCell (cellEdge (flushRun d c) c) addr)) c 7 0
      (cellOf (modCell (flushRun d c) c (begunCell (cellEdge (flushRun d c) c) addr)) c).nextEdge := rfl
  rw [eq, flushRun_none idle, addTimed_off] <;> simp [begunCell, off, idle]

/-- Settles O12: with no run open STOP flushes nothing, and with the funnel off START writes no record. -/
theorem startAndStop : Obligations.StartAndStop := by
  unfold Obligations.StartAndStop
  intro s p e cell
  refine ⟨fun h ⟨_, idle⟩ => ?stop, fun ⟨h, _, new, stopped, thawed, off, idle⟩ => ?start⟩
  case stop =>
    have eff := portStop_head cell (halted_of_headOf h) (headOp_of_headOf h)
    rw [flushRun_none (by simpa using idle)] at eff
    exact head_yields h (exec_stop p s) rfl eff (by split <;> simp)
  case start =>
    have eff := portStart_head cell (halted_of_headOf h) (headOp_of_headOf h) thawed new stopped
    exact head_yields h (exec_start p s) rfl (eff.trans (startDocent_off off idle)) rfl

/-! ### The driver's push, and fan-out -/

@[simp] theorem enqueue_raised (d : Dev) (p : Nat) (w : W64) (parent : Option (Nat × Nat)) (know : List Nat) :
    (enqueue d p w parent know).raised = d.raised := rfl

@[simp] theorem refuse_raised (d : Dev) (p : Nat) : (refuse d p).raised = d.raised := rfl

/-- What the driver's push does (R31, R34, R527). -/
theorem driverPush_eq (d : Dev) (p : Nat) (w : W64) :
    driverPush d p w = if pushRefused d p w then refuse d p else enqueue d p w none (d.ended.map (·.id)) := by
  simp only [driverPush, pushCmd, pushFrom]
  split <;> rfl

theorem writeFrame_push (d : Dev) (p : Nat) (w : W64) : writeFrame d p 0x10 w = driverPush d p w := by
  simp [writeFrame]

/-- Settles O15: UP_CMD_PUSH is the driver's push, which either refuses the command or enters it. -/
theorem pushEntersOrIsRefused : Obligations.PushEntersOrIsRefused := by
  unfold Obligations.PushEntersOrIsRefused
  intro s p w hp wr
  have eff := (writeFrame_push s.dev p w).trans (driverPush_eq s.dev p w)
  refine ⟨fun accepted => ?_, fun refused => ?_⟩
  · rw [accepted] at eff
    exact frameWrite_yields (exec_unitPortPush p w s) hp hp wr (by decide) (by decide) eff (enqueue_raised ..)
  · rw [refused] at eff
    exact frameWrite_yields (exec_unitPortPush p w s) hp hp wr (by decide) (by decide) eff (refuse_raised ..)

/-- What fan-out does with the head of a port other than a cell's (R33). -/
theorem fanOut_head {d : Dev} {p : Nat} {e : PortCmd} (other : isCell p = false) (up : portUp d p = true) (head : headCmd d p = some e)
    (first : e.out = none) (fans : fansOut (cmdOp e.cmd) = true) :
    fanOut d p =
      if (members d p).any fun q => queueFull d q || resetting d q then d
      else if (members d p).isEmpty then complete d p e.id
      else (members d p).foldl (fun d q => enqueue d q e.cmd (some (p, e.id)) e.know)
        (modPort d p fun x => { x with q := x.q.map fun u => if u.id == e.id then { u with out := some (members d p).length } else u }) := by
  simp [fanOut, head, other, up, first, fans]

/-- Settles O16: fan-out waits, completes or copies, as the members have room, and copying asks for no fault. -/
theorem fanOutCopiesToEveryMember : Obligations.FanOutCopiesToEveryMember := by
  unfold Obligations.FanOutCopiesToEveryMember
  intro s p e ⟨runs, calm, hp, up, other, head, first, fans⟩
  have eff := fanOut_head other up head first fans
  refine ⟨fun full => ?_, fun room empty => ?_, fun room inhabited => ?_⟩
  · rw [if_pos full] at eff
    exact happen_yields (exec_commandFanOut p s) hp runs calm eff rfl
  · rw [if_neg (by simp [room]), if_pos (by simp [empty])] at eff
    exact happen_yields (exec_commandFanOut p s) hp runs calm eff (by simp)
  · rw [if_neg (by simp [room]), if_neg (by simpa using inhabited)] at eff
    exact happen_yields (exec_commandFanOut p s) hp runs calm eff (foldl_frame (·.raised) _ (fun d q => enqueue_raised d q ..) _ _)

/-! ### Writes of UP_HOLD and UP_TRACE -/

theorem writeFrame_hold {d : Dev} {p i : Nat} (v : W64) (up : portUp d p = true) (hi : i < 32) :
    writeFrame d p (0x100 + 8 * i) v = writeHold d p i v := by
  have not10 : 0x100 + 8 * i ≠ 0x10 := by omega
  have not8 : 0x100 + 8 * i ≠ 8 := by omega
  have not20 : 0x100 + 8 * i ≠ 0x20 := by omega
  have not28 : 0x100 + 8 * i ≠ 0x28 := by omega
  have not30 : 0x100 + 8 * i ≠ 0x30 := by omega
  have inside : 0x100 ≤ 0x100 + 8 * i ∧ 0x100 + 8 * i < 0x200 := by omega
  have index : (0x100 + 8 * i - 0x100) / 8 = i := by omega
  simp only [writeFrame, up, Bool.not_true, Bool.false_eq_true, if_false, if_pos inside, if_neg not10, if_neg not8, if_neg not20, if_neg not28,
    if_neg not30, index]

theorem writeFrame_trace {d : Dev} {p : Nat} (v : W64) (up : portUp d p = true) : writeFrame d p 0x28 v = writeTrace d p v := by
  simp [writeFrame, up]

/-- A funnel that is as its chain has it stays as it is. -/
theorem updateFunnel_same {d : Dev} {c : Nat} (h : funnelOn d c = (cellOf d c).traceOn) : updateFunnel d c = d := by
  simp [updateFunnel, h]

theorem updateFunnels_same {d : Dev} {p : Nat} (h : ∀ c ∈ cellsUnder d p, funnelOn d c = (cellOf d c).traceOn) : updateFunnels d p = d :=
  List.foldlRecOn (motive := (· = d)) _ updateFunnel rfl fun e same c hc => by subst same; exact updateFunnel_same (h c hc)

@[simp] theorem portUp_putRg (d : Dev) (o : Nat) (v : W64) (p : Nat) : portUp (putRg d o v) p = portUp d p := rfl
@[simp] theorem members_putRg (d : Dev) (o : Nat) (v : W64) (p : Nat) : members (putRg d o v) p = members d p := rfl
@[simp] theorem cellOf_putRg (d : Dev) (o : Nat) (v : W64) (c : Nat) : cellOf (putRg d o v) c = cellOf d c := rfl

@[simp] theorem subtreeN_putRg (d : Dev) (o : Nat) (v : W64) : ∀ n p, subtreeN n (putRg d o v) p = subtreeN n d p
  | 0, _ => rfl
  | n + 1, p => by simp [subtreeN, funext (subtreeN_putRg d o v n)]

/-- No register decides which cells lie below a port. -/
@[simp] theorem cellsUnder_putRg (d : Dev) (o : Nat) (v : W64) (p : Nat) : cellsUnder (putRg d o v) p = cellsUnder d p := by
  simp [cellsUnder, subtree]

/-- A write of UP_TRACE that turns no funnel on or off, where no run is open. -/
theorem writeTrace_same {d : Dev} {p : Nat} {v : W64} (up : portUp d p = true) (idle : isCell p = true → (cellOf d (p - 64)).trun = none)
    (same : ∀ c ∈ cellsUnder d p, funnelOn (putRg d (upReg p 0x28) (v &&& 7)) c = (cellOf d c).traceOn) :
    writeTrace d p v = putRg d (upReg p 0x28) (v &&& 7) := by
  have flush : (if isCell p then flushRun d (p - 64) else d) = d := by
    split
    · next cell => exact flushRun_none (idle cell)
    · rfl
  have kept : updateFunnels (putRg d (upReg p 0x28) (v &&& 7)) p = putRg d (upReg p 0x28) (v &&& 7) := updateFunnels_same (by simpa using same)
  simpa only [writeTrace, up, flush, Bool.not_true, Bool.false_eq_true, if_false] using kept

/-- Settles O17: UP_HOLD has a rule at a cell alone; UP_TRACE is written, and the funnels are found as they should be. -/
theorem holdAndTraceWrites : Obligations.HoldAndTraceWrites := by
  unfold Obligations.HoldAndTraceWrites
  intro s p v hp up
  refine ⟨fun i hi wr => ?_, fun wr idle same => ?_⟩
  · refine frameWrite_yields (exec_holdCounterWrite p i v s) (by simp [Instr.wf, hp, hi]) hp wr (by omega) (by omega) ?_ (by split <;> rfl)
    rw [writeFrame_hold v up hi, writeHold]
    simp [up, hi]
  · exact frameWrite_yields (exec_traceFunnelWrite p v s) hp hp wr (by decide) (by decide) ((writeFrame_trace v up).trans (writeTrace_same up idle same)) rfl

/-! ### Unit reset of a cell -/

@[simp] theorem complete_ended (d : Dev) (p i : Nat) : (complete d p i).ended = d.ended := completeN_frame (·.ended) (fun _ _ _ => rfl) _ _ _ _
@[simp] theorem complete_dump (d : Dev) (p i : Nat) : (complete d p i).dump = d.dump := completeN_frame (·.dump) (fun _ _ _ => rfl) _ _ _ _
@[simp] theorem portUp_complete (d : Dev) (p i q : Nat) : portUp (complete d p i) q = portUp d q :=
  completeN_frame (portUp · q) (fun _ _ _ => rfl) _ _ _ _
@[simp] theorem inReset_complete (d : Dev) (p i : Nat) : inReset (complete d p i) = inReset d := completeN_frame inReset (fun _ _ _ => rfl) _ _ _ _
@[simp] theorem stState_complete (d : Dev) (p i : Nat) : stState (complete d p i) = stState d := completeN_frame stState (fun _ _ _ => rfl) _ _ _ _
@[simp] theorem cellOf_complete (d : Dev) (p i c : Nat) : cellOf (complete d p i) c = cellOf d c :=
  completeN_frame (cellOf · c) (fun _ _ _ => rfl) _ _ _ _
@[simp] theorem wingOf_complete (d : Dev) (p i w : Nat) : wingOf (complete d p i) w = wingOf d w :=
  completeN_frame (wingOf · w) (fun _ _ _ => rfl) _ _ _ _
@[simp] theorem rdB_complete (d : Dev) (p i a : Nat) : rdB (complete d p i) a = rdB d a := completeN_frame (rdB · a) (fun _ _ _ => rfl) _ _ _ _

/-- Emptying queues touches nothing but the ports. -/
theorem emptyQueues_frame {β : Type} (F : Dev → β) (hf : ∀ d q (f : Port → Port), F (modPort d q f) = F d) (d : Dev) (ps : List Nat) :
    F (emptyQueues d ps) = F d := by
  refine (foldl_frame F _ (fun d p => ?_) _ _).trans (foldl_frame F _ (fun d p => ?_) _ _)
  · split
    · rfl
    · exact hf ..
  · exact foldl_frame F _ (fun d (e : PortCmd) => completeN_frame F hf 32 d p e.id) _ d

/-- The one queue that is emptied is empty. -/
theorem emptyQueues_singleton_q (d : Dev) (p : Nat) : (portOf (emptyQueues d [p]) p).q = [] := by
  simp only [emptyQueues, List.foldl_cons, List.foldl_nil]
  split
  · next h => simpa using h
  · simp

theorem portKind_of_isCell {p : Nat} (cell : isCell p = true) : portKind p = some .cell := by
  simpa [isCell] using cell

theorem okPort_of_isCell {p : Nat} (cell : isCell p = true) : okPort p = true := by
  by_contra out
  have reserved : portKind p = none := by
    have : 1024 ≤ p := by simpa [okPort] using out
    simp only [portKind]
    repeat rw [if_neg (by omega)]
  exact absurd (portKind_of_isCell cell) (by simp [reserved])

/-- A cell's port has no members: it is its own subtree. -/
theorem subtree_cell (d : Dev) {p : Nat} (cell : isCell p = true) : subtree d p = [p] := by
  simp [subtree, subtreeN, members, portKind_of_isCell cell]

theorem cellsUnder_cell {d : Dev} {p : Nat} (cell : isCell p = true) (up : portUp d p = true) : cellsUnder d p = [p - 64] := by
  simp [cellsUnder, subtree_cell d cell, cell, up]

/-- What the unit reset of the cell at port `p` makes of the device `d` (R50): the queue of the port, the cell, and its stores. -/
def CellReset (p : Nat) (d e : Dev) : Prop :=
  (portOf e p).wiping = true ∧ (portOf e p).q = [] ∧ e.reg = d.reg ∧
  cellOf e (p - 64) = unitResetCell (wingOf d (wingOfCell (p - 64))).edges (d.ended.map (·.id)) (cellOf d (p - 64)) ∧
  (∀ c, c ≠ p - 64 → cellOf e c = cellOf d c) ∧
  ∀ a, rdB e a = if inStores [p - 64] [] a then 0 else rdB d a

/-- A command that completes beforehand changes nothing that the unit reset of a cell looks at. -/
theorem cellReset_complete {p q i : Nat} {d e : Dev} : CellReset p (complete d q i) e ↔ CellReset p d e := by
  simp [CellReset]

/-- The transfers of the galleries count at no hold counter of the cells named any more. -/
def dropHolds (cells : List Nat) (d : Dev) : Dev :=
  { d with gals := d.gals.map fun g => (g.1, { g.2 with xs := g.2.xs.map fun x => if cells.contains x.cell then { x with h := none } else x }) }

section dropHolds
variable (cells : List Nat) (d : Dev)
@[simp] theorem dropHolds_mem : (dropHolds cells d).mem = d.mem := rfl
@[simp] theorem dropHolds_reg : (dropHolds cells d).reg = d.reg := rfl
@[simp] theorem dropHolds_raised : (dropHolds cells d).raised = d.raised := rfl
@[simp] theorem cellOf_dropHolds (c : Nat) : cellOf (dropHolds cells d) c = cellOf d c := rfl
@[simp] theorem portOf_dropHolds (p : Nat) : portOf (dropHolds cells d) p = portOf d p := rfl
end dropHolds

@[simp] theorem cellOf_modPort (d : Dev) (p : Nat) (f : Port → Port) (c : Nat) : cellOf (modPort d p f) c = cellOf d c := rfl
@[simp] theorem rdB_modPort (d : Dev) (p : Nat) (f : Port → Port) (a : Nat) : rdB (modPort d p f) a = rdB d a := rfl
@[simp] theorem cellOf_wipeMem (d : Dev) (w : Nat → Bool) (c : Nat) : cellOf (wipeMem d w) c = cellOf d c := rfl
@[simp] theorem portOf_wipeMem (d : Dev) (w : Nat → Bool) (p : Nat) : portOf (wipeMem d w) p = portOf d p := rfl
@[simp] theorem portOf_modCell (d : Dev) (c : Nat) (f : Cell → Cell) (p : Nat) : portOf (modCell d c f) p = portOf d p := rfl

/-- A cell's trace run is written, and the cell is reset. -/
def resetCell (d : Dev) (c : Nat) : Dev :=
  modCell (flushRun d c) c (unitResetCell (wingOf d (wingOfCell c)).edges (d.ended.map (·.id)))

/-- The stages of a unit reset: the queues, the cells, the transfers of the galleries, and the stores. -/
theorem resetUnits_eq (d : Dev) (p : Nat) : resetUnits d p =
    modPort (wipeMem (dropHolds (cellsUnder d p) ((cellsUnder d p).foldl resetCell (emptyQueues d (subtree d p))))
      (inStores (cellsUnder d p) (((subtree d p).filter fun q => portKind q == some .gallery).map (· - 8)))) p fun x => { x with wiping := true } := rfl

/-- The stages of the unit reset of a cell. -/
theorem resetUnits_cell {d : Dev} {p : Nat} (cell : isCell p = true) (up : portUp d p = true) : resetUnits d p =
    modPort (wipeMem (dropHolds [p - 64] (resetCell (emptyQueues d [p]) (p - 64))) (inStores [p - 64] [])) p fun x => { x with wiping := true } := by
  rw [resetUnits_eq, subtree_cell d cell, cellsUnder_cell cell up]
  simp [portKind_of_isCell cell]

/-- The cell's own stage, behind the emptying of its queue, where no trace run is open. -/
theorem resetCell_idle {d : Dev} {p : Nat} (idle : (cellOf d (p - 64)).trun = none) : resetCell (emptyQueues d [p]) (p - 64) =
    modCell (emptyQueues d [p]) (p - 64) (unitResetCell (wingOf d (wingOfCell (p - 64))).edges (d.ended.map (·.id))) := by
  have idle' := (emptyQueues_frame (fun d => (cellOf d (p - 64)).trun) (fun _ _ _ => rfl) d [p]).trans idle
  have edges := emptyQueues_frame (fun d => (wingOf d (wingOfCell (p - 64))).edges) (fun _ _ _ => rfl) d [p]
  have known := emptyQueues_frame (fun d => d.ended.map (·.id)) (fun _ _ _ => rfl) d [p]
  rw [resetCell, flushRun_none idle', edges, known]

theorem cellReset_resetUnits {d : Dev} {p : Nat} (cell : isCell p = true) (up : portUp d p = true) (idle : (cellOf d (p - 64)).trun = none) :
    CellReset p d (resetUnits d p) := by
  have reg := emptyQueues_frame (·.reg) (fun _ _ _ => rfl) d [p]
  have cells := fun c => emptyQueues_frame (cellOf · c) (fun _ _ _ => rfl) d [p]
  rw [resetUnits_cell cell up, resetCell_idle idle]
  refine ⟨by simp, by simp [emptyQueues_singleton_q], by simpa using reg, by simp [cells], fun c ne => by simp [cells, ne], fun a => ?_⟩
  rw [rdB_modPort, rdB_wipeMem]
  simp [rdB]

theorem resetUnits_cell_raised {d : Dev} {p : Nat} (cell : isCell p = true) (up : portUp d p = true)
    (idle : (cellOf d (p - 64)).trun = none) : (resetUnits d p).raised = d.raised := by
  rw [resetUnits_cell cell up, resetCell_idle idle]
  simpa using emptyQueues_frame (·.raised) (fun _ _ _ => rfl) d [p]

/-- Outside a step and a dump, with no other reset under way, a unit reset resets the units below its port. -/
theorem unitReset_outside {d : Dev} {p : Nat} (up : portUp d p = true) (calm : inReset d = false) (whole : d.dump = none) (out : stState d ≠ 1) :
    unitReset d p = resetUnits d p := by
  simp [unitReset, up, calm, whole, out]

theorem writeFrame_reset {d : Dev} {p : Nat} {v : W64} (up : portUp d p = true) (set : v.getLsbD 0 = true) :
    writeFrame d p 0x30 v = unitReset d p := by
  have bit : bitAt v.toNat 0 = true := by simpa [bitAt, BitVec.getLsbD] using set
  simp [writeFrame, up, writeReset, bit]

/-- RESET at the head of the queue of a port: it completes, and the unit reset begins. -/
theorem portReset_head {d : Dev} {p : Nat} {e : PortCmd} (runs : halted d = false) (h : headOp d p 6 = some e) :
    portReset_ d p = unitReset (complete d p e.id) p := by
  simp [portReset_, runs, h]

theorem unitWipeDone_wiping {d : Dev} {p : Nat} (h : (portOf d p).wiping = true) :
    unitWipeDone d p = modPort d p fun x => { x with wiping := false } := by
  simp [unitWipeDone, h]

/-- Settles O13: a write of UP_RESET and RESET at the head of the queue both lead to `resetUnits`, the latter once the command has completed;
the subtree of a cell's port is the port alone. -/
theorem unitResetBeginsAndEnds : Obligations.UnitResetBeginsAndEnds := by
  unfold Obligations.UnitResetBeginsAndEnds
  refine ⟨fun s p cell ⟨up, calm, whole, out⟩ _ idle => ⟨fun v set wr => ?write, fun e h => ?command⟩, fun s p runs still hp wiping => ?wiped⟩
  case write =>
    refine ⟨_, frameWrite_yields (exec_upReset p v s) (okPort_of_isCell cell) (okPort_of_isCell cell) wr (by decide) (by decide)
      ((writeFrame_reset up set).trans (unitReset_outside up calm whole out)) (resetUnits_cell_raised cell up idle), ?_⟩
    exact cellReset_resetUnits cell up idle
  case command =>
    have up' : portUp (complete s.dev p e.id) p = true := by simpa using up
    have idle' : (cellOf (complete s.dev p e.id) (p - 64)).trun = none := by simpa using idle
    have eff := (portReset_head (halted_of_headOf h) (headOp_of_headOf h)).trans
      (unitReset_outside up' (by simpa using calm) (by simpa using whole) (by simpa using out))
    refine ⟨_, head_yields h (exec_unitPortReset p s) rfl eff ((resetUnits_cell_raised cell up' idle').trans (complete_raised ..)), ?_⟩
    exact cellReset_complete.1 (cellReset_resetUnits cell up' idle')
  case wiped => exact happen_yields (exec_unitResetWipeDone p s) hp runs still (unitWipeDone_wiping wiping) rfl

end Sys2Proof.Machine
end

section
/-! SUPPORT. The scales of a launched step and the writing of committed records (03_scales_and_annex.md, R105, R106): what the two commands
do where memory holds no ECC error, and what they leave. -/

namespace Sys2Proof.Machine
open Sys2Proof.Safety

/-! ### Writes of numbers, and reads that meet no error -/

/-- A byte outside the number that is written keeps its value. -/
theorem rdB_wrN_other (d : Dev) (b n v a : Nat) (out : a < b ∨ b + n ≤ a) : rdB (wrN d b n v) a = rdB d a :=
  rdB_wrBytes_other d b _ a (by simpa [leBytes] using out)

/-- A write brings in no ECC error. -/
theorem wrN_upset_nil {d : Dev} {a n v : Nat} (h : d.upset = []) : (wrN d a n v).upset = [] := by
  simp [wrN, wrBytes, wrL, rewritten, h]

/-- A read of the device's own logic changes nothing where no word holds an ECC error (R314). -/
theorem eccTouch_of_upset_nil {d : Dev} {a n : Nat} (h : d.upset = []) : eccTouch d a n = d := by
  simp [eccTouch, h]

/-! ### The scales of a launched step -/

/-- Taking the scales changes nothing else where no word holds an ECC error (R105). -/
theorem snapScalesNow_of_upset_nil {d : Dev} {base t : Nat} (h : d.upset = []) :
    snapScalesNow d base t = { d with scl := (snapScalesNow d base t).scl } := by
  simp [snapScalesNow, eccTouch_of_upset_nil h]

/-- A learning rate that waits for the scales is written into its coefficient entry (R405, R406). -/
def putLr (d : Dev) (e : Nat × Nat × W32) : Dev := wrN d (coefAddr d e.1 + 0x50) 4 (narrowLr d e.2.1 e.2.2).toNat

/-- The learning rates that wait for the scales are written. -/
def putLrs (lrs : List (Nat × Nat × W32)) (d : Dev) : Dev := lrs.foldl putLr d

/-- The learning rates are the only bytes that `putLrs` writes. -/
theorem rdB_putLrs_other (a : Nat) : ∀ (lrs : List (Nat × Nat × W32)) (d : Dev),
    (∀ e ∈ lrs, a < coefAddr d e.1 + 0x50 ∨ coefAddr d e.1 + 0x54 ≤ a) → rdB (putLrs lrs d) a = rdB d a
  | [], _, _ => rfl
  | e :: t, d, out =>
    (rdB_putLrs_other a t (putLr d e) fun x hx => out x (List.mem_cons_of_mem _ hx)).trans (rdB_wrN_other d _ 4 _ a (out e List.mem_cons_self))

theorem putLrs_upset_nil {lrs : List (Nat × Nat × W32)} {d : Dev} (h : d.upset = []) : (putLrs lrs d).upset = [] :=
  List.foldlRecOn (motive := fun d : Dev => d.upset = []) _ _ h fun _ h _ _ => wrN_upset_nil h

section frame
variable {β : Type} {F : Dev → β} (hF : ∀ d l, F (wrL d l) = F d)
include hF

/-- What no write of memory touches, `putLrs` leaves. -/
theorem putLrs_frame (lrs : List (Nat × Nat × W32)) (d : Dev) : F (putLrs lrs d) = F d :=
  foldl_frame F _ (fun d _ => hF d _) lrs d

/-- What no write of memory touches, the snapshots of R108 leave. -/
theorem snapshotAll_frame {d : Dev} (h : d.upset = []) : F (snapshotAll d) = F d := by
  rw [snapshotAll, eccTouch_of_upset_nil h]
  exact foldl_frame F _ (fun d _ => hF d _) _ d
end frame

section ready
variable {d : Dev}

/-- While a record is awaited, or owner 51 has no class to read the table, the scales wait (R106, R331). -/
theorem baroScalesReady_waits (h : histAwaited d (stStamp d) = true ∨ ownerMay d 51 false d.scl.base 64 = false) : baroScalesReady d = d := by
  rcases h with h | h <;> simp [baroScalesReady, h]

variable (inside : inStep d = true) (waiting : d.scl.ready = false) (written : histAwaited d (stStamp d) = false)
  (may : ownerMay d 51 false d.scl.base 64 = true)
include inside waiting written may

/-- Once nothing is awaited the scales are taken, then the learning rates, and behind an open gate the snapshots. -/
theorem baroScalesReady_due : baroScalesReady d =
    let e := putLrs d.scl.lrs (snapScalesNow d d.scl.base (stStamp d))
    if stGate e then snapshotAll e else e := by
  rw [baroScalesReady, if_pos (by simp [inside, waiting, written, may])]
  rfl

variable (sound : d.upset = [])
include sound

/-- What no write of memory touches is as taking the scales has left it. -/
theorem baroScalesReady_frame {β : Type} {F : Dev → β} (hF : ∀ d l, F (wrL d l) = F d) :
    F (baroScalesReady d) = F (snapScalesNow d d.scl.base (stStamp d)) := by
  have sound' : (snapScalesNow d d.scl.base (stStamp d)).upset = [] := by rw [snapScalesNow_of_upset_nil sound]; exact sound
  rw [baroScalesReady_due inside waiting written may]
  dsimp only
  split
  · exact (snapshotAll_frame hF (putLrs_upset_nil sound')).trans (putLrs_frame hF ..)
  · exact putLrs_frame hF ..

/-- What neither a write of memory nor the taking of the scales touches is left. -/
theorem baroScalesReady_keeps {β : Type} {F : Dev → β} (hF : ∀ d l, F (wrL d l) = F d) (hS : ∀ d x, F { d with scl := x } = F d) :
    F (baroScalesReady d) = F d := by
  rw [baroScalesReady_frame inside waiting written may sound hF, snapScalesNow_of_upset_nil sound, hS]

/-- Behind a closed gate the learning rates are the only bytes written. -/
theorem rdB_baroScalesReady_closed (closed : stGate d = false) {a : Nat}
    (out : ∀ e ∈ d.scl.lrs, a < coefAddr d e.1 + 0x50 ∨ coefAddr d e.1 + 0x54 ≤ a) : rdB (baroScalesReady d) a = rdB d a := by
  have snap := snapScalesNow_of_upset_nil (base := d.scl.base) (t := stStamp d) sound
  have closed' : stGate (putLrs d.scl.lrs (snapScalesNow d d.scl.base (stStamp d))) = false := by
    rw [putLrs_frame (F := stGate) fun _ _ => rfl, snap]
    exact closed
  rw [baroScalesReady_due inside waiting written may]
  dsimp only
  rw [closed', if_neg Bool.false_ne_true, snap]
  exact rdB_putLrs_other a d.scl.lrs _ out
end ready

/-! ### Committed records -/

/-- A committed record lands in its place of HIST once owner 51 has a class (R104, R106). -/
theorem baroHistWrite_may {d : Dev} {n b st : Nat} {m : W32} (pend : d.histPend[n]? = some (b, st, m))
    (may : ownerMay d 51 true (baroAddr d b + 0x40) 128 = true) (unblocked : blockedPlace d (.hbm 0) = false) :
    baroHistWrite d n = wrN { d with histPend := d.histPend.eraseIdx n } (baroAddr d b + 0x40 + 8 * (st % 16)) 8
      (2 ^ 48 + st % 2 ^ 16 * 2 ^ 32 + m.toNat) := by
  have unblocked' : blockedPlace { d with histPend := d.histPend.eraseIdx n } (.hbm 0) = false := unblocked
  have same : baroAddr { d with histPend := d.histPend.eraseIdx n } b = baroAddr d b := rfl
  simp only [baroHistWrite, pend, may, unblocked', same, Bool.not_true, Bool.false_eq_true, if_false]

/-! ### The statement -/

theorem exec_baroScalesReady (s : State) : exec .baroScalesReady s = happen .baroScalesReady running (fun d => .ok (baroScalesReady d)) s := rfl
theorem exec_baroHistWrite (n : Nat) (s : State) :
    exec (.baroHistWrite n) s = happen (.baroHistWrite n) running (fun d => .ok (baroHistWrite d n)) s := rfl

/-- Settles O30: the scales are the snapshot that `snapScalesNow` takes, and all that follows it are writes of memory, which behind a closed
gate are those of the learning rates. -/
theorem scalesAndHistory : Obligations.ScalesAndHistory := by
  unfold Obligations.ScalesAndHistory
  intro s ⟨runs, calm⟩
  refine ⟨fun inside waiting => ⟨fun waits => ?waits, fun written may sound => ?taken⟩, fun n b st m pend may unblocked => ?record⟩
  case waits => exact happen_yields (exec_baroScalesReady s) rfl runs calm (baroScalesReady_waits waits) rfl
  case taken =>
    have raised := baroScalesReady_keeps inside waiting written may sound (F := (·.raised)) (fun _ _ => rfl) fun _ _ => rfl
    have reg := baroScalesReady_keeps inside waiting written may sound (F := (·.reg)) (fun _ _ => rfl) fun _ _ => rfl
    have cells := baroScalesReady_keeps inside waiting written may sound (F := (·.cells)) (fun _ _ => rfl) fun _ _ => rfl
    have scl := baroScalesReady_frame inside waiting written may sound (F := (·.scl)) fun _ _ => rfl
    refine ⟨_, happen_yields (exec_baroScalesReady s) rfl runs calm rfl raised, scl, reg, cells, fun closed a out => ?_⟩
    exact rdB_baroScalesReady_closed inside waiting written may sound closed out
  case record => exact happen_yields (exec_baroHistWrite n s) rfl runs calm (baroHistWrite_may pend may unblocked) (wrL_raised ..)

end Sys2Proof.Machine
end

section
/-! SUPPORT. The effects that a cell owes at the end of an operation (04_forward_array.md, 05_backward_pair.md): a command whose event is the
one effect that its cell owes changes that cell alone. A unit becomes free (R157, R192, R194, R211), the pair scan fills its table (R188), and
the loads fill the inactive plinth and the inactive weight buffer (R132, R185). -/

namespace Sys2Proof.Machine
open Sys2Proof.Safety

/-! ### The one effect that a cell owes -/

/-- The device whose cell `c` has its effects taken off its list. -/
abbrev nothingOwed (d : Dev) (c : Nat) : Dev := putCell d c { cellOf d c with due := [] }

/-- The event of a cell that owes one effect, which is due and changes that cell alone. -/
theorem cellEvent_one {d : Dev} {c : Nat} {u : Due} {p : Micro → Bool} {f : Cell → Cell} (one : (cellOf d c).due = [u])
    (due : u.edge ≤ cellEdge d c) (picks : p u.op = true) (run : runMicro (nothingOwed d c) c u.edge u.op = .ok (modCell (nothingOwed d c) c f))
    (rest : (f { cellOf d c with due := [] }).due = []) : cellEvent d c p = .ok (modCell (nothingOwed d c) c f) := by
  have settles : settle d c u.edge = .ok (modCell (nothingOwed d c) c f) := settle_one one (Nat.le_refl _) run (by simpa using rest)
  simp [cellEvent, one, picks, due, settles]

/-- A command whose event is the one effect that its cell owes changes the cell as the effect does. -/
theorem ownEvent_changesCell {cmd : Instr} {s : State} {c : Nat} {u : Due} {p : Micro → Bool} {f : Cell → Cell} {x : Cell}
    (ex : exec cmd s = happen cmd clocked (fun d => cellEvent d c p) s) (wf : cmd.wf = okCell c) (picks : p u.op = true) (owes : OwesOne s c u)
    (run : runMicro (nothingOwed s.dev c) c u.edge u.op = .ok (modCell (nothingOwed s.dev c) c f))
    (eff : f { cellOf s.dev c with due := [] } = x) (rest : x.due = []) : ChangesCell cmd s c x := by
  obtain ⟨runs, calm, hc, one, due⟩ := owes
  have event := cellEvent_one one due picks run (eff ▸ rest)
  have cells : ∀ k, cellOf (modCell (nothingOwed s.dev c) c f) k = if k = c then x else cellOf s.dev k := by
    intro k
    by_cases e : k = c <;> simp [e, eff]
  exact ⟨_, ex.trans (happen_ok (wf.trans hc) runs event calm), (cells c).trans (if_pos rfl), fun j ne => (cells j).trans (if_neg ne)⟩

/-! ### The pair scan -/

/-- A read of a protected store finds no error where no bit of the cell is flipped. -/
theorem stateEcc_of_flips_nil {d : Dev} {c : Nat} (st : CellStore) (inst : Nat) (p : Nat → Bool) (clean : (cellOf d c).flips = []) :
    stateEcc d c st inst p = ([], d) := by
  simp [stateEcc, clean]

/-- A fold whose steps leave what the cell owes leaves it. -/
theorem foldl_due {α : Type} {f : Cell → α → Cell} (hf : ∀ y a, (f y a).due = y.due) : ∀ (l : List α) (y : Cell), (l.foldl f y).due = y.due
  | [], _ => rfl
  | a :: l, y => (foldl_due hf l (f y a)).trans (hf y a)

/-- The scan of the pair leaves what the cell owes. -/
theorem scanTable_due (y : Cell) (i : Nat) : (scanTable y i).due = y.due := by
  unfold scanTable
  rw [foldl_due]
  intro z b
  rw [foldl_due]
  exact fun _ _ => rfl

/-- The scan fills the inactive exponent table, and the pair is ready (R188). -/
def readyPair (x : Cell) : Cell := { scanTable x (if x.xyAct then 0 else 1) with pairReady := true }

theorem readyPair_due (x : Cell) : (readyPair x).due = x.due := by
  unfold readyPair
  dsimp only
  exact scanTable_due x _

theorem pairScanned_of_flips_nil {d : Dev} {c : Nat} (clean : (cellOf d c).flips = []) : pairScanned d c = modCell d c readyPair := by
  simp only [pairScanned, stateEcc_of_flips_nil _ _ _ clean, modCell, readyPair]

/-- Settles O20: each end is the one effect that the cell owes; without a flipped bit the scan's reads of the buffers change nothing. -/
theorem unitsBecomeFree : Obligations.UnitsBecomeFree := by
  unfold Obligations.UnitsBecomeFree
  intro s c e
  refine ⟨fun ph i owes => ?conv, fun ph i owes => ?drain, fun ph i owes => ?dw, fun ph i owes => ?trans, fun ph i owes clean => ?scan⟩
  case conv => exact ownEvent_changesCell rfl rfl rfl owes rfl rfl rfl
  case drain => exact ownEvent_changesCell rfl rfl rfl owes rfl rfl rfl
  case dw => exact ownEvent_changesCell rfl rfl rfl owes rfl rfl rfl
  case trans => exact ownEvent_changesCell rfl rfl rfl owes rfl rfl rfl
  case scan =>
    have scanned := pairScanned_of_flips_nil (d := nothingOwed s.dev c) (c := c) (by simpa using clean)
    exact ownEvent_changesCell rfl rfl rfl owes (congrArg Except.ok scanned) rfl (readyPair_due _)

/-! ### Rows written one behind the other -/

/-- The table with the values of a list written at consecutive keys. -/
def tabFill {α : Type} [DecidableEq α] (d : Nat → α) : Tab α → Nat → List α → Tab α
  | t, _, [] => t
  | t, k, x :: l => tabFill d (tabPut d t k x) (k + 1) l

section tabFill
variable {α : Type} [DecidableEq α] (d : Nat → α)

/-- A key outside those that are filled keeps its value. -/
theorem tabGet_fill_other : ∀ (l : List α) (t : Tab α) {k j : Nat}, j < k ∨ k + l.length ≤ j → tabGet d (tabFill d t k l) j = tabGet d t j
  | [], _, _, _, _ => rfl
  | x :: l, t, k, j, out => by
    rw [List.length_cons] at out
    rw [tabFill, tabGet_fill_other l _ (by omega), tabGet_put_other d t x (by omega)]

/-- A key that is filled holds the value of its place in the list. -/
theorem tabGet_fill_at : ∀ (l : List α) (t : Tab α) (k : Nat) {i : Nat} {x : α}, l[i]? = some x → tabGet d (tabFill d t k l) (k + i) = x
  | y :: l, t, k, 0, x, h => by
    obtain rfl : y = x := by simpa using h
    rw [tabFill, tabGet_fill_other d l _ (by omega)]
    exact tabGet_put_same d t k y
  | y :: l, t, k, i + 1, x, h => by
    have key : k + (i + 1) = k + 1 + i := by omega
    rw [tabFill, key]
    exact tabGet_fill_at l (tabPut d t k y) (k + 1) (by simpa using h)
end tabFill

/-- The rows of weight buffer `b` written from row `n` on, beside those of table `t`. -/
abbrev lwFill (t : Tab (List Val)) (b n : Nat) (l : List (List Val)) : Tab (List Val) :=
  tabFill (fun _ => List.replicate 64 zeroElem) t (64 * b + n) l

/-- Writing rows one by one writes the table of the weight buffers, and nothing else. -/
theorem foldl_lwSet (b : Nat) : ∀ (l : List (List Val)) (n : Nat) (y : Cell),
    (l.zipIdx n).foldl (fun y p => lwSet y b p.2 p.1) y = { y with lw := lwFill y.lw b n l }
  | [], _, _ => rfl
  | r :: l, n, y => foldl_lwSet b l (n + 1) (lwSet y b n r)

/-- A written row of a weight buffer. -/
theorem lwRow_lwFill_same (y : Cell) (b : Nat) {l : List (List Val)} {k : Nat} {row : List Val} (h : l[k]? = some row) :
    lwRow { y with lw := lwFill y.lw b 0 l } b k = row := tabGet_fill_at _ l y.lw (64 * b) h

/-- A buffer of 64 rows that is filled leaves the rows of the others. -/
theorem lwRow_lwFill_other (y : Cell) {b b' : Nat} {l : List (List Val)} {k : Nat} (ne : b' ≠ b) (fits : l.length ≤ 64) (hk : k < 64) :
    lwRow { y with lw := lwFill y.lw b 0 l } b' k = lwRow y b' k := tabGet_fill_other _ l y.lw (by omega)

/-! ### The ends of the loads -/

/-- The inactive plinth takes what the PLOAD under way has read (R132). -/
def takePlinth (r : PloadRun) (x : Cell) : Cell :=
  if x.plAct then { stateClean x .plinth 0 fun _ => true with pload := none, plA := plinthOf r }
  else { stateClean x .plinth 1 fun _ => true with pload := none, plB := plinthOf r }

theorem plinthDone_some {d : Dev} {c : Nat} {r : PloadRun} (load : (cellOf d c).pload = some r) : plinthDone d c = modCell d c (takePlinth r) := by
  refine congrArg (putCell d c) ?_
  dsimp only
  rw [load]
  cases act : (cellOf d c).plAct <;> simp [takePlinth, stateClean, act]

/-- The inactive weight buffer takes the image that the BLDW under way has decoded (R185). -/
def takeImage (b : Nat) (img : List (List Val)) (x : Cell) : Cell :=
  { stateClean x .lw b fun _ => true with bldw := none, lw := lwFill x.lw b 0 img }

theorem bldDone_weights {d : Dev} {c e : Nat} {r : BldRun} {x : Desc} {f : Fmt} (load : (cellOf d c).bldw = some r) (hx : r.d = some x)
    (hf : imageFmt x = .ok f) : bldDone d c e false = .ok (modCell d c (takeImage (if (cellOf d c).lwAct then 0 else 1) (imageOf false f r))) := by
  simp only [bldDone, bldOf, Bool.false_eq_true, if_false, load, hx, hf, foldl_lwSet]
  rfl

/-- Settles O21: both loads end in the one effect that the cell owes; the image is written row by row from the buffer's first row, which
leaves the other buffer's rows as the image has no more than 64. -/
theorem loadsFillTheInactiveBuffers : Obligations.LoadsFillTheInactiveBuffers := by
  unfold Obligations.LoadsFillTheInactiveBuffers
  intro s c e ph i
  refine ⟨fun r owes load => ?pload, fun r x f owes load hx hf fits => ?bldw⟩
  case pload =>
    have done := plinthDone_some (d := nothingOwed s.dev c) (c := c) (r := r) (by simpa using load)
    exact ownEvent_changesCell rfl rfl rfl owes (congrArg Except.ok done) rfl (by split <;> rfl)
  case bldw =>
    have done := bldDone_weights (d := nothingOwed s.dev c) (c := c) (e := e) (by simpa using load) hx hf
    have inactive : (if (cellOf (nothingOwed s.dev c) c).lwAct then 0 else 1) = 1 - if (cellOf s.dev c).lwAct then 1 else 0 := by
      cases act : (cellOf s.dev c).lwAct <;> simp [act]
    have differ : (if (cellOf s.dev c).lwAct then 1 else 0) ≠ 1 - if (cellOf s.dev c).lwAct then 1 else 0 := by split <;> decide
    rw [inactive] at done
    exact ⟨_, ownEvent_changesCell rfl (Bool.and_true _) rfl owes done rfl rfl, fun k row h => lwRow_lwFill_same _ _ h,
      fun k hk => lwRow_lwFill_other _ differ fits hk⟩

end Sys2Proof.Machine
end

section
/-! SUPPORT. The memory side of a DWACC with LAST = 0 (05_backward_pair.md, R196, R197): the fault of bytes that no DMA may touch, taken up
outside a step (R304, R515), and the frame of a gallery engine that reads and writes a tile for a cell. -/

namespace Sys2Proof.Machine
open Sys2Proof.Safety

/-! ### A write of a device engine -/

/-- A write of a device engine is one of bytes with their ECC, and of the host lines that the device caches. -/
theorem engWrite_eq (d : Dev) (a : Nat) (bs : List Byte) :
    ∃ m l, engWrite d a bs = { d with mem := m, upset := (engWrite d a bs).upset, hostLines := l } := by
  unfold engWrite
  dsimp only
  split
  · exact ⟨_, _, rfl⟩
  · split <;> exact ⟨_, _, rfl⟩

theorem engWrite_frame {β : Type} {F : Dev → β} (hF : ∀ d m u l, F { d with mem := m, upset := u, hostLines := l } = F d) (d : Dev) (a : Nat)
    (bs : List Byte) : F (engWrite d a bs) = F d := by
  obtain ⟨m, l, eq⟩ := engWrite_eq d a bs
  exact (congrArg F eq).trans (hF ..)

theorem engWrite_upset_nil {d : Dev} {a : Nat} {bs : List Byte} (h : d.upset = []) : (engWrite d a bs).upset = [] := by
  unfold engWrite
  dsimp only
  split
  · exact h
  · split <;> simp [wrBytes, wrL, lineDrop, rewritten, h]

/-- A byte outside the range that a device engine writes keeps its value. -/
theorem rdB_engWrite_other (d : Dev) (b : Nat) (bs : List Byte) (a : Nat) (out : a < b ∨ b + bs.length ≤ a) :
    rdB (engWrite d b bs) a = rdB d a := by
  unfold engWrite
  dsimp only
  split
  · rfl
  · split
    · exact rdB_wrBytes_other _ b bs a out
    · rfl
    · rfl
    · exact rdB_wrBytes_other d b bs a out

/-- Devices that hold the same bytes hold the same bytes after a write to an address that both place, and block, alike. -/
theorem engWrite_mem_congr {d e : Dev} {a : Nat} {bs : List Byte} (at_ : place e a = place d a)
    (open_ : blockedPlace e (place d a) = blockedPlace d (place d a)) (same : e.mem = d.mem) : (engWrite e a bs).mem = (engWrite d a bs).mem := by
  have written (l : List (Nat × Byte)) : memPutL l e.mem = memPutL l d.mem := congrArg _ same
  simp only [engWrite, at_, open_]
  split
  · exact same
  · split
    · exact written _
    · exact same
    · exact same
    · exact written _

/-! ### A fault that is taken up outside a step -/

/-- What the log and the events of a fault leave (R518, R521): the fault requests that wait, the cells, and the ports. -/
def units (d : Dev) : List FaultReq × Tab Cell × Tab Port := (d.raised, d.cells, d.ports)

@[simp] theorem units_putRgf (d : Dev) (o hi lo v : Nat) : units (putRgf d o hi lo v) = units d := rfl

@[simp] theorem units_hostWrite (d : Dev) (a : Nat) (bs : List Byte) : units (hostWrite d a bs) = units d := by
  unfold hostWrite
  split
  · exact engWrite_frame (fun _ _ _ _ => rfl) d a bs
  · rfl

@[simp] theorem units_eventGone (d : Dev) : units (eventGone d) = units d := by
  unfold eventGone
  dsimp only
  split <;> rfl

@[simp] theorem units_eventWrite (d : Dev) : units (eventWrite d) = units d := by
  unfold eventWrite
  dsimp only
  split
  · rfl
  · split
    · split
      · exact units_eventGone _
      · rfl
    · split
      · rfl
      · simp

@[simp] theorem units_holdEvent (d : Dev) (e : HeldEvent) : units (holdEvent d e) = units d := by
  unfold holdEvent
  extract_lets room
  have kept : units room = units d := by unfold room; split <;> simp
  split <;> exact kept

@[simp] theorem units_faultEvent (d : Dev) : units (faultEvent d) = units d := by
  unfold faultEvent
  split
  · rfl
  · exact units_holdEvent _ _

@[simp] theorem units_logFault (d : Dev) (r : List W64) : units (logFault d r) = units d := by
  unfold logFault
  dsimp only
  split <;> split <;> rfl

/-- What a fault bit is set in is ports alone (R43, R44). -/
theorem setFaultBit_frame {β : Type} {F : Dev → β} (hF : ∀ d q (f : Port → Port), F (modPort d q f) = F d) (d : Dev) (p b : Nat) :
    F (setFaultBit d p b) = F d := by
  unfold setFaultBit markNew
  refine ((hF ..).trans (hF ..)).trans (foldl_frame F _ (fun e q => ?_) _ d)
  split
  · exact hF ..
  · rfl

/-- The bit is set in the port of the fault, whose other bits stay (R43). -/
theorem setFaultBit_own (d : Dev) (p b : Nat) : (portOf (setFaultBit d p b) p).own = (portOf d p).own ||| 2 ^ b := by
  have firsts : (portOf ((chain d p).foldl (fun e q => if faultSum d q = 0 then modPort e q fun x => { x with first := p } else e) d) p).own
      = (portOf d p).own := by
    refine foldl_frame (fun e => (portOf e p).own) _ (fun e q => ?_) _ d
    split
    · rw [portOf_modPort]
      split
      · next h => rw [h]
      · rfl
    · rfl
  simp [setFaultBit, markNew, firsts]

/-- A fault sets its bit; outside a running step its record and its event touch no unit. -/
theorem units_takeFault {d : Dev} (f : FaultReq) (outside : stState d ≠ 1) :
    units (takeFault d f) = units (setFaultBit d f.port (faultBit f.kind)) := by
  simp [takeFault, outside]

/-- The one fault that a command raises outside a running step. -/
theorem takeFaults_raise {d : Dev} (f : FaultReq) (calm : d.raised = []) (outside : stState d ≠ 1) : takeFaults (raise d f) = takeFault d f := by
  have first : takeRound (raise d f) = takeFault d f := by
    simp only [takeRound, raise, calm, List.nil_append, List.foldl_cons, List.foldl_nil, insReq]
    rw [← calm]
  have none_left : (takeFault d f).raised = [] := by
    have same : (takeFault d f).raised = (setFaultBit d f.port (faultBit f.kind)).raised := congrArg Prod.fst (units_takeFault f outside)
    exact same.trans ((setFaultBit_frame (F := (·.raised)) (fun _ _ _ => rfl) ..).trans calm)
  unfold takeFaults
  rw [first, takeRound, none_left, List.foldl_nil, List.foldl_nil, ← none_left]

/-- What such a fault leaves of the device: the cells are untouched, and its port shows it (R43). -/
theorem takeFaults_raise_shown {d : Dev} (f : FaultReq) (calm : d.raised = []) (outside : stState d ≠ 1) :
    (takeFaults (raise d f)).cells = d.cells ∧ FaultShown d (takeFaults (raise d f)) f.port (faultBit f.kind) := by
  have same := units_takeFault f outside
  have cells : (takeFault d f).cells = (setFaultBit d f.port (faultBit f.kind)).cells := congrArg (·.2.1) same
  have ports : (takeFault d f).ports = (setFaultBit d f.port (faultBit f.kind)).ports := congrArg (·.2.2) same
  rw [takeFaults_raise f calm outside]
  refine ⟨cells.trans (setFaultBit_frame (F := (·.cells)) (fun _ _ _ => rfl) ..), Eq.trans ?_ (setFaultBit_own d f.port _)⟩
  simp only [portOf, ports]

/-! ### What the memory side of a DWACC may change -/

/-- Device `e` is `d` but for what the memory side of a DWACC of cell `c` may change: bytes and their ECC, which stays clean, free values, cached host lines,
survey partials, CNT_DMA of the gallery, and the partial gauges of the cell. -/
structure DwFrame (c : Nat) (d e : Dev) : Prop where
  raised : e.raised = d.raised
  ports : e.ports = d.ports
  actMap : e.actMap = d.actMap
  groups : e.groups = d.groups
  upset : d.upset = [] → e.upset = []
  regs : ∀ o, o ≠ 0x307_0100 + 8 * galleryOfCell c → rg e o = rg d o
  cell : cellOf e c = { cellOf d c with gauge := (cellOf e c).gauge }
  others : ∀ k, k ≠ c → cellOf e k = cellOf d k

namespace DwFrame
variable {c : Nat} {d e f : Dev}

theorem refl (c : Nat) (d : Dev) : DwFrame c d d := ⟨rfl, rfl, rfl, rfl, id, fun _ _ => rfl, rfl, fun _ _ => rfl⟩

theorem trans (h : DwFrame c d e) (k : DwFrame c e f) : DwFrame c d f where
  raised := k.raised.trans h.raised
  ports := k.ports.trans h.ports
  actMap := k.actMap.trans h.actMap
  groups := k.groups.trans h.groups
  upset := k.upset ∘ h.upset
  regs o ne := (k.regs o ne).trans (h.regs o ne)
  cell := by rw [k.cell, h.cell]
  others j ne := (k.others j ne).trans (h.others j ne)

/-- What lies outside units and registers may change. -/
theorem outside (c : Nat) (d : Dev) {m : Tab Byte} {u l n v} (sound : d.upset = [] → u = []) :
    DwFrame c d { d with mem := m, upset := u, hostLines := l, fresh := n, survey := v } :=
  ⟨rfl, rfl, rfl, rfl, sound, fun _ _ => rfl, rfl, fun _ _ => rfl⟩

/-- A fold whose steps keep the frame, where memory is sound, keeps it; `dev` is the device within what the fold carries. -/
theorem foldl {σ α : Type} {g : σ → α → σ} (dev : σ → Dev) (step : ∀ s a, (dev s).upset = [] → DwFrame c (dev s) (dev (g s a))) :
    ∀ (l : List α) (s : σ), (dev s).upset = [] → DwFrame c (dev s) (dev (l.foldl g s))
  | [], s, _ => refl c (dev s)
  | a :: l, s, sound => (step s a sound).trans (foldl dev step l (g s a) ((step s a sound).upset sound))

section agree
variable (h : DwFrame c d e)
include h

/-- The units in service, by port, are the same. -/
theorem portUp_eq (p : Nat) : portUp e p = portUp d p := by
  simp only [portUp, groupWord, h.actMap, h.groups]

theorem chainN_eq : ∀ (n p : Nat), chainN n e p = chainN n d p
  | 0, _ => rfl
  | n + 1, p => by
    have parent : parentOf e p = parentOf d p := by unfold parentOf holderOf groupWord; rw [h.groups]
    simp only [chainN, parent, chainN_eq n]

theorem resetting_eq (p : Nat) : resetting e p = resetting d p := by
  simp only [resetting, chain, h.chainN_eq, portOf, h.ports]

variable (hc : okCell c = true)
include hc

/-- Registers other than the galleries' CNT_DMA are the same. -/
theorem rg_eq {o : Nat} (out : o < 0x307_0100 ∨ 0x307_0280 ≤ o) : rg e o = rg d o := by
  have : c < 384 := by simpa [okCell] using hc
  exact h.regs o (by unfold galleryOfCell; omega)

theorem place_eq (a : Nat) : place e a = place d a := by
  simp only [place, depotSize, depotChans, rgf, h.rg_eq hc (o := 0x30A_0000) (by decide)]

theorem blockedPlace_eq (p : Place) : blockedPlace e p = blockedPlace d p := by
  simp only [blockedPlace, rgf, h.rg_eq hc (o := 0x40_0010) (by decide), h.portUp_eq, h.resetting_eq]

theorem sweeping_eq : sweeping e = sweeping d := by
  simp only [sweeping, stState, stGate, rgf, h.rg_eq hc (o := 0x30B_0000) (by decide)]
end agree

/-- Devices that agree with a third in this frame, and hold the same bytes, hold the same bytes after an engine's write. -/
theorem engWrite_mem_eq {d₀ : Dev} (hc : okCell c = true) (hd : DwFrame c d₀ d) (he : DwFrame c d₀ e) (same : e.mem = d.mem) (a : Nat) (bs : List Byte) :
    (engWrite e a bs).mem = (engWrite d a bs).mem := by
  have at_ := (he.place_eq hc a).trans (hd.place_eq hc a).symm
  exact engWrite_mem_congr at_ ((he.blockedPlace_eq hc _).trans (hd.blockedPlace_eq hc _).symm) same
end DwFrame

/-! ### The operations of the memory side keep that frame -/

theorem drawBytes_eq : ∀ (n : Nat) (d : Dev), ∃ k, (drawBytes n d).2 = { d with fresh := k }
  | 0, d => ⟨d.fresh, rfl⟩
  | n + 1, d => drawBytes_eq n { d with fresh := d.fresh + 1 }

/-- An engine's read meets no ECC error where memory holds none. -/
theorem dwFrame_engRead (c : Nat) {d : Dev} (a n : Nat) (sound : d.upset = []) : DwFrame c d (engRead d a n).2 := by
  have drawn : DwFrame c d (drawBytes n d).2 := by
    obtain ⟨k, eq⟩ := drawBytes_eq n d
    exact eq ▸ DwFrame.outside c d id
  unfold engRead
  dsimp only
  split
  · exact drawn
  · split
    · unfold lineAlloc
      dsimp only
      split
      · exact DwFrame.refl c d
      · exact DwFrame.outside c d id
    · exact drawn
    · exact drawn
    · simpa [eccRead, sound] using DwFrame.refl c d

theorem dwFrame_engWrite (c : Nat) (d : Dev) (a : Nat) (bs : List Byte) : DwFrame c d (engWrite d a bs) := by
  obtain ⟨m, l, eq⟩ := engWrite_eq d a bs
  rw [eq]
  exact DwFrame.outside c d engWrite_upset_nil

theorem dwFrame_countDma (c : Nat) (d : Dev) (n : Nat) : DwFrame c d (countDma d (galleryOfCell c) n) := by
  unfold countDma
  split
  · exact ⟨rfl, rfl, rfl, rfl, id, fun o ne => by simp [ne], rfl, fun _ _ => rfl⟩
  · exact DwFrame.refl c d

theorem dwFrame_surveyRun (c : Nat) {d : Dev} (visiting : Bool) (site : Nat) (x : Desc) (els : List (Nat × Nat × Val × Nat)) (sound : d.upset = []) :
    DwFrame c d (surveyRun d visiting site x els) := by
  unfold surveyRun
  split
  · exact DwFrame.refl c d
  · refine DwFrame.foldl id (fun d e _ => ?_) d.srvEnt d sound
    dsimp only [id]
    split
    · exact DwFrame.outside c d id
    · exact DwFrame.refl c d

theorem dwFrame_gaugeAdd (c : Nat) (d : Dev) (baro g n : Nat) : DwFrame c d (gaugeAdd d c baro g n) := by
  unfold gaugeAdd
  split
  · exact DwFrame.refl c d
  · exact ⟨rfl, rfl, rfl, rfl, id, fun _ _ => rfl, by simp, fun k ne => by simp [ne]⟩

theorem dwFrame_descGauges (c : Nat) {d : Dev} (x : Desc) (gs : List (Nat × Nat)) (sound : d.upset = []) : DwFrame c d (descGauges d c x gs) := by
  unfold descGauges
  split
  · exact DwFrame.refl c d
  · exact DwFrame.foldl id (fun d g _ => dwFrame_gaugeAdd c d x.baro g.1 g.2) gs d sound

/-- The reading of the stored tile (R197). -/
theorem dwFrame_dwRead {c : Nat} {d : Dev} (r : DwRun) (x : Desc) (sound : d.upset = []) : DwFrame c d (dwRead d c r x).2 := by
  unfold dwRead
  split
  · exact DwFrame.refl c d
  · refine DwFrame.foldl Prod.snd (fun s b sound => ?_) dwTile ([], d) sound
    have codes := dwFrame_engRead c (dwPlace r x b.1 b.2).1 64 sound
    have counted := codes.trans (dwFrame_countDma c _ 66)
    exact counted.trans (dwFrame_engRead c _ 2 (counted.upset sound))

/-- The counts of a tile whose residues all agree raise no fault (R197). -/
theorem dwFrame_dwCounts {c : Nat} {d : Dev} (r : DwRun) (x : Desc) {bs : List DwBlock} (sound : d.upset = []) (good : bs.any (·.bad) = false) :
    DwFrame c d (dwCounts d c r x bs) := by
  unfold dwCounts
  rw [good]
  exact dwFrame_descGauges c x _ sound

/-! ### The storing of a tile -/

/-- One block and its side word are written back, counted and observed (R197, R551). -/
def dwPut (c : Nat) (r : DwRun) (x : Desc) (d : Dev) (e : (Nat × Nat) × DwBlock) : Dev :=
  let at_ := dwPlace r x e.1.1 e.1.2
  let d := countDma (engWrite (engWrite d at_.1 (packCodes 16 e.2.codes)) at_.2 (leBytes 2 e.2.side)) (galleryOfCell c) 66
  let p := dwPos x r.addr
  surveyRun d (cellOf d c).visiting 2 x (e.2.codes.zipIdx.map fun (k, i) =>
    (p.1 + e.1.1, p.2 + 32 * e.1.2 + i, p32Val (b16ToP32 k (e.2.side % 256)), srvBits 3 k (e.2.side % 256)))

section dwPut
variable {c : Nat} {d : Dev} (r : DwRun) (x : Desc)

theorem dwFrame_dwPut (e : (Nat × Nat) × DwBlock) (sound : d.upset = []) : DwFrame c d (dwPut c r x d e) := by
  have codes := dwFrame_engWrite c d (dwPlace r x e.1.1 e.1.2).1 (packCodes 16 e.2.codes)
  have side := codes.trans (dwFrame_engWrite c _ (dwPlace r x e.1.1 e.1.2).2 (leBytes 2 e.2.side))
  have counted := side.trans (dwFrame_countDma c _ 66)
  exact counted.trans (dwFrame_surveyRun c _ 2 x _ (counted.upset sound))

/-- Counting and observing write no memory. -/
theorem dwPut_mem (e : (Nat × Nat) × DwBlock) : (dwPut c r x d e).mem =
    (engWrite (engWrite d (dwPlace r x e.1.1 e.1.2).1 (packCodes 16 e.2.codes)) (dwPlace r x e.1.1 e.1.2).2 (leBytes 2 e.2.side)).mem :=
  (surveyRun_mem ..).trans (countDma_mem ..)

/-- The blocks of a list written back leave devices that agree and hold the same bytes with the same bytes. -/
theorem foldl_dwPut_mem_eq {d₀ : Dev} (hc : okCell c = true) : ∀ (l : List ((Nat × Nat) × DwBlock)) {d e : Dev}, DwFrame c d₀ d → DwFrame c d₀ e →
    d.upset = [] → e.upset = [] → e.mem = d.mem → (l.foldl (dwPut c r x) e).mem = (l.foldl (dwPut c r x) d).mem
  | [], _, _, _, _, _, _, same => same
  | b :: l, d, e, hd, he, sd, se, same => by
    have codes := DwFrame.engWrite_mem_eq hc hd he same (dwPlace r x b.1.1 b.1.2).1 (packCodes 16 b.2.codes)
    have side := DwFrame.engWrite_mem_eq hc (hd.trans (dwFrame_engWrite ..)) (he.trans (dwFrame_engWrite ..)) codes
      (dwPlace r x b.1.1 b.1.2).2 (leBytes 2 b.2.side)
    have put : (dwPut c r x e b).mem = (dwPut c r x d b).mem := ((dwPut_mem r x b).trans side).trans (dwPut_mem r x b).symm
    have fd := dwFrame_dwPut (c := c) r x b sd
    have fe := dwFrame_dwPut (c := c) r x b se
    exact foldl_dwPut_mem_eq hc l (hd.trans fd) (he.trans fe) (fd.upset sd) (fe.upset se) put

/-- A byte that lies in none of the listed blocks, of 32 codes at most, and in none of their side words keeps its value. -/
theorem rdB_foldl_dwPut_other (a : Nat) : ∀ (l : List ((Nat × Nat) × DwBlock)) (d : Dev), (∀ e ∈ l, e.2.codes.length ≤ 32 ∧
      (a < (dwPlace r x e.1.1 e.1.2).1 ∨ (dwPlace r x e.1.1 e.1.2).1 + 64 ≤ a) ∧
      (a < (dwPlace r x e.1.1 e.1.2).2 ∨ (dwPlace r x e.1.1 e.1.2).2 + 2 ≤ a)) → rdB (l.foldl (dwPut c r x) d) a = rdB d a
  | [], _, _ => rfl
  | b :: l, d, out => by
    obtain ⟨short, codes, side⟩ := out b List.mem_cons_self
    have bytes : (packCodes 16 b.2.codes).length = 2 * b.2.codes.length := by simp [packCodes, leBytes, Nat.mul_comm]
    have put : rdB (dwPut c r x d b) a = rdB d a := by
      unfold rdB
      rw [dwPut_mem]
      refine (rdB_engWrite_other _ _ _ a (by simpa [leBytes] using side)).trans (rdB_engWrite_other _ _ _ a ?_)
      omega
    exact (rdB_foldl_dwPut_other a l _ fun e he => out e (List.mem_cons_of_mem _ he)).trans put
end dwPut

/-- A fold whose steps all answer. -/
theorem foldlM_ok {σ α : Type} {k : σ → α → Res σ} {f : σ → α → σ} {P : σ → Prop} (hk : ∀ s a, P s → k s a = .ok (f s a))
    (hP : ∀ s a, P s → P (f s a)) : ∀ (l : List α) (s : σ), P s → l.foldlM k s = .ok (l.foldl f s)
  | [], _, _ => rfl
  | a :: l, s, h => by
    rw [List.foldlM_cons, hk s a h]
    exact foldlM_ok hk hP l (f s a) (hP s a h)

/-- While no update sweep runs the coefficient table is not guarded, and every block is stored (R405). -/
theorem dwStore_unguarded {c : Nat} {d : Dev} (r : DwRun) (x : Desc) (bs : List DwBlock) (hc : okCell c = true) (sound : d.upset = [])
    (quiet : sweeping d = false) : dwStore d c r x bs = .ok ((dwTile.zip bs).foldl (dwPut c r x) d) := by
  refine foldlM_ok (P := fun d => sweeping d = false ∧ d.upset = []) (fun d e ⟨quiet, _⟩ => ?_) (fun d e ⟨quiet, sound⟩ => ?_) _ d ⟨quiet, sound⟩
  · simp only [coefGuard, quiet, Bool.false_and]
    rfl
  · have kept := dwFrame_dwPut (c := c) r x e sound
    exact ⟨(kept.sweeping_eq hc).trans quiet, kept.upset sound⟩

/-- A block of a tile has no more than 32 codes, added to the stored ones or not (R197). -/
theorem dwBlocks_codes_length {r : DwRun} {old : List (List Nat × Nat)} {q : DwBlock} (h : q ∈ dwBlocks r old) : q.codes.length ≤ 32 := by
  obtain ⟨⟨b, o⟩, -, rfl⟩ := List.mem_map.1 h
  simp only [dwBlock]
  split
  · simp
  · simp only [List.length_map, List.length_zip, List.length_take]
    omega

/-- The places of the blocks of a tile that is stored are ranges that its memory side touches. -/
theorem mem_dwRanges {r : DwRun} {x : Desc} (stores : r.last = false) {b : Nat × Nat} (h : b ∈ dwTile) :
    ((dwPlace r x b.1 b.2).1, 64) ∈ dwRanges r x ∧ ((dwPlace r x b.1 b.2).2, 2) ∈ dwRanges r x := by
  simp only [dwRanges, stores, Bool.and_false, Bool.false_eq_true, if_false, List.mem_flatMap]
  exact ⟨⟨b, h, by simp⟩, ⟨b, h, by simp⟩⟩

/-- A byte outside the ranges of a tile keeps its value when the tile is stored. -/
theorem rdB_stored_other {c : Nat} {d : Dev} {r : DwRun} {x : Desc} {old : List (List Nat × Nat)} {a : Nat} (stores : r.last = false)
    (out : ∀ p ∈ dwRanges r x, a < p.1 ∨ p.1 + p.2 ≤ a) : rdB ((dwTile.zip (dwBlocks r old)).foldl (dwPut c r x) d) a = rdB d a := by
  refine rdB_foldl_dwPut_other r x a _ d fun e he => ?_
  obtain ⟨tile, block⟩ := List.of_mem_zip (a := e.1) (b := e.2) he
  obtain ⟨codes, side⟩ := mem_dwRanges (x := x) stores tile
  exact ⟨dwBlocks_codes_length block, out _ codes, out _ side⟩

/-- A tile whose residues all agree is stored behind its reading and counting as it would be before: the frame holds all that decides where an engine writes. -/
theorem dwStore_counted {c : Nat} {d : Dev} {r : DwRun} {x : Desc} (hc : okCell c = true) (sound : d.upset = []) (stores : r.last = false)
    (good : (dwBlocks r (dwRead d c r x).1).any (·.bad) = false) (quiet : sweeping d = false) :
    ∃ e, dwStore (dwCounts (dwRead d c r x).2 c r x (dwBlocks r (dwRead d c r x).1)) c r x (dwBlocks r (dwRead d c r x).1) = .ok e ∧
      DwFrame c d e ∧ (dwStore d c r x (dwBlocks r (dwRead d c r x).1)).toOption.map (·.mem) = some e.mem ∧
      ∀ a, (∀ p ∈ dwRanges r x, a < p.1 ∨ p.1 + p.2 ≤ a) → rdB e a = rdB d a := by
  have read : DwFrame c d (dwRead d c r x).2 := dwFrame_dwRead r x sound
  have counted := read.trans (dwFrame_dwCounts r x (read.upset sound) good)
  have same : (dwCounts (dwRead d c r x).2 c r x (dwBlocks r (dwRead d c r x).1)).mem = d.mem := (dwCounts_mem ..).trans (dwRead_mem ..)
  generalize dwCounts (dwRead d c r x).2 c r x (dwBlocks r (dwRead d c r x).1) = e at counted same
  have sound' := counted.upset sound
  have frame := DwFrame.foldl id (fun d b => dwFrame_dwPut (c := c) r x b) (dwTile.zip (dwBlocks r (dwRead d c r x).1)) e sound'
  refine ⟨_, dwStore_unguarded r x _ hc sound' ((counted.sweeping_eq hc).trans quiet), counted.trans frame, ?_, fun a out => ?_⟩
  · rw [dwStore_unguarded r x _ hc sound quiet]
    exact congrArg some (foldl_dwPut_mem_eq r x hc _ (DwFrame.refl c d) counted sound sound' same).symm
  · exact (rdB_stored_other stores out).trans (congrArg (tabGet memDefault · a) same)

/-! ### DWACC_COMPLETE -/

theorem exec_dwaccComplete (c : Nat) (s : State) : exec (.dwaccComplete c) s = happen (.dwaccComplete c) clocked (fun d => dwaccComplete d c) s := rfl

section one
variable {d : Dev} {c : Nat} {r : DwRun} {x : Desc} (idle : (cellOf d c).due = []) (one : (cellOf d c).dwMem = [r]) (stores : r.last = false)
  (hx : r.d = some x)
include idle one stores hx

/-- Without a class for its bytes the DWACC waits (R332). -/
theorem dwaccComplete_waits (placed : dwBad d r x = none) (may : dwMay d (galleryOfCell c) r x = false) : dwaccComplete d c = .ok d := by
  have settled : settleNow d c = .ok d := settle_nil idle
  simp [dwaccComplete, bind, Except.bind, pure, Except.pure, settled, one, stores, hx, placed, may]

/-- Bytes that no DMA may touch are a fault (R304). -/
theorem dwaccComplete_bad {a : Nat} (bad : dwBad d r x = some a) : dwaccComplete d c = .ok (dwFault d c a r) := by
  have settled : settleNow d c = .ok d := settle_nil idle
  simp [dwaccComplete, bind, Except.bind, pure, Except.pure, settled, one, stores, hx, bad]

/-- With a class for every access the blocks are made, counted and stored, and the DWACC leaves the cell and counts (R196, R197). -/
theorem dwaccComplete_stores {e : Dev} (placed : dwBad d r x = none) (may : dwMay d (galleryOfCell c) r x = true)
    (stored : dwStore (dwCounts (dwRead d c r x).2 c r x (dwBlocks r (dwRead d c r x).1)) c r x (dwBlocks r (dwRead d c r x).1) = .ok e) :
    dwaccComplete d c = .ok (dwLeave e c r true) := by
  have settled : settleNow d c = .ok d := settle_nil idle
  simp [dwaccComplete, bind, Except.bind, pure, Except.pure, settled, one, stores, hx, placed, may, stored]
end one

/-- The DWACC leaves a cell in service and counts at its hold counter (R39, R196). -/
theorem cellOf_dwLeave {d : Dev} {c : Nat} {r : DwRun} (up : portUp d (cellPort c) = true) (k : Nat) : cellOf (dwLeave d c r true) k =
    if k = c then holdCredit { cellOf d c with dwMem := (cellOf d c).dwMem.erase r } { h := r.h, n := 1, know := r.know, nclk := none }
    else cellOf d k := by
  have up' : portUp (modCell d c fun x => { x with dwMem := x.dwMem.erase r }) (cellPort c) = true := up
  simp only [dwLeave, countAt, up', if_true, cellOf_modCell]
  split <;> rfl

/-- Leaving touches nothing but cells. -/
theorem dwLeave_frame {β : Type} {F : Dev → β} (hF : ∀ d c (f : Cell → Cell), F (modCell d c f) = F d) (d : Dev) (c : Nat) (r : DwRun) (count : Bool) :
    F (dwLeave d c r count) = F d := by
  unfold dwLeave countAt
  dsimp only
  split
  · split
    · exact (hF ..).trans (hF ..)
    · exact hF ..
  · exact hF ..

/-- Settles O24: a DWACC that waits changes nothing, one with bad bytes leaves the cell and raises its fault, and any other keeps the frame of
`DwFrame` and then leaves. That frame holds all that decides where an engine writes, so the tile is stored as it would be in the state before. -/
theorem dwaccStoresAndCounts : Obligations.DwaccStoresAndCounts := by
  unfold Obligations.DwaccStoresAndCounts
  intro s c r x runs calm hc up idle one stores hx sound
  refine ⟨fun placed may => ?waits, fun a bad outside => ?bad, fun placed may good quiet => ?stores⟩
  case waits =>
    exact (exec_dwaccComplete c s).trans (happen_ok hc runs (dwaccComplete_waits idle one stores hx placed may) calm)
  case bad =>
    refine ⟨_, (exec_dwaccComplete c s).trans (happen_faults hc runs (dwaccComplete_bad idle one stores hx bad)), ?_⟩
    obtain ⟨cells, shown⟩ := takeFaults_raise_shown (d := modCell s.dev c fun y => { y with dwMem := y.dwMem.erase r })
      { kind := 4, sub := 1, port := galleryPort (galleryOfCell c), bundle := none, addr := a % 2 ^ 48, detail := 0, cell := none, abandons := true }
      calm outside
    refine ⟨shown, ?_⟩
    have left : cellOf (modCell s.dev c fun y => { y with dwMem := y.dwMem.erase r }) c = { cellOf s.dev c with dwMem := [] } := by simp [one]
    exact (congrArg (tabGet _ · c) cells).trans left
  case stores =>
    obtain ⟨e, stored, frame, mem, out⟩ := dwStore_counted hc sound stores good quiet
    have effect := dwaccComplete_stores idle one stores hx placed may stored
    have cells := cellOf_dwLeave (r := r) ((frame.portUp_eq _).trans up)
    refine ⟨_, (exec_dwaccComplete c s).trans (happen_ok hc runs effect ?calm), rfl, ?ports, fun o ne => ?regs, ?mem, fun a far => ?bytes, ?cell,
      fun k ne => ?others⟩
    case calm => exact (dwLeave_frame (F := (·.raised)) (fun _ _ _ => rfl) e c r true).trans (frame.raised.trans calm)
    case ports => exact (dwLeave_frame (F := (·.ports)) (fun _ _ _ => rfl) e c r true).trans frame.ports
    case regs => exact (dwLeave_frame (F := (rg · o)) (fun _ _ _ => rfl) e c r true).trans (frame.regs o ne)
    case mem => exact mem.trans (congrArg some (dwLeave_mem e c r true).symm)
    case bytes => exact (dwLeave_frame (F := (rdB · a)) (fun _ _ _ => rfl) e c r true).trans (out a far)
    case cell =>
      dsimp only
      rw [cells c, if_pos rfl, frame.cell]
      simp [one, holdCredit, holdAdd, holdSet, holdCount, holdTarget]
    case others => exact (cells k).trans ((if_neg ne).trans (frame.others k ne))

end Sys2Proof.Machine
end

section
/-! SUPPORT. The end of a VSOLVE (06_vector_engine.md, R230, R231): the solution, the count of replaced pivots in the scalar register and in
VX_SING. All are parts of the one cell, though the counting is a second write of it. -/

namespace Sys2Proof.Machine
open Sys2Proof.Safety

/-! ### What the writes of registers leave -/

/-- The write of a scalar register leaves whatever is not of the scalar registers. -/
theorem sPut_frame {β : Type} {F : Cell → β} (hF : ∀ x t, F { x with s := t } = F x) (x : Cell) (r : Nat) (v : W64) : F (sPut x r v) = F x := by
  unfold sPut
  split
  · rfl
  · exact hF x _

/-! ### The pivots that a VSOLVE has replaced -/

/-- The cell after `n` replaced pivots: VX_SING counts them (R230), but not in visiting hours (R367). -/
def countSing (n : Nat) (x : Cell) : Cell :=
  if n = 0 ∨ x.visiting = true then x else { x with vx := { x.vx with sing := satAdd 32 x.vx.sing n, flag := true } }

/-- The pivots of a cell count as they do in a cell that is visiting as it is. -/
theorem countSing_of_visiting (n : Nat) {x y : Cell} (same : y.visiting = x.visiting) : countSing n y =
    if n = 0 ∨ x.visiting = true then y else { y with vx := { y.vx with sing := satAdd 32 y.vx.sing n, flag := true } } := by
  rw [countSing, same]

theorem countSing_due (n : Nat) (x : Cell) : (countSing n x).due = x.due := by
  unfold countSing
  split <;> rfl

/-- Counting the pivots of a cell writes nothing but cells. -/
theorem vxSing_only_cells (d : Dev) (c n : Nat) : vxSing d c n = { d with cells := (vxSing d c n).cells } := by
  unfold vxSing
  dsimp only
  split <;> rfl

theorem cellOf_vxSing (d : Dev) (c n k : Nat) : cellOf (vxSing d c n) k = if k = c then countSing n (cellOf d c) else cellOf d k := by
  by_cases quiet : n = 0 ∨ (cellOf d c).visiting = true
  · by_cases e : k = c <;> simp [vxSing, countSing, quiet, e]
  · simp [vxSing, countSing, quiet]

/-! ### The end of a VSOLVE -/

/-- The cell whose VSOLVE `r` has ended: the engine is free, the solution and the count are in their registers (R231). -/
def putSolution (r : SolveRun) (xs : List (Nat × W32)) (n : Nat) (x : Cell) : Cell :=
  sPut (vPutL { x with solve := none } r.b xs) r.d (BitVec.ofNat 64 n)

theorem putSolution_due (r : SolveRun) (xs : List (Nat × W32)) (n : Nat) (x : Cell) : (putSolution r xs n x).due = x.due :=
  sPut_frame (F := (·.due)) (fun _ _ => rfl) _ _ _

theorem putSolution_visiting (r : SolveRun) (xs : List (Nat × W32)) (n : Nat) (x : Cell) : (putSolution r xs n x).visiting = x.visiting :=
  sPut_frame (F := (·.visiting)) (fun _ _ => rfl) _ _ _

theorem solveDone_some {d : Dev} {c : Nat} {r : SolveRun} (runs : (cellOf d c).solve = some r) (xs : List (Nat × W32)) (n : Nat) :
    solveDone d c xs n = vxSing (modCell d c (putSolution r xs n)) c n := by
  unfold solveDone
  rw [runs]
  rfl

theorem cellOf_solveDone {d : Dev} {c : Nat} {r : SolveRun} (runs : (cellOf d c).solve = some r) (xs : List (Nat × W32)) (n k : Nat) :
    cellOf (solveDone d c xs n) k = if k = c then countSing n (putSolution r xs n (cellOf d c)) else cellOf d k := by
  rw [solveDone_some runs, cellOf_vxSing]
  by_cases e : k = c <;> simp [e]

theorem solveDone_only_cells {d : Dev} {c : Nat} {r : SolveRun} (runs : (cellOf d c).solve = some r) (xs : List (Nat × W32)) (n : Nat) :
    solveDone d c xs n = { d with cells := (solveDone d c xs n).cells } := by
  rw [solveDone_some runs]
  exact vxSing_only_cells (modCell d c (putSolution r xs n)) c n

/-! ### The one effect that a cell owes, of several writes -/

/-- A command whose event is the one effect that its cell owes, where the effect writes nothing but cells and is read in that cell alone. -/
theorem ownEvent_changesCell_of_reads {cmd : Instr} {s : State} {c : Nat} {u : Due} {p : Micro → Bool} {e : Dev} {x : Cell}
    (ex : exec cmd s = happen cmd clocked (fun d => cellEvent d c p) s) (wf : cmd.wf = okCell c) (picks : p u.op = true) (owes : OwesOne s c u)
    (run : runMicro (nothingOwed s.dev c) c u.edge u.op = .ok e) (only : e = { s.dev with cells := e.cells })
    (reads : ∀ k, cellOf e k = if k = c then x else cellOf s.dev k) (rest : x.due = []) : ChangesCell cmd s c x := by
  obtain ⟨runs, calm, hc, one, due⟩ := owes
  have own : cellOf e c = x := (reads c).trans (if_pos rfl)
  have settles : settle s.dev c u.edge = .ok e := settle_one one (Nat.le_refl _) run (own ▸ rest)
  have event : cellEvent s.dev c p = .ok e := by simp [cellEvent, one, picks, due, settles]
  have acts : Yields cmd s e := ex.trans (happen_ok (wf.trans hc) runs event ((congrArg Dev.raised only).trans calm))
  exact ⟨e.cells, only ▸ acts, own, fun j ne => (reads j).trans (if_neg ne)⟩

/-- Settles O23: the end is the one effect that the cell owes; the writes of the registers leave what it owes and whether it is visiting, so
the pivots count as the cell stood before. -/
theorem solveWritesItsResult : Obligations.SolveWritesItsResult := by
  unfold Obligations.SolveWritesItsResult
  intro s c e ph i n xs r owes busy y
  have runs : (cellOf (nothingOwed s.dev c) c).solve = some r := by simpa using busy
  have ended : ChangesCell (.vsolveComplete c) s c (countSing n (putSolution r xs n { cellOf s.dev c with due := [] })) := by
    refine ownEvent_changesCell_of_reads rfl rfl rfl owes rfl (solveDone_only_cells runs xs n) (fun k => ?reads) ?rest
    case reads =>
      refine (cellOf_solveDone runs xs n k).trans ?_
      by_cases own : k = c <;> simp [own]
    case rest => exact (countSing_due _ _).trans (putSolution_due _ _ _ _)
  have visits : (putSolution r xs n { cellOf s.dev c with due := [] }).visiting = (cellOf s.dev c).visiting := putSolution_visiting ..
  rw [countSing_of_visiting n visits] at ended
  exact ended

end Sys2Proof.Machine
end

section
/-! SUPPORT. BUNDLE_ISSUE of a docent that looks at its bundle with nothing under way (07_docent_isa.md, R240–R253, R280): the bundle stops the
docent, is held, or issues; one with a scalar operation, and at most a wait in its sync slot, changes the cell alone. -/

namespace Sys2Proof.Machine
open Sys2Proof.Safety

/-! ### A device that differs in one cell -/

/-- `e` is `d` with cell `c` as `x`. -/
structure RewritesCell (d : Dev) (c : Nat) (x : Cell) (e : Dev) : Prop where
  only : e = { d with cells := e.cells }
  reads : ∀ k, cellOf e k = if k = c then x else cellOf d k

theorem rewritesCell_modCell (d : Dev) (c : Nat) (f : Cell → Cell) : RewritesCell d c (f (cellOf d c)) (modCell d c f) :=
  ⟨rfl, fun k => cellOf_modCell d c k f⟩

theorem rewritesCell_putCell (d : Dev) (c : Nat) (x : Cell) : RewritesCell d c x (putCell d c x) := rewritesCell_modCell d c fun _ => x

namespace RewritesCell
variable {d e : Dev} {c : Nat} {x : Cell}

theorem own (h : RewritesCell d c x e) : cellOf e c = x := (h.reads c).trans (if_pos rfl)

theorem mod (h : RewritesCell d c x e) (f : Cell → Cell) : RewritesCell d c (f x) (modCell e c f) where
  only := congrArg (fun u : Dev => { u with cells := (modCell e c f).cells }) h.only
  reads k := by
    rw [cellOf_modCell, h.own, h.reads]
    split <;> rfl

/-- A command that answers such a device, where no fault waits. -/
theorem changesCell {cmd : Instr} {s : State} (h : RewritesCell s.dev c x e) (calm : s.dev.raised = [])
    (acts : exec cmd s = .next { s with dev := takeFaults e }) : ChangesCell cmd s c x := by
  have quiet : e.raised = [] := (congrArg Dev.raised h.only).trans calm
  rw [takeFaults_none quiet] at acts
  exact ⟨e.cells, h.only ▸ acts, h.own, fun j ne => (h.reads j).trans (if_neg ne)⟩

end RewritesCell

/-! ### What the docent looks at -/

theorem exec_bundleIssue (c : Nat) (s : State) :
    exec (.bundleIssue c) s = happen (.bundleIssue c) clocked (fun d => bundleIssue d c (pushBarred d)) s := rfl

/-- Where no bit of memory is flipped a bundle is fetched without an error (R236). -/
theorem eccFetch_of_upset_nil {d : Dev} (c a : Nat) (h : d.upset = []) : eccFetch d c a = (false, d) := by simp [eccFetch, h]

theorem eq_ok_of_toOption {ε α : Type} {r : Except ε α} {a : α} (h : r.toOption = some a) : r = .ok a := by
  cases r with
  | ok b => exact congrArg _ (Option.some.inj h)
  | error k => cases h

section looks
variable {s : State} {c : Nat} (looks : LooksAt s c)
include looks

/-- The docent looks at its bundle at the cell's present edge, and at no other. -/
theorem bundleIssue_looks (extra : Bool) : bundleIssue s.dev c extra = tryIssue (cellEdge s.dev c + 1) s.dev c (cellEdge s.dev c) extra := by
  obtain ⟨_, _, _, up, _, _, _, runs, _, _, wait, thawed, ungated, _⟩ := looks
  simp [bundleIssue, overdue, resumeCell, lookEdge, runs, up, wait, thawed, ungated]

theorem bundleIssue_illegal {k : Nat} (bad : fetch s.dev c = .error k) (extra : Bool) :
    bundleIssue s.dev c extra = .ok (illegalBundle s.dev c k) := by
  rw [bundleIssue_looks looks]
  obtain ⟨_, _, _, _, ⟨_, _, _, sound, _⟩, _, _, _, _, idle, _, _, _, _, _, _, at_⟩ := looks
  simp [tryIssue, bind, Except.bind, pure, Except.pure, at_, settle_nil idle, eccFetch_of_upset_nil _ _ sound, bad]

variable {b : Bundle} (fetched : fetch s.dev c = .ok b) (ready : localReady (cellOf s.dev c) (cellEdge s.dev c) b = true)
include fetched ready

theorem bundleIssue_held {w : Nat × Nat × Nat} (waits : awaited s.dev c b = some w) (extra : Bool) :
    bundleIssue s.dev c extra = .ok (holdCell s.dev c (cellEdge s.dev c) w) := by
  rw [bundleIssue_looks looks]
  obtain ⟨_, _, _, _, ⟨_, _, _, sound, _⟩, _, _, _, _, idle, _, _, _, _, _, _, at_⟩ := looks
  simp [tryIssue, bind, Except.bind, pure, Except.pure, at_, settle_nil idle, eccFetch_of_upset_nil _ _ sound, fetched, ready, waits]

theorem bundleIssue_issues (waits : awaited s.dev c b = none) (extra : Bool) :
    bundleIssue s.dev c extra = issueBundle s.dev c (cellEdge s.dev c) b extra := by
  rw [bundleIssue_looks looks]
  obtain ⟨_, _, _, _, ⟨_, _, _, sound, _⟩, _, _, _, _, idle, _, _, ungated, _, _, _, at_⟩ := looks
  simp [tryIssue, bind, Except.bind, at_, settle_nil idle, eccFetch_of_upset_nil _ _ sound, fetched, ready, waits, ungated]

end looks

/-! ### The issue of a bundle whose other slots are empty -/

/-- A bundle with a scalar operation and a sync operation. -/
abbrev syncBundle (o : ScalarOp) (y : SyncOp) : Bundle := { scalarBundle o with sync := y }

/-- One slot alone writes no register twice (R242). -/
theorem doubleWrites_syncBundle (o : ScalarOp) (y : SyncOp) : doubleWrites (syncBundle o y) = false := by
  simp [doubleWrites, vecScalarDest]

/-- No local hold point keeps such a bundle but that of its scalar operation (R271, R279). -/
theorem localReady_syncBundle (x : Cell) (e : Nat) (o : ScalarOp) (y : SyncOp) : localReady x e (syncBundle o y) = scalarReady x e o := by
  simp [localReady, fwdReady, bwdReady, vecReady, redReady]

/-- The cell whose bundle issues at the edge that it has reached (R240): it looks at the next bundle one edge later. -/
abbrev issuing (d : Dev) (c : Nat) : Cell := { cellOf d c with nextEdge := cellEdge d c + 1 }

/-- The cell as it goes on: at the next address, one issue nearer to its redirects (R249). -/
def goOn (x : Cell) : Cell := { x with pc := (x.pc + 1) % 4096, redirects := x.redirects.map fun r => { r with left := r.left - 1 } }

/-- The cell whose docent HALT stops behind the bundle at `pc` (R253). -/
def haltAfter (pc : Nat) (x : Cell) : Cell := { x with pc := (pc + 1) % 4096, loops := [], redirects := [], running := false }

/-- Where no redirect is pending, none comes nearer. -/
theorem goOn_of_no_redirect {x : Cell} (straight : x.redirects = []) : goOn x = { x with pc := (x.pc + 1) % 4096 } := by
  have same : x.redirects.map (fun r => { r with left := r.left - 1 }) = x.redirects := by simp [straight]
  exact congrArg (fun l => { x with pc := (x.pc + 1) % 4096, redirects := l }) same

/-- Outside a loop, with no redirect due, issue goes on at the next address. -/
theorem advance_next {x : Cell} (outside : x.loops = []) (far : ∀ r ∈ x.redirects, r.left ≠ 0) : advance x .next = (goOn x, false) := by
  cases h : x.redirects with
  | nil => simp [advance, goOn, loopBack, popLoops, h, outside]
  | cons r t => simp [advance, goOn, loopBack, popLoops, h, outside, far r (by simp [h])]

/-- No WINBASE is pending, so none comes nearer (R270). -/
theorem advanceWindow_of_none {x : Cell} (still : x.winPend = []) : advanceWindow x = x := by
  have same : x.winPend.map (fun r => { r with left := r.left - 1 }) = x.winPend := by simp [still]
  exact congrArg (fun w => { x with winPend := w }) same

/-- The end of an issue, all slots having begun: where the docent goes on after the bundle at `pc` (R249–R253). -/
def concludeIssue (d : Dev) (c pc : Nat) : Flow → Dev
  | .halt => flushRun (putCell d c (haltAfter pc (advanceWindow (cellOf d c)))) c
  | f =>
    let r := advance (cellOf d c) f
    let d := putCell d c (advanceWindow r.1)
    if r.2 then flushRun d c else d

section conclude
variable {d : Dev} {c : Nat} (still : (cellOf d c).winPend = [])
include still

theorem concludeIssue_next (pc : Nat) (outside : (cellOf d c).loops = []) (far : ∀ r ∈ (cellOf d c).redirects, r.left ≠ 0) :
    concludeIssue d c pc .next = modCell d c goOn := by
  have window : advanceWindow (goOn (cellOf d c)) = goOn (cellOf d c) := advanceWindow_of_none still
  simp [concludeIssue, advance_next outside far, window]
  rfl

theorem concludeIssue_halt (pc : Nat) (idle : (cellOf d c).trun = none) : concludeIssue d c pc .halt = modCell d c (haltAfter pc) := by
  rw [concludeIssue, advanceWindow_of_none still, flushRun_none (by simpa [haltAfter] using idle)]
  rfl
end conclude

section issue
variable {s : State} {c : Nat} (looks : LooksAt s c)
include looks

theorem issueBundle_concludes {o : ScalarOp} {y : SyncOp} {x : Cell} {flow : Flow} (extra : Bool)
    (scalar : issueScalar s.dev c (issuing s.dev c) (cellEdge s.dev c) o = .ok (x, flow))
    (begun : x.started = false) : issueBundle s.dev c (cellEdge s.dev c) (syncBundle o y) extra =
      .ok (concludeIssue (issueSync (putCell s.dev c x) c (cellEdge s.dev c) (cellOf s.dev c).pc extra y) c (cellOf s.dev c).pc flow) := by
  obtain ⟨_, _, _, _, ⟨live, ended, _, _, clean, _⟩, ⟨off, _⟩, count, _, _, _, wait, _, _, _, _, win, _⟩ := looks
  have covered : progUncovered s.dev c (cellOf s.dev c).pc = false := by simp [progUncovered, live, ended, endedFor]
  have stays : moveWindow s.dev c = .ok s.dev := by simp [moveWindow, win]
  have sound : ∀ regs, vregEcc s.dev c regs = s.dev := by simp [vregEcc, clean]
  have quiet : ∀ b w n l, traceIssue s.dev c (cellEdge s.dev c) (cellOf s.dev c).pc b w n l = s.dev := by simp [traceIssue, off]
  have same : issuing s.dev c = { cellOf s.dev c with wait := none, nextEdge := cellEdge s.dev c + 1 } :=
    congrArg (fun w => { cellOf s.dev c with wait := w, nextEdge := cellEdge s.dev c + 1 }) wait
  rw [same] at scalar
  simp only [issueBundle, doubleWrites_syncBundle, covered, stays, sound, quiet, wait, count, bind, Except.bind, pure, Except.pure, Bool.false_and,
    Bool.false_eq_true, if_false, scalar, issueForward, issueBackward, issueDma, begun]
  cases flow <;> rfl

/-- Where no command has yet to complete, only the sync slot of such a bundle can be awaited (R280). -/
theorem awaited_scalarBundle (o : ScalarOp) : awaited s.dev c (scalarBundle o) = none := by
  obtain ⟨_, _, _, _, _, _, _, _, begun, _⟩ := looks
  simp [awaited, begun]

theorem awaited_waith (o : ScalarOp) (h : Nat) :
    awaited s.dev c (syncBundle o (.waith h)) = if holdSeen (cellOf s.dev c) h then none else some (1, h, 0) := by
  obtain ⟨_, _, _, _, _, _, _, _, begun, _⟩ := looks
  simp [awaited, begun]

/-- What BUNDLE_ISSUE changes where it raises no fault. -/
theorem bundleIssue_changesCell {x : Cell} {e : Dev} (eff : bundleIssue s.dev c (pushBarred s.dev) = .ok e) (cell : RewritesCell s.dev c x e) :
    ChangesCell (.bundleIssue c) s c x := by
  obtain ⟨runs, calm, hc, _⟩ := looks
  exact cell.changesCell calm ((exec_bundleIssue c s).trans (happen_faults hc runs eff))

end issue

/-! ### Bundles of one scalar operation -/

/-- A result is the one effect owed by a cell that owed nothing. -/
theorem schedRes_of_idle {x : Cell} (edge iss : Nat) (op : Micro) (idle : x.due = []) :
    schedRes x edge iss op = { x with due := [{ edge := edge, phase := 0, iss := iss, op := op }] } :=
  congrArg (fun l => { x with due := insDue { edge := edge, phase := 0, iss := iss, op := op } l }) idle

section scalar
variable {s : State} {c : Nat} {o : ScalarOp} (issues : IssuesNow s c o) (ready : scalarReady (cellOf s.dev c) (cellEdge s.dev c) o = true)
include issues ready

theorem bundleIssue_scalar {y : Cell} {flow : Flow} (extra : Bool)
    (scalar : issueScalar s.dev c (issuing s.dev c) (cellEdge s.dev c) o = .ok (y, flow))
    (begun : y.started = false) :
    bundleIssue s.dev c extra = .ok (concludeIssue (putCell s.dev c y) c (cellOf s.dev c).pc flow) := by
  obtain ⟨looks, fetched⟩ := issues
  rw [bundleIssue_issues looks (eq_ok_of_toOption fetched) ((localReady_syncBundle _ _ o .none).trans ready) (awaited_scalarBundle looks o) extra,
    issueBundle_concludes looks extra scalar begun]
  rfl

/-- An operation after which the docent goes on. -/
theorem scalarNext_changesCell {y : Cell}
    (scalar : issueScalar s.dev c (issuing s.dev c) (cellEdge s.dev c) o = .ok (y, .next))
    (begun : y.started = false) (outside : y.loops = []) (still : y.winPend = []) (far : ∀ r ∈ y.redirects, r.left ≠ 0) :
    ChangesCell (.bundleIssue c) s c (goOn y) := by
  have eff := bundleIssue_scalar issues ready (pushBarred s.dev) scalar begun
  rw [concludeIssue_next (by simpa using still) _ (by simpa using outside) (by simpa using far)] at eff
  exact bundleIssue_changesCell issues.1 eff ((rewritesCell_putCell ..).mod goOn)

/-- An operation that leaves what the cell owes as `due`. -/
theorem scalarDue_changesCell {due : List Due}
    (scalar : issueScalar s.dev c (issuing s.dev c) (cellEdge s.dev c) o =
      .ok ({ issuing s.dev c with due := due }, .next)) :
    ChangesCell (.bundleIssue c) s c
      { issuing s.dev c with pc := ((cellOf s.dev c).pc + 1) % 4096, due := due } := by
  have ⟨⟨_, _, _, _, _, _, _, _, begun, _, _, _, _, outside, straight, still, _⟩, _⟩ := issues
  have goes := scalarNext_changesCell issues ready scalar begun outside still (by simp [straight])
  rwa [goOn_of_no_redirect (by exact straight)] at goes

/-- An operation with a result. -/
theorem scalarResult_changesCell {edge : Nat} {op : Micro}
    (scalar : issueScalar s.dev c (issuing s.dev c) (cellEdge s.dev c) o =
      .ok (schedRes (issuing s.dev c) edge (cellEdge s.dev c) op, .next)) :
    ChangesCell (.bundleIssue c) s c
      { issuing s.dev c with pc := ((cellOf s.dev c).pc + 1) % 4096
                             due := [{ edge := edge, phase := 0, iss := cellEdge s.dev c, op := op }] } := by
  have ⟨⟨_, _, _, _, _, _, _, _, _, idle, _⟩, _⟩ := issues
  rw [schedRes_of_idle edge _ op (by exact idle)] at scalar
  exact scalarDue_changesCell issues ready scalar
end scalar

/-- The redirect that a branch to `target` pushes where it is taken, `left` issues away (R249). -/
def branchTo (taken : Bool) (target left : Nat) : List Delayed := if taken then [{ value := target, left := left }] else []

/-- A branch pushes its redirect behind no other. -/
theorem issueScalar_br {d : Dev} {c e : Nat} {x : Cell} (k : BrCond) (a target : Nat) (straight : x.redirects = []) :
    issueScalar d c x e (.br k a target) = .ok ({ x with redirects := branchTo (brTaken k (sGet x a)) target 2 }, .next) := by
  have pushed : branchTo (brTaken k (sGet x a)) target 2 = x.redirects ++ branchTo (brTaken k (sGet x a)) target 2 := by rw [straight, List.nil_append]
  rw [pushed, issueScalar]
  cases brTaken k (sGet x a)
  case true => rfl
  case false => simp [branchTo]

theorem branchTo_far {taken : Bool} {target left : Nat} (far : left ≠ 0) : ∀ r ∈ branchTo taken target left, r.left ≠ 0 := by
  cases taken <;> simp [branchTo, far]

/-- One issue later the redirect is one issue nearer. -/
theorem branchTo_nearer (taken : Bool) (target left : Nat) :
    (branchTo taken target (left + 1)).map (fun r => { r with left := r.left - 1 }) = branchTo taken target left := by
  cases taken <;> rfl

/-- Settles O18: with no loop, redirect or WINBASE pending the docent goes on at the next address; a branch taken pushes the only redirect, and
HALT alone ends otherwise. -/
theorem scalarBundleIssues : Obligations.ScalarBundleIssues := by
  unfold Obligations.ScalarBundleIssues
  intro s c x e next
  refine ⟨fun issues => ?snop, fun op r a b issues => ?alu, fun op r a imm issues => ?aluImm, fun r imm issues => ?li, fun k a target issues => ?br,
    fun issues => ?halt⟩
  case snop => exact scalarDue_changesCell issues rfl rfl
  case alu => exact scalarResult_changesCell issues rfl rfl
  case aluImm => exact scalarResult_changesCell issues rfl rfl
  case li => exact scalarResult_changesCell issues rfl rfl
  case br =>
    have ⟨⟨_, _, _, _, _, _, _, _, begun, _, _, _, _, outside, straight, still, _⟩, _⟩ := issues
    have goes := scalarNext_changesCell issues rfl (issueScalar_br k a target straight) begun outside still (branchTo_far (by decide))
    simp only [goOn, branchTo_nearer] at goes
    exact goes
  case halt =>
    have ⟨looks, _⟩ := issues
    have ⟨_, _, _, _, _, ⟨_, idle⟩, _, _, begun, _, _, _, _, outside, straight, still, _⟩ := looks
    have eff := bundleIssue_scalar issues rfl (pushBarred s.dev) rfl begun
    rw [concludeIssue_halt (by simpa using still) _ (by simpa using idle)] at eff
    have same : haltAfter x.pc (issuing s.dev c) = { next with running := false } := by
      simp [haltAfter, next, x, e, outside, straight]
    exact same ▸ bundleIssue_changesCell looks eff ((rewritesCell_putCell ..).mod (haltAfter x.pc))

/-! ### Illegal bundles, and bundles that wait -/

@[simp] theorem stopDocent_running (d : Dev) (c : Nat) : (cellOf (stopDocent d c) c).running = false := by
  unfold stopDocent
  split <;> simp [stopCell]

/-- DCT_ILL names the illegal bundle at which the docent has stopped (R234, R244). -/
theorem cellOf_illegalBundle {d : Dev} {c : Nat} (k : Nat) (idle : (cellOf d c).trun = none) :
    cellOf (illegalBundle d c k) c = { cellOf (stopDocent d c) c with ill := some (k, (cellOf d c).pc) } := by
  change cellOf (modCell (stopDocent (flushRun d c) c) c fun x => { x with ill := some (k, (cellOf d c).pc) }) c = _
  rw [flushRun_none idle, cellOf_modCell, if_pos rfl]

/-- Every version slot is retained again, unless a sweep is open (R364). -/
def retainAll (sweep : Bool) (x : Cell) : Cell := { x with stale := x.stale.filter fun _ => sweep }

/-- A hold point where no transfer and no write of a sweep has completed covers none; the slots of a sweep that is over are retained again. -/
theorem learn_coveredBy_of_none {d : Dev} {c h : Nat} (x : Cell) (ended : d.ended = []) (swept : d.sweep = []) :
    learn d x (coveredBy d c h) = retainAll (sweeping d) x := by
  have covers : coveredBy d c h = [] := by simp [coveredBy, ended, swept]
  have slots : sweepOpen d x.known = fun _ => sweeping d := by
    funext v
    simp [sweepOpen, swept]
  simp [learn, covers, slots, retainAll]

theorem issueSync_waith {d : Dev} {c : Nat} (e pc : Nat) (extra : Bool) (h : Nat) (ended : d.ended = []) (swept : d.sweep = []) :
    issueSync d c e pc extra (.waith h) = modCell d c (retainAll (sweeping d)) :=
  congrArg (putCell d c) (learn_coveredBy_of_none (cellOf d c) ended swept)

/-- The cell that stops before edge `e`, where a wait at its own counter `h` begins (R280, R284). -/
def heldBefore (e h since : Nat) (x : Cell) : Cell :=
  { x with frozen := some (e - 1), wait := some { sub := 1, h := h, port := 0, since := since, gated := 0 } }

theorem holdCell_own {d : Dev} {c : Nat} (e h : Nat) (idle : (cellOf d c).trun = none) (wait : (cellOf d c).wait = none)
    (ungated : (cellOf d c).gatedNow = false) : holdCell d c e (1, h, 0) = modCell d c (heldBefore e h (ticks d)) := by
  simp only [holdCell, flushRun_none idle, modCell, wait, ungated, heldBefore]
  rfl

/-- Settles O19: the three ways on from a look at the bundle; with nothing completed a hold point covers no transfer, so what it gives back is
the slots of a sweep that is over. -/
theorem bundlesWaitOrStop : Obligations.BundlesWaitOrStop := by
  unfold Obligations.BundlesWaitOrStop
  intro s c looks
  have ⟨runs, _, hc, _, ⟨_, ended, swept, _⟩, ⟨_, idle⟩, _, _, begun, _, wait, _, ungated, outside, straight, still, _⟩ := looks
  refine ⟨fun k bad => ?illegal, fun h fetched => ?waits⟩
  case illegal =>
    have cell := cellOf_illegalBundle k idle
    have stops := bundleIssue_illegal looks bad (pushBarred s.dev)
    exact ⟨(exec_bundleIssue c s).trans (happen_faults hc runs stops), by simp [cell], by rw [cell]⟩
  case waits =>
    have fetched := eq_ok_of_toOption fetched
    have ready := localReady_syncBundle (cellOf s.dev c) (cellEdge s.dev c) .snop (.waith h)
    have waits := awaited_waith looks .snop h
    refine ⟨fun missing => ?held, fun complete => ?issues⟩
    case held =>
      have eff := bundleIssue_held looks fetched ready (w := (1, h, 0)) (by simp [waits, missing]) (pushBarred s.dev)
      rw [holdCell_own _ h idle wait ungated] at eff
      exact bundleIssue_changesCell looks eff (rewritesCell_modCell s.dev c (heldBefore _ h _))
    case issues =>
      have eff := bundleIssue_issues looks fetched ready (by simp [waits, complete]) (pushBarred s.dev)
      have passes := issueSync_waith (d := putCell s.dev c (issuing s.dev c)) (c := c) (cellEdge s.dev c) (cellOf s.dev c).pc (pushBarred s.dev) h ended swept
      rw [issueBundle_concludes looks (x := issuing s.dev c) (pushBarred s.dev) rfl begun, passes,
        concludeIssue_next (by simpa [retainAll] using still) _ (by simpa [retainAll] using outside) (by simp [retainAll, straight])] at eff
      have changed := bundleIssue_changesCell looks eff (((rewritesCell_putCell ..).mod _).mod goOn)
      rwa [goOn_of_no_redirect (by exact straight)] at changed

end Sys2Proof.Machine
end

section
/-! SUPPORT. The DMA engines (08_timing_contract.md, 09_stores_and_almanac.md): one piece of an active transfer (R289, R323, R326, R332), the bytes that a
write piece leaves in memory, and the completion of a transfer (R325, R342). -/

namespace Sys2Proof.Machine
open Sys2Proof.Safety

/-! ### Completion -/

theorem exec_dmaComplete (g k : Nat) (s : State) :
    exec (.dmaComplete g k) s = happen (.dmaComplete g k) clocked (fun d => dmaComplete d g k) s := rfl

/-- A transfer with bytes left goes on. -/
theorem dmaComplete_unfinished {d : Dev} {g k : Nat} {x : Xfer} (active : (galOf d g).xs[k]? = some x) (open_ : xferDone x = false) :
    dmaComplete d g k = .ok d := by
  simp [dmaComplete, active, open_]

/-- A complete transfer whose bytes all found a place counts at its hold counter (R325). -/
theorem dmaComplete_counts {d : Dev} {g k h : Nat} {x : Xfer} (active : (galOf d g).xs[k]? = some x) (counter : x.h = some h)
    (placed : x.overflow = false) (done : xferDone x = true) (up : portUp d (cellPort x.cell) = true) : dmaComplete d g k =
    .ok (modCell { modGal d g fun y => { y with xs := y.xs.filter fun u => u.id != x.id } with
                   stash := d.stash ++ stashRows x, ended := d.ended ++ [{ x with buf := [] }] } x.cell fun y =>
      holdCredit y { h := h, n := 1, know := x.id :: x.cover, nclk := some (nclkAt d x.cell) }) := by
  simp only [dmaComplete, active, done, counter, placed, countAt]
  exact congrArg Except.ok (if_pos up)

/-- Settles O28: the two branches of `dmaComplete` that such a transfer can take. -/
theorem dmaCompletionCounts : Obligations.DmaCompletionCounts := by
  unfold Obligations.DmaCompletionCounts
  intro s g k h x runs calm hg active counter placed
  refine ⟨fun done up => ?_, fun open_ => ?_⟩
  · exact (exec_dmaComplete g k s).trans (happen_ok hg runs (dmaComplete_counts active counter placed done up) calm)
  · exact (exec_dmaComplete g k s).trans (happen_ok hg runs (dmaComplete_unfinished active open_) calm)

/-! ### The place of a piece -/

/-- Where an address of a folio store lies among the regions of R303. -/
theorem place_folio_bounds {d : Dev} {a c o : Nat} (at_ : place d a = .folio c o) :
    ¬(depotBase ≤ a ∧ a < depotBase + depotSize d) ∧ folioBase ≤ a ∧ a < folioBase + 384 * 0x80_0000 ∧ o = (a - folioBase) % 0x80_0000 ∧
      c = (a - folioBase) / 0x80_0000 ∧ o < folioSize := by
  unfold place at at_
  dsimp only at at_
  split_ifs at at_ with _ depot _ _ folio inside
  cases at_
  exact ⟨depot, folio.1, folio.2, rfl, rfl, inside⟩

/-- The bytes of an aligned 64 of a folio store lie in it (R326). -/
theorem place_folio_add {d : Dev} {a c o i : Nat} (at_ : place d a = .folio c o) (fits : a % 64 + i < 64) : place d (a + i) = .folio c (o + i) := by
  obtain ⟨depot, low, high, off, cell, inside⟩ := place_folio_bounds at_
  unfold place
  have hbm : hbmSize = 0xC0_0000_0000 := rfl
  have depots : depotBase = 0x1000_0000_0000 := rfl
  have gallery : galleryBase = 0x2000_0000_0000 := rfl
  have cells : folioBase = 0x2100_0000_0000 := rfl
  have size : folioSize = 0x40_0000 := rfl
  rw [if_neg (by omega), if_neg (by omega), if_neg (by omega), if_pos (by omega), if_pos (by omega), Place.folio.injEq]
  omega

/-- A write piece between folio stores lies in an aligned 64 bytes (R326). -/
theorem nextPiece_folio_fits {d : Dev} {x : Xfer} {a n c o : Nat} (next : nextPiece d x true = some (a, n)) (at_ : place d a = .folio c o)
    (plain : x.prog = false) (store : x.dstash = false) : a % 64 + n ≤ 64 := by
  simp only [nextPiece, if_true, plain, store, Bool.false_and, Bool.false_eq_true, if_false, Option.ite_none_right_eq_some, Option.some.injEq,
    Prod.mk.injEq] at next
  obtain ⟨-, rfl, rfl⟩ := next
  simp only [at_, pieceLen]
  omega

/-! ### The bytes that a write piece leaves -/

theorem engWrite_hbm {d : Dev} {a o : Nat} (bs : List Byte) (at_ : place d a = .hbm o) (unblocked : blockedPlace d (place d a) = false) :
    engWrite d a bs = wrBytes d a bs := by
  simp only [at_] at unblocked
  simp [engWrite, at_, unblocked]

theorem engWrite_folio {d : Dev} {a c o : Nat} (bs : List Byte) (at_ : place d a = .folio c o) (unblocked : blockedPlace d (place d a) = false) :
    engWrite d a bs = wrBytes d a bs := by
  simp only [at_] at unblocked
  simp [engWrite, at_, unblocked]

theorem place_wrBytes (d : Dev) (a : Nat) (bs : List Byte) (b : Nat) : place (wrBytes d a bs) b = place d b := rfl

/-- A folio store blocks each of its bytes, or none (R51). -/
theorem blockedPlace_folio (d : Dev) (c o u : Nat) : blockedPlace d (.folio c o) = blockedPlace d (.folio c u) := rfl

/-- The bytes of a list, numbered from `k`, that `keep` names, with their addresses from `a` on. -/
def keptBytes (a : Nat) (keep : Nat → Bool) (k : Nat) (bs : List Byte) : List (Nat × Byte) :=
  ((bs.zipIdx k).filter fun p => keep p.2).map fun p => (a + p.2, p.1)

theorem keptBytes_cons (a : Nat) (keep : Nat → Bool) (k : Nat) (v : Byte) (bs : List Byte) :
    keptBytes a keep k (v :: bs) = if keep k then (a + k, v) :: keptBytes a keep (k + 1) bs else keptBytes a keep (k + 1) bs := by
  simp only [keptBytes, List.zipIdx_cons, List.filter_cons]
  split <;> rfl

/-- A byte after the write of the kept bytes of a list. -/
theorem tabGet_memPutL_keptBytes (a b : Nat) (keep : Nat → Bool) : ∀ (bs : List Byte) (k : Nat) (m : Tab Byte),
    tabGet memDefault (memPutL (keptBytes a keep k bs) m) b =
      if a + k ≤ b ∧ b < a + k + bs.length ∧ keep (b - a) = true then bs.getD (b - (a + k)) 0 else tabGet memDefault m b
  | [], k, m => by
    rw [if_neg (by simp only [List.length_nil]; omega)]
    rfl
  | v :: bs, k, m => by
    rw [keptBytes_cons]
    by_cases first : b = a + k
    · subst first
      have here : a + k - a = k := by omega
      split
      · next kept =>
        rw [memPutL, tabGet_memPutL_keptBytes a _ keep bs (k + 1), if_neg (by omega), tabGet_put_same, if_pos (by simp [here, kept]), Nat.sub_self]
        rfl
      · next lost =>
        rw [tabGet_memPutL_keptBytes a _ keep bs (k + 1), if_neg (by omega), if_neg (by simp [here, lost])]
    · have rest (m' : Tab Byte) (same : tabGet memDefault m' b = tabGet memDefault m b) :
          tabGet memDefault (memPutL (keptBytes a keep (k + 1) bs) m') b =
            if a + k ≤ b ∧ b < a + k + (v :: bs).length ∧ keep (b - a) = true then (v :: bs).getD (b - (a + k)) 0 else tabGet memDefault m b := by
        rw [tabGet_memPutL_keptBytes a _ keep bs (k + 1), same]
        by_cases inside : a + (k + 1) ≤ b
        · have next : b - (a + k) = b - (a + (k + 1)) + 1 := by omega
          rw [next, List.getD_cons_succ]
          refine if_congr ?_ rfl rfl
          rw [← and_assoc, ← and_assoc]
          exact and_congr_left' (by simp only [List.length_cons]; omega)
        · rw [if_neg (by omega), if_neg (by omega)]
      split
      · exact rest _ (tabGet_put_other memDefault m v first)
      · exact rest m rfl

/-- What a write piece leaves of the device: its bytes in memory, but for those that `keep` leaves out. -/
def landed (d : Dev) (a : Nat) (bs : List Byte) (keep : Nat → Bool) : Dev :=
  if (List.range bs.length).all keep then engWrite d a bs
  else (bs.zipIdx.filter fun p => keep p.2).foldl (fun d p => engWrite d (a + p.2) [p.1]) d

/-- Where the coefficient table stays, the piece lands (R405). -/
theorem landPiece_guarded {d : Dev} {a : Nat} {bs : List Byte} (keep : Nat → Bool) (guard : (coefGuard d a bs).toOption.isSome = true) :
    landPiece d a bs keep = .ok (landed d a bs keep) := by
  obtain ⟨u, hu⟩ := Option.isSome_iff_exists.1 guard
  have ok : coefGuard d a bs = .ok u := eq_ok_of_toOption hu
  simp only [landPiece, ok, landed, bind, Except.bind, pure, Except.pure]
  split <;> rfl

theorem landed_frame {β : Type} {F : Dev → β} (hF : ∀ d m u l, F { d with mem := m, upset := u, hostLines := l } = F d) (d : Dev) (a : Nat)
    (bs : List Byte) (keep : Nat → Bool) : F (landed d a bs keep) = F d := by
  unfold landed
  split
  · exact engWrite_frame hF d a bs
  · exact foldl_frame F _ (fun d (p : Byte × Nat) => engWrite_frame hF d (a + p.2) [p.1]) _ d

/-- A piece that lands whole is one write. -/
theorem landed_whole {d : Dev} {a : Nat} {bs : List Byte} {keep : Nat → Bool} (whole : ∀ i, i < bs.length → keep i = true) :
    landed d a bs keep = engWrite d a bs :=
  if_pos (List.all_eq_true.2 fun i hi => whole i (List.mem_range.1 hi))

/-- Bytes of an aligned 64 of an open folio store, written one by one. -/
theorem foldl_engWrite_folio_mem {a c o : Nat} (l : List (Byte × Nat)) : ∀ {d : Dev}, place d a = .folio c o → blockedPlace d (place d a) = false →
    (∀ p ∈ l, a % 64 + p.2 < 64) → (l.foldl (fun d p => engWrite d (a + p.2) [p.1]) d).mem = memPutL (l.map fun p => (a + p.2, p.1)) d.mem := by
  induction l with
  | nil => intros; rfl
  | cons p l ih =>
    intro d at_ unblocked fits
    have byte := place_folio_add at_ (fits p List.mem_cons_self)
    have open_ : blockedPlace d (place d (a + p.2)) = false := by rwa [byte, blockedPlace_folio d c _ o, ← at_]
    rw [List.foldl_cons, engWrite_folio [p.1] byte open_]
    exact ih ((place_wrBytes d (a + p.2) [p.1] a).trans at_) unblocked fun q hq => fits q (List.mem_cons_of_mem _ hq)

/-- A piece in an open folio store: its kept bytes are written. -/
theorem landed_folio_mem {d : Dev} {a c o : Nat} {bs : List Byte} (keep : Nat → Bool) (at_ : place d a = .folio c o)
    (unblocked : blockedPlace d (place d a) = false) (fits : a % 64 + bs.length ≤ 64) : (landed d a bs keep).mem = memPutL (keptBytes a keep 0 bs) d.mem := by
  have index (p : Byte × Nat) (hp : p ∈ bs.zipIdx) : p.2 < bs.length := by simpa using List.snd_lt_of_mem_zipIdx hp
  unfold landed
  split
  · next whole =>
    have all : (bs.zipIdx.filter fun p => keep p.2) = bs.zipIdx :=
      List.filter_eq_self.2 fun p hp => List.all_eq_true.1 whole p.2 (List.mem_range.2 (index p hp))
    rw [engWrite_folio bs at_ unblocked, keptBytes, all]
    rfl
  · refine foldl_engWrite_folio_mem _ at_ unblocked fun p hp => ?_
    have := index p (List.mem_filter.1 hp).1
    omega

/-! ### One piece -/

theorem exec_dmaPieceTransfer (g k : Nat) (write : Bool) (s : State) :
    exec (.dmaPieceTransfer g k write) s = happen (.dmaPieceTransfer g k write) clocked (fun d => pieceTransfer d g k write) s := rfl

/-- A piece that neither fills a program store nor touches the stash is one at a device address. -/
theorem pieceTransfer_plain {d : Dev} {g k a n : Nat} {x : Xfer} {write : Bool} (active : (galOf d g).xs[k]? = some x)
    (next : nextPiece d x write = some (a, n)) (plain : (x.prog && write) = false) (store : (if write then x.dstash else x.sstash) = false) :
    pieceTransfer d g k write = movePlain d g ((galOf d g).xs.take k) x write a n (slotNeed d g x a) fun i => !laterHolds d x (a + i) := by
  simp only [pieceTransfer, active, next, plain, store, Bool.false_eq_true, if_false]

/-- The device once a write piece that lands as `e` is counted and the transfer goes on as `y` with its next bytes. -/
def written (e : Dev) (g : Nat) (y : Xfer) (n : Nat) : Dev := putXfer (countDma e g n) g (gotWrite y n)

/-- What no write of an engine, no register write and no gallery holds, a write piece leaves. -/
theorem written_landed_frame {β : Type} {F : Dev → β} (hW : ∀ d m u l, F { d with mem := m, upset := u, hostLines := l } = F d)
    (hR : ∀ d o v, F (putRg d o v) = F d) (hG : ∀ d g f, F (modGal d g f) = F d) (d : Dev) (a : Nat) (bs : List Byte) (keep : Nat → Bool) (g : Nat)
    (y : Xfer) (n : Nat) : F (written (landed d a bs keep) g y n) = F d := by
  unfold written putXfer
  refine (hG ..).trans (Eq.trans ?_ (landed_frame hW d a bs keep))
  unfold countDma
  split
  · exact hR ..
  · rfl

/-- The transfers of a write piece's gallery are those of the device before, with the transfer gone on. -/
theorem written_gals {d e : Dev} {g : Nat} {y : Xfer} {n : Nat} (same : e.gals = d.gals) : (written e g y n).gals = (putXfer d g (gotWrite y n)).gals := by
  have counted : (countDma e g n).gals = d.gals := by
    unfold countDma
    split <;> exact same
  simp only [written, putXfer, modGal, putGal, galOf, counted]

section folio
variable {d : Dev} {g a n c o : Nat} {before : List Xfer} {x : Xfer} (keep : Nat → Bool) (at_ : place d a = .folio c o)
include at_

/-- A piece in a folio store needs no slot. -/
theorem slotNeed_folio (g : Nat) (x : Xfer) : slotNeed d g x a = .free := by simp [slotNeed, at_]

/-- A piece that meets a transfer uncovered for its cell is case 1 of R297. -/
theorem movePlain_folio_uncovered {write : Bool} (meets : othersMeet d x write a n = true) :
    movePlain d g before x write a n .free keep = .error .uncoveredDma := by
  simp [movePlain, at_, slotTest, earlierWaits, meets, bind, Except.bind, throw, throwThe, MonadExceptOf.throw]

variable (idle : (cellOf d c).due = [])
include idle

theorem settlePlace_folio : settlePlace d a = .ok d := by
  simp only [settlePlace, at_]
  exact settle_nil idle

theorem movePlain_folio_write (alone : othersMeet d x true a n = false) (guard : (coefGuard d a (writeBytes x n)).toOption.isSome = true) :
    movePlain d g before x true a n .free keep = .ok (written (landed d a (writeBytes x n) keep) g x n) := by
  simp [movePlain, at_, slotTest, earlierWaits, alone, useSlot, settlePlace_folio at_ idle, landPiece_guarded keep guard, written,
    bind, Except.bind, pure, Except.pure]

theorem movePlain_folio_read (alone : othersMeet d x false a n = false) (unblocked : blockedPlace d (place d a) = false) (sound : d.upset = []) :
    movePlain d g before x false a n .free keep = .ok (putXfer d g (gotRead x (rdBytes d a n))) := by
  have read : engRead d a n = (rdBytes d a n, d) := by
    simp only [at_] at unblocked
    simp [engRead, at_, unblocked, eccRead, sound]
  simp [movePlain, at_, slotTest, earlierWaits, alone, useSlot, settlePlace_folio at_ idle, read, bind, Except.bind, pure, Except.pure]
end folio

/-- The use of a slot touches the table of used slots alone. -/
theorem takeSlot_eq (d : Dev) (p : Nat) : ∃ u, takeSlot d p = { d with slotUsed := u } := by
  unfold takeSlot
  split
  · exact ⟨_, rfl⟩
  · exact ⟨_, rfl⟩

theorem takeSlot_frame {β : Type} {F : Dev → β} (hF : ∀ d u, F { d with slotUsed := u } = F d) (d : Dev) (p : Nat) : F (takeSlot d p) = F d := by
  obtain ⟨u, eq⟩ := takeSlot_eq d p
  rw [eq, hF]

/-- To use a slot changes nothing that a transfer writes. -/
theorem writeBytes_pay (d : Dev) (x : Xfer) (a n : Nat) : writeBytes (pay d x true a) n = writeBytes x n := by
  unfold pay
  dsimp only
  split
  · rfl
  · rfl

/-- A write piece in HBM moves in a slot of its class, once one is at hand and no earlier transfer waits for it (R332). -/
theorem movePlain_hbm_write {d : Dev} {g a n o e p : Nat} {before : List Xfer} {x : Xfer} (keep : Nat → Bool) (at_ : place d a = .hbm o)
    (granted : classGranted d e g true p = true) (alone : othersMeet d x true a n = false) (counter : x.h.isSome = true)
    (unpaid : paid d x true a = false) (guard : (coefGuard d a (writeBytes x n)).toOption.isSome = true) :
    movePlain d g before x true a n (.cls e p) keep = .ok
      (if slotFree d e p && !earlierWaits d g before true (.cls e p) then
        written (landed (takeSlot d p) a (writeBytes x n) keep) g (pay d x true a) n
      else d) := by
  have named : x.h.isNone = false := by rwa [← Option.not_isSome, Bool.not_eq_false']
  have at' : place (takeSlot d p) a = .hbm o := (takeSlot_frame (F := (place · a)) (fun _ _ => rfl) d p).trans at_
  have pays : pay (takeSlot d p) x true a = pay d x true a := takeSlot_frame (F := (pay · x true a)) (fun _ _ => rfl) d p
  have lands : landPiece (takeSlot d p) a (writeBytes (pay d x true a) n) keep = .ok (landed (takeSlot d p) a (writeBytes x n) keep) := by
    rw [writeBytes_pay]
    exact landPiece_guarded keep ((congrArg (·.toOption.isSome) (takeSlot_frame (F := (coefGuard · a (writeBytes x n))) (fun _ _ => rfl) d p)).trans guard)
  by_cases ready : (slotFree d e p && !earlierWaits d g before true (.cls e p)) = true
  · obtain ⟨free, first⟩ := (Bool.and_eq_true _ _).mp ready
    rw [Bool.not_eq_true'] at first
    simp [movePlain, at_, unpaid, named, slotTest, granted, free, first, alone, useSlot, settlePlace, at', pays, lands, written,
      bind, Except.bind, pure, Except.pure]
  · have waits : (!slotFree d e p || earlierWaits d g before true (.cls e p)) = true := by simpa [Bool.not_and, imp_iff_not_or] using ready
    simp [movePlain, at_, unpaid, named, slotTest, granted, waits, ready, bind, Except.bind, pure, Except.pure]

/-! ### The statement -/

/-- A command whose event can happen, and whose effect is undefined. -/
theorem happen_error {c : Instr} {can : Dev → Bool} {f : Dev → Res Dev} {s : State} {e : Fault} (wf : c.wf = true) (may : can s.dev = true)
    (eff : f s.dev = .error e) : happen c can f s = .fault e := by
  simp [happen, wf, may, eff, lift]

/-- The bytes of memory once a write piece of a folio store has landed but for what later transfers hold (R289). -/
theorem rdB_written_folio {d : Dev} {g a n c o : Nat} {x : Xfer} {bs : List Byte} (at_ : place d a = .folio c o)
    (unblocked : blockedPlace d (place d a) = false) (fits : a % 64 + bs.length ≤ 64) (b : Nat) :
    rdB (written (landed d a bs fun i => !laterHolds d x (a + i)) g x n) b =
      if a ≤ b ∧ b < a + bs.length ∧ laterHolds d x b = false then bs.getD (b - a) 0 else rdB d b := by
  have mem : (written (landed d a bs fun i => !laterHolds d x (a + i)) g x n).mem = memPutL (keptBytes a (fun i => !laterHolds d x (a + i)) 0 bs) d.mem :=
    ((putXfer_mem ..).trans (countDma_mem ..)).trans (landed_folio_mem _ at_ unblocked fits)
  rw [rdB, mem, tabGet_memPutL_keptBytes]
  refine if_congr (and_congr_right fun low => and_congr_right fun _ => ?_) rfl rfl
  rw [Nat.add_sub_cancel' (m := a) low, Bool.not_eq_true']

theorem writeBytes_length_le (x : Xfer) (n : Nat) : (writeBytes x n).length ≤ n := by
  unfold writeBytes
  split <;> simp

/-- A command of a write piece whose effect is found. -/
theorem pieceTransfer_yields {s : State} {g k : Nat} {write : Bool} {d : Dev} (runs : clocked s.dev = true) (calm : s.dev.raised = [])
    (hg : okGallery g = true) (eff : pieceTransfer s.dev g k write = .ok d) (quiet : d.raised = s.dev.raised) :
    Yields (.dmaPieceTransfer g k write) s d :=
  (exec_dmaPieceTransfer g k write s).trans (happen_ok hg runs eff (quiet.trans calm))

/-- Settles O27: a piece between folio stores goes the way of `movePlain` that needs no slot, one in HBM the way of its class; the bytes of a write piece
that land are those that no later transfer of the queue has written. -/
theorem dmaPieceMoves : Obligations.DmaPieceMoves := by
  unfold Obligations.DmaPieceMoves
  intro s g k a n x runs calm hg active sound unblocked
  have quiet (d : Dev) (bs : List Byte) (keep : Nat → Bool) (y : Xfer) : (written (landed d a bs keep) g y n).raised = d.raised :=
    written_landed_frame (F := (·.raised)) (fun _ _ _ _ => rfl) (fun _ _ _ => rfl) (fun _ _ _ => rfl) ..
  have whole {d : Dev} (clear : ∀ i, i < n → laterHolds s.dev x (a + i) = false) :
      landed d a (writeBytes x n) (fun i => !laterHolds s.dev x (a + i)) = engWrite d a (writeBytes x n) :=
    landed_whole fun i hi => by rw [clear i (Nat.lt_of_lt_of_le hi (writeBytes_length_le x n)), Bool.not_false]
  refine ⟨fun c o at_ idle => ⟨fun plain store next alone guard => ?writes, fun store next alone => ?reads, fun store next meets => ?uncovered⟩,
    fun o e p at_ plain store next slot granted alone counter unpaid guard clear => ?hbm⟩
  case writes =>
    have eff := pieceTransfer_plain (write := true) active next (by rw [plain]; rfl) store
    rw [slotNeed_folio at_, movePlain_folio_write _ at_ idle alone guard] at eff
    have yields := pieceTransfer_yields runs calm hg eff (quiet ..)
    refine ⟨fun clear => ?whole, _, yields, ?cells, written_gals (landed_frame (F := (·.gals)) (fun _ _ _ _ => rfl) ..), fun b => ?bytes⟩
    case whole => rwa [whole clear, engWrite_folio _ at_ unblocked] at yields
    case cells => exact written_landed_frame (F := (·.cells)) (fun _ _ _ _ => rfl) (fun _ _ _ => rfl) (fun _ _ _ => rfl) ..
    case bytes =>
      have fits := nextPiece_folio_fits next at_ plain store
      exact rdB_written_folio at_ unblocked (by have := writeBytes_length_le x n; omega) b
  case reads =>
    have eff := pieceTransfer_plain (write := false) active next (Bool.and_false _) store
    rw [slotNeed_folio at_, movePlain_folio_read _ at_ idle alone unblocked sound] at eff
    exact pieceTransfer_yields runs calm hg eff rfl
  case uncovered =>
    have eff := pieceTransfer_plain (write := false) active next (Bool.and_false _) store
    rw [slotNeed_folio at_, movePlain_folio_uncovered _ at_ meets] at eff
    exact (exec_dmaPieceTransfer g k false s).trans (happen_error hg runs eff)
  case hbm =>
    have eff := pieceTransfer_plain (write := true) active next (by rw [plain]; rfl) store
    rw [slot, movePlain_hbm_write _ at_ granted alone counter unpaid guard] at eff
    have at' : place (takeSlot s.dev p) a = .hbm o := (takeSlot_frame (F := (place · a)) (fun _ _ => rfl) s.dev p).trans at_
    have unblocked' : blockedPlace (takeSlot s.dev p) (place (takeSlot s.dev p) a) = false :=
      (takeSlot_frame (F := fun d => blockedPlace d (place d a)) (fun _ _ => rfl) s.dev p).trans unblocked
    have yields := pieceTransfer_yields runs calm hg eff (by
      split
      · exact (quiet ..).trans (takeSlot_frame (F := (·.raised)) (fun _ _ => rfl) s.dev p)
      · rfl)
    rwa [whole clear, engWrite_hbm _ at' unblocked'] at yields

end Sys2Proof.Machine
end

section
/-! SUPPORT. ABANDON (08_timing_contract.md, 10_training_step.md, R295, R360, R361, R473): the device takes the command from its ring, the running step
is given up, and the faults that its flush raises are taken up. What all of this leaves of the step's registers, of the rings' CONS, of stopped docents and
of the ring's buckets is one frame. -/

namespace Sys2Proof.Machine
open Sys2Proof.Safety

/-! ### The frame -/

/-- The docent of cell `c` runs nothing, and its DMA queue is empty (R295). -/
def StillAt (d : Dev) (c : Nat) : Prop := (cellOf d c).running = false ∧ (cellOf d c).dmaq = []

/-- Device `e` is `d` in STP_STATE and STP_VER, in CONS of every command ring, and in the buckets and the contribution store of the ring; every cell that
was still is. -/
structure StepFrame (d e : Dev) : Prop where
  state : rg e 0x30B_0000 = rg d 0x30B_0000
  ver : rg e 0x30B_0010 = rg d 0x30B_0010
  cons : ∀ r, rgf e (cqReg r 0x18) 63 32 = rgf d (cqReg r 0x18) 63 32
  buckets : e.ring.buckets = d.ring.buckets
  store : e.ring.store = d.ring.store
  still : ∀ c, StillAt d c → StillAt e c

namespace StepFrame
variable {d e f : Dev}

theorem refl (d : Dev) : StepFrame d d := ⟨rfl, rfl, fun _ => rfl, rfl, rfl, fun _ => id⟩

theorem trans (h : StepFrame d e) (k : StepFrame e f) : StepFrame d f where
  state := k.state.trans h.state
  ver := k.ver.trans h.ver
  cons r := (k.cons r).trans (h.cons r)
  buckets := k.buckets.trans h.buckets
  store := k.store.trans h.store
  still c := k.still c ∘ h.still c

/-- What touches no register and no state of the ring, and starts no cell, keeps the frame. -/
theorem of_still (reg : e.reg = d.reg) (ring : e.ring = d.ring) (still : ∀ c, StillAt d c → StillAt e c) : StepFrame d e where
  state := by simp only [rg, reg]
  ver := by simp only [rg, reg]
  cons r := by simp only [rgf, rg, reg]
  buckets := by rw [ring]
  store := by rw [ring]
  still := still

theorem of_eq (reg : e.reg = d.reg) (ring : e.ring = d.ring) (cells : e.cells = d.cells) : StepFrame d e :=
  of_still reg ring fun c => by simp only [StillAt, cellOf, cells]; exact id

/-- A change that is made in some cases only. -/
theorem ite {c : Prop} [Decidable c] (he : c → StepFrame d e) (hf : ¬c → StepFrame d f) : StepFrame d (if c then e else f) := by
  split
  · next h => exact he h
  · next h => exact hf h

theorem foldl {σ α : Type} {g : σ → α → σ} (dev : σ → Dev) (step : ∀ s a, StepFrame (dev s) (dev (g s a))) :
    ∀ (l : List α) (s : σ), StepFrame (dev s) (dev (l.foldl g s))
  | [], s => refl (dev s)
  | a :: l, s => (step s a).trans (foldl dev step l (g s a))

/-- A write of a register that is neither of the step nor a CQ_STAT. -/
theorem putRgf (d : Dev) {o : Nat} (hi lo v : Nat) (step : o ≠ 0x30B_0000 ∧ o ≠ 0x30B_0010) (ring : o % 0x40 ≠ 0x18) :
    StepFrame d (putRgf d o hi lo v) where
  state := rg_putRgf_other d hi lo v step.1.symm
  ver := rg_putRgf_other d hi lo v step.2.symm
  cons r := rgf_putRgf_other d hi lo 63 32 v (by unfold cqReg; omega)
  buckets := rfl
  store := rfl
  still _ := id

theorem stState_eq (h : StepFrame d e) : stState e = stState d := by simp only [stState, rgf, h.state]
theorem stGate_eq (h : StepFrame d e) : stGate e = stGate d := by simp only [stGate, h.state]
theorem stFlipped_eq (h : StepFrame d e) : stFlipped e = stFlipped d := by simp only [stFlipped, h.state]
theorem stStamp_eq (h : StepFrame d e) : stStamp e = stStamp d := by simp only [stStamp, rgf, h.state]
theorem stPub_eq (h : StepFrame d e) : stPub e = stPub d := by simp only [stPub, rgf, h.ver]
theorem stPub0_eq (h : StepFrame d e) : stPub0 e = stPub0 d := by simp only [stPub0, rgf, h.ver]
end StepFrame

/-! ### The stop of a docent -/

theorem stopDocent_frame {β : Type} {F : Dev → β} (hF : ∀ d c f, F (modCell d c f) = F d) (d : Dev) (c : Nat) : F (stopDocent d c) = F d := by
  have thaw : F (thawCell d c) = F d := by
    unfold thawCell
    split
    · rfl
    · exact hF ..
  unfold stopDocent
  split
  · exact hF ..
  · exact (hF ..).trans thaw

theorem cellOf_thawCell_other (d : Dev) {c k : Nat} (ne : k ≠ c) : cellOf (thawCell d c) k = cellOf d k := by
  unfold thawCell
  split <;> simp [ne]

theorem cellOf_stopDocent_other (d : Dev) {c k : Nat} (ne : k ≠ c) : cellOf (stopDocent d c) k = cellOf d k := by
  unfold stopDocent
  split <;> simp [ne, cellOf_thawCell_other d ne]

@[simp] theorem thawCell_dmaq (d : Dev) (c : Nat) : (cellOf (thawCell d c) c).dmaq = (cellOf d c).dmaq := by
  unfold thawCell
  split <;> simp

@[simp] theorem stopDocent_dmaq (d : Dev) (c : Nat) : (cellOf (stopDocent d c) c).dmaq = (cellOf d c).dmaq := by
  unfold stopDocent
  split <;> simp [stopCell]

theorem stepFrame_stopDocent (d : Dev) (c : Nat) : StepFrame d (stopDocent d c) := by
  refine .of_still (stopDocent_frame (F := (·.reg)) (fun _ _ _ => rfl) d c) (stopDocent_frame (F := (·.ring)) (fun _ _ _ => rfl) d c) fun k h => ?_
  by_cases same : k = c
  · subst same
    exact ⟨stopDocent_running d k, (stopDocent_dmaq d k).trans h.2⟩
  · rwa [StillAt, cellOf_stopDocent_other d same]

/-! ### Reads and writes of device engines -/

theorem stepFrame_engWrite (d : Dev) (a : Nat) (bs : List Byte) : StepFrame d (engWrite d a bs) := by
  obtain ⟨m, l, eq⟩ := engWrite_eq d a bs
  rw [eq]
  exact .of_eq rfl rfl rfl

theorem stepFrame_drawBytes (n : Nat) (d : Dev) : StepFrame d (drawBytes n d).2 := by
  obtain ⟨k, eq⟩ := drawBytes_eq n d
  rw [eq]
  exact .of_eq rfl rfl rfl

/-- The allocation of lines touches the device's host lines alone (R462). -/
theorem lineAlloc_eq (d : Dev) (a n : Nat) : ∃ l, lineAlloc d a n = { d with hostLines := l } := by
  unfold lineAlloc
  dsimp only
  split
  · exact ⟨d.hostLines, rfl⟩
  · exact ⟨_, rfl⟩

theorem stepFrame_lineAlloc (d : Dev) (a n : Nat) : StepFrame d (lineAlloc d a n) := by
  obtain ⟨l, eq⟩ := lineAlloc_eq d a n
  rw [eq]
  exact .of_eq rfl rfl rfl

/-- A correctable error is counted in CNT_CORR (R517, R556). -/
theorem stepFrame_eccCorrect (d : Dev) (w : Nat) : StepFrame d (eccCorrect d w) := by
  have cleared : StepFrame d { d with upset := d.upset.filter fun e => e.1 != w } := .of_eq rfl rfl rfl
  exact .ite (fun _ => cleared.trans (.putRgf _ _ _ _ (by decide) (by decide))) fun _ => cleared

/-- An uncorrectable error stops the docent of the cell that owns the memory, and asks for its fault (R515). -/
theorem stepFrame_eccFault (d : Dev) (w : Nat) (bundle : Option Nat) : StepFrame d (eccFault d w bundle) := by
  unfold eccFault
  extract_lets o stopped drawn
  have stops : StepFrame d stopped := by
    unfold stopped
    split
    · exact .ite (fun _ => stepFrame_stopDocent ..) fun _ => .refl d
    · exact .refl d
  exact stops.trans (.of_eq rfl rfl rfl)

theorem stepFrame_eccBytes (d : Dev) (l : List (Nat × Byte)) : StepFrame d (eccBytes d l).2 := by
  unfold eccBytes
  extract_lets ws lost fixed
  have corrected : StepFrame d fixed := .foldl id (fun d (e : Nat × Nat) => stepFrame_eccCorrect d e.1) _ d
  clear_value lost
  cases lost with
  | nil => exact corrected
  | cons w t =>
    have faulted := corrected.trans (stepFrame_eccFault fixed w.1 none)
    dsimp only
    refine faulted.trans ?_
    exact .foldl (σ := List (Nat × Byte) × Dev) Prod.snd (fun s _ => stepFrame_drawBytes 8 s.2) (w :: t) (l, _)

theorem stepFrame_engRead (d : Dev) (a n : Nat) : StepFrame d (engRead d a n).2 := by
  unfold engRead eccRead
  dsimp only
  split
  · exact stepFrame_drawBytes n d
  · split
    · exact stepFrame_lineAlloc d a n
    · exact stepFrame_drawBytes n d
    · exact stepFrame_drawBytes n d
    · split
      · exact .refl d
      · exact stepFrame_eccBytes d _

/-! ### Flushes and squalls -/

theorem stepFrame_sendMsg (d : Dev) (p : Nat) (m : FabMsg) : StepFrame d (sendMsg d p m) := .of_eq rfl rfl rfl

theorem stepFrame_emitSquall (d : Dev) (cause : Nat) : StepFrame d (emitSquall d cause) := by
  unfold emitSquall
  refine .ite (fun _ => .refl d) fun _ => ?_
  extract_lets seq fab numbered src m
  have counted : StepFrame d numbered := .of_eq rfl rfl rfl
  exact counted.trans (.foldl id (fun d p => stepFrame_sendMsg d p m) (upPorts numbered) numbered)

theorem stepFrame_fabMarkers (d : Dev) : StepFrame d (fabMarkers d) := by
  unfold fabMarkers
  refine .ite (fun _ => ?_) fun _ => .refl d
  extract_lets sent
  have sends : StepFrame d sent := .foldl id (fun d p => stepFrame_sendMsg d p _) (upPorts d) d
  exact sends.trans (.of_eq rfl rfl rfl)

theorem stepFrame_fabFlushEnd (d : Dev) : StepFrame d (fabFlushEnd d) := .ite (fun _ => .of_eq rfl rfl rfl) fun _ => .refl d

theorem stepFrame_xringSkip (d : Dev) (r : Nat) : StepFrame d (xringSkip d r) := by
  have read := stepFrame_engRead d (xringBase d r) 4
  have skipped := read.trans (stepFrame_engWrite _ (xringBase d r + 32) (engRead d (xringBase d r) 4).1)
  exact skipped.trans (.of_eq rfl rfl rfl)

theorem stepFrame_fabFlush (d : Dev) : StepFrame d (fabFlush d) := by
  unfold fabFlush
  refine .ite (fun _ => .refl d) fun _ => ?_
  extract_lets skipped kept left fab begun
  have skips : StepFrame d skipped := .foldl id (fun d r => .ite (fun _ => stepFrame_xringSkip d r) fun _ => .refl d) (List.range 48) d
  have begins : StepFrame skipped begun := .of_eq rfl rfl rfl
  exact (skips.trans begins).trans ((stepFrame_fabMarkers begun).trans (stepFrame_fabFlushEnd _))

/-! ### The faults that a command raises outside a running step -/

theorem stepFrame_hostWrite (d : Dev) (a : Nat) (bs : List Byte) : StepFrame d (hostWrite d a bs) :=
  .ite (fun _ => stepFrame_engWrite d a bs) fun _ => .of_eq rfl rfl rfl

theorem stepFrame_eventGone (d : Dev) : StepFrame d (eventGone d) := .ite (fun _ => .of_eq rfl rfl rfl) fun _ => .of_eq rfl rfl rfl

theorem stepFrame_eventWrite (d : Dev) : StepFrame d (eventWrite d) := by
  unfold eventWrite
  dsimp only
  split
  · exact .refl d
  · split
    · split
      · exact (stepFrame_sendMsg ..).trans (stepFrame_eventGone _)
      · exact .refl d
    · refine .ite (fun _ => .refl d) fun _ => StepFrame.trans ?_ (stepFrame_eventGone _)
      exact StepFrame.trans (stepFrame_hostWrite ..) (.putRgf _ 63 32 _ (by decide) (by decide))

theorem stepFrame_holdEvent (d : Dev) (e : HeldEvent) : StepFrame d (holdEvent d e) := by
  unfold holdEvent
  extract_lets room
  have made : StepFrame d room := .ite (fun _ => stepFrame_eventWrite d) fun _ => .refl d
  refine made.trans (.ite (fun _ => ?_) fun _ => .of_eq rfl rfl rfl)
  exact (StepFrame.putRgf room (o := 0x20_0110) _ _ _ (by decide) (by decide)).trans (.of_eq rfl rfl rfl)

theorem stepFrame_faultEvent (d : Dev) : StepFrame d (faultEvent d) := by
  have marked : StepFrame d { d with faultWt := some d.wt } := .of_eq rfl rfl rfl
  exact .ite (fun _ => .refl d) fun _ => marked.trans (stepFrame_holdEvent ..)

/-- The log and FLT_STAT hold the record (R518, R519). -/
theorem stepFrame_logFault (d : Dev) (r : List W64) : StepFrame d (logFault d r) := by
  have stat (d : Dev) (hi lo v : Nat) : StepFrame d (putRgf d 0x40_0000 hi lo v) := .putRgf d hi lo v (by decide) (by decide)
  unfold logFault
  extract_lets l counted full kept
  have fills : StepFrame d full := (stat d _ _ _).trans (.ite (fun _ => stat ..) fun _ => .refl counted)
  have puts : StepFrame full { full with flog := l.take 64 } := .of_eq rfl rfl rfl
  have keeps : StepFrame full kept := puts.trans (stat _ 6 0 _)
  exact (fills.trans keeps).trans (.ite (fun _ => .of_eq rfl rfl rfl) fun _ => .refl kept)

theorem stepFrame_setFaultBit (d : Dev) (p b : Nat) : StepFrame d (setFaultBit d p b) :=
  .of_eq (setFaultBit_frame (F := (·.reg)) (fun _ _ _ => rfl) d p b) (setFaultBit_frame (F := (·.ring)) (fun _ _ _ => rfl) d p b)
    (setFaultBit_frame (F := (·.cells)) (fun _ _ _ => rfl) d p b)

/-- Outside a running step a fault abandons none (R516). -/
theorem stepFrame_takeFault {d : Dev} (f : FaultReq) (outside : stState d ≠ 1) : StepFrame d (takeFault d f) := by
  have shown := stepFrame_setFaultBit d f.port (faultBit f.kind)
  have logged := shown.trans (stepFrame_logFault _ (faultWords d f false))
  have told := logged.trans (stepFrame_faultEvent _)
  have abandons : (f.abandons && stState d == 1) = false := by simp [outside]
  simp only [takeFault, abandons, Bool.false_eq_true, if_false]
  exact told

theorem stepFrame_foldl_takeFault : ∀ (l : List FaultReq) {d : Dev}, stState d ≠ 1 → StepFrame d (l.foldl takeFault d)
  | [], d, _ => .refl d
  | f :: l, d, outside => by
    have first := stepFrame_takeFault f outside
    exact first.trans (stepFrame_foldl_takeFault l (by rwa [first.stState_eq]))

theorem stepFrame_takeRound {d : Dev} (outside : stState d ≠ 1) : StepFrame d (takeRound d) := by
  have taken : StepFrame d { d with raised := [] } := .of_eq rfl rfl rfl
  exact taken.trans (stepFrame_foldl_takeFault _ outside)

theorem stepFrame_takeFaults {d : Dev} (outside : stState d ≠ 1) : StepFrame d (takeFaults d) := by
  have first := stepFrame_takeRound outside
  exact first.trans (stepFrame_takeRound (by rwa [first.stState_eq]))

/-! ### The running step is given up -/

/-- Device `e` is `d` with its running step given up (R361). -/
structure Abandoned (d e : Dev) : Prop where
  state : stState e = 2
  gate : stGate e = false
  flipped : stFlipped e = false
  pub : stPub e = if stGate d then stPub d else stPub0 d
  stamp : stStamp e = stStamp d
  cons : ∀ r, rgf e (cqReg r 0x18) 63 32 = rgf d (cqReg r 0x18) 63 32
  still : ∀ c, c < nCells → StillAt e c
  buckets : e.ring.buckets = []
  store : e.ring.store = []

theorem Abandoned.after {d e f : Dev} (h : Abandoned d e) (k : StepFrame e f) : Abandoned d f where
  state := k.stState_eq.trans h.state
  gate := k.stGate_eq.trans h.gate
  flipped := k.stFlipped_eq.trans h.flipped
  pub := k.stPub_eq.trans h.pub
  stamp := k.stStamp_eq.trans h.stamp
  cons r := (k.cons r).trans (h.cons r)
  still c hc := k.still c (h.still c hc)
  buckets := k.buckets.trans h.buckets
  store := k.store.trans h.store

theorem Abandoned.before {d e f : Dev} (h : StepFrame d e) (k : Abandoned e f) : Abandoned d f where
  state := k.state
  gate := k.gate
  flipped := k.flipped
  pub := by rw [k.pub, h.stGate_eq, h.stPub_eq, h.stPub0_eq]
  stamp := k.stamp.trans h.stStamp_eq
  cons r := (k.cons r).trans (h.cons r)
  still := k.still
  buckets := k.buckets
  store := k.store

/-- What `stopAll` does at one cell (R295). -/
def stopOne (d : Dev) (c : Nat) : Dev :=
  if (cellOf d c).running then modCell (stopDocent d c) c fun y => { y with dmaq := [] }
  else if (cellOf d c).dmaq.isEmpty then d else modCell d c fun y => { y with dmaq := [] }

/-- An emptied queue starts no cell. -/
theorem stepFrame_emptyQueue (d : Dev) (c : Nat) : StepFrame d (modCell d c fun y => { y with dmaq := [] }) :=
  .of_still rfl rfl fun k h => by
    rw [StillAt, cellOf_modCell]
    split
    · next same => exact ⟨same ▸ h.1, rfl⟩
    · exact h

theorem stepFrame_stopOne (d : Dev) (c : Nat) : StepFrame d (stopOne d c) :=
  .ite (fun _ => (stepFrame_stopDocent d c).trans (stepFrame_emptyQueue ..)) fun _ => .ite (fun _ => .refl d) fun _ => stepFrame_emptyQueue d c

theorem stillAt_stopOne (d : Dev) (c : Nat) : StillAt (stopOne d c) c := by
  unfold stopOne
  split_ifs with runs none_
  · simp [StillAt]
  · exact ⟨by simpa using runs, by simpa using none_⟩
  · simpa [StillAt] using runs

theorem stepFrame_foldl_stopOne (l : List Nat) (d : Dev) : StepFrame d (l.foldl stopOne d) := .foldl id stepFrame_stopOne l d

theorem stillAt_foldl_stopOne {c : Nat} {l : List Nat} (h : c ∈ l) : ∀ d : Dev, StillAt (l.foldl stopOne d) c := by
  induction l with
  | nil => cases h
  | cons a l ih =>
    intro d
    rcases List.mem_cons.1 h with rfl | later
    · exact (stepFrame_foldl_stopOne l _).still c (stillAt_stopOne d c)
    · exact ih later (stopOne d a)

theorem stepFrame_stopAll (d : Dev) : StepFrame d (stopAll d) := stepFrame_foldl_stopOne (List.range nCells) d

/-- No docent runs on, and no transfer stays queued (R295). -/
theorem stillAt_stopAll {c : Nat} (hc : c < nCells) (d : Dev) : StillAt (stopAll d) c := stillAt_foldl_stopOne (List.mem_range.2 hc) d

/-- The step's registers, then the ring and the fabric, once every docent has stopped. -/
theorem abandonStep_running {d : Dev} (runs : stState d = 1) : abandonStep d = fabFlush (ringFlush (abandonRegs (stopAll d))) := by
  have runs' : stState (stopAll d) = 1 := (stepFrame_stopAll d).stState_eq.trans runs
  simp only [abandonStep, abandonRegs, runs, runs', bne_self_eq_false, Bool.false_eq_true, if_false]

/-- STP_STATE of a step that is given up: STATE is 2, GATE and FLIPPED are 0 (R361). -/
def endStep (d : Dev) : Dev := putRgf (putRgf d 0x30B_0000 3 2 0) 0x30B_0000 1 0 2

theorem bitAt_toNat (w : W64) (i : Nat) : bitAt w.toNat i = w.getLsbD i := by
  rw [bitAt, BitVec.getLsbD, Nat.testBit_eq_decide_div_mod_eq, Nat.shiftRight_eq_div_pow]
  rfl

theorem stState_endStep (d : Dev) : stState (endStep d) = 2 := rgf_putRgf_same _ _ _ (by decide)

theorem bitAt_endStep (d : Dev) {i : Nat} (h : 2 ≤ i ∧ i ≤ 3) : bitAt (rg (endStep d) 0x30B_0000).toNat i = false := by
  simp only [endStep, putRgf, rg_putRg, if_true, bitAt_toNat]
  rw [getLsbD_setFld _ (by decide), if_neg (by omega), getLsbD_setFld _ (by decide), if_pos h, Nat.zero_testBit]

theorem stGate_endStep (d : Dev) : stGate (endStep d) = false := bitAt_endStep d (by decide)
theorem stFlipped_endStep (d : Dev) : stFlipped (endStep d) = false := bitAt_endStep d (by decide)

theorem stStamp_endStep (d : Dev) : stStamp (endStep d) = stStamp d :=
  (rgf_putRgf_field _ _ _ (by decide) (by decide)).trans (rgf_putRgf_field _ _ _ (by decide) (by decide))

theorem rg_endStep_other (d : Dev) {o : Nat} (ne : o ≠ 0x30B_0000) : rg (endStep d) o = rg d o :=
  (rg_putRgf_other _ _ _ _ ne).trans (rg_putRgf_other _ _ _ _ ne)

/-- PUB returns to its value at launch, unless the gate is open (R361). -/
def restorePub (d : Dev) : Dev := if stGate d then d else putRgf d 0x30B_0010 0 0 (stPub0 d)

theorem rg_restorePub_other (d : Dev) {o : Nat} (ne : o ≠ 0x30B_0010) : rg (restorePub d) o = rg d o := by
  unfold restorePub
  split
  · rfl
  · exact rg_putRgf_other _ _ _ _ ne

theorem stPub_restorePub (d : Dev) : stPub (restorePub d) = if stGate d then stPub d else stPub0 d := by
  unfold restorePub
  split
  · rfl
  · refine (rgf_putRgf_same _ _ _ (by decide)).trans (Nat.mod_eq_of_lt ?_)
    exact Nat.mod_lt _ (by decide)

theorem abandonRegs_running {d : Dev} (runs : stState d = 1) : abandonRegs d = endStep (restorePub d) := by
  simp only [abandonRegs, runs, bne_self_eq_false, Bool.false_eq_true, if_false, endStep, restorePub]

/-- The markers of a flush touch neither registers nor cells (R397). -/
theorem ringFlush_frame {β : Type} {F : Dev → β} (hS : ∀ d p m, F (sendMsg d p m) = F d) (hR : ∀ d r, F { d with ring := r } = F d) (d : Dev) :
    F (ringFlush d) = F d :=
  (hR ..).trans (foldl_frame F _ (fun d _ => hS d _ _) _ d)

/-- The registers and the ring of a step that is given up, once the docents have stopped (R361, R397). -/
theorem abandoned_ringFlush {d : Dev} (runs : stState d = 1) (stopped : ∀ c, c < nCells → StillAt d c) :
    Abandoned d (ringFlush (abandonRegs d)) := by
  have regs (o : Nat) : rg (ringFlush (abandonRegs d)) o = rg (endStep (restorePub d)) o :=
    (ringFlush_frame (F := (rg · o)) (fun _ _ _ => rfl) (fun _ _ => rfl) _).trans (by rw [abandonRegs_running runs])
  have cells : (ringFlush (abandonRegs d)).cells = d.cells := by
    refine (ringFlush_frame (F := (·.cells)) (fun _ _ _ => rfl) (fun _ _ => rfl) _).trans ?_
    rw [abandonRegs_running runs, endStep, restorePub]
    split <;> rfl
  have others {o : Nat} (state : o ≠ 0x30B_0000) (ver : o ≠ 0x30B_0010) : rg (ringFlush (abandonRegs d)) o = rg d o :=
    (regs o).trans ((rg_endStep_other _ state).trans (rg_restorePub_other d ver))
  exact {
    state := by rw [stState, rgf, regs]; exact stState_endStep _
    gate := by rw [stGate, regs]; exact stGate_endStep _
    flipped := by rw [stFlipped, regs]; exact stFlipped_endStep _
    pub := by rw [stPub, rgf, regs, rg_endStep_other _ (by decide)]; exact stPub_restorePub d
    stamp := by
      rw [stStamp, rgf, regs]
      refine (stStamp_endStep _).trans ?_
      rw [stStamp, rgf, rg_restorePub_other d (by decide)]
      rfl
    cons r := by rw [rgf, others (by unfold cqReg; omega) (by unfold cqReg; omega)]; rfl
    still c hc := by rw [StillAt, cellOf, cells]; exact stopped c hc
    buckets := rfl
    store := rfl }

theorem abandoned_abandonStep {d : Dev} (runs : stState d = 1) : Abandoned d (abandonStep d) := by
  have stops := stepFrame_stopAll d
  have given := abandoned_ringFlush (stops.stState_eq.trans runs) fun _ hc => stillAt_stopAll hc d
  rw [abandonStep_running runs]
  exact .before stops (given.after (stepFrame_fabFlush _))

/-! ### The command -/

theorem exec_abandon (s : State) : exec .abandon s = happen .abandon live (fun d => commandTake d (some 6)) s := rfl

/-- A task that has entered is the one of its number. -/
theorem taskOf_putTask (d : Dev) (t : HostTask) : taskOf (putTask d t) t.id = some t := by
  by_cases known : (taskOf d t.id).isSome
  · obtain ⟨u, hu⟩ := Option.isSome_iff_exists.1 known
    have same : u.id = t.id := by simpa using List.find?_some hu
    have tasks : (putTask d t).host.tasks = d.host.tasks.map fun u => if u.id = t.id then t else u := if_pos known
    have asks : ((fun x : HostTask => x.id == t.id) ∘ fun u => if u.id = t.id then t else u) = fun x => x.id == t.id := by
      funext x
      simp only [Function.comp_apply]
      split <;> simp [*]
    rw [taskOf] at hu ⊢
    rw [tasks, List.find?_map, asks, hu, Option.map_some, if_pos same]
  · have tasks : (putTask d t).host.tasks = d.host.tasks ++ [t] := if_neg known
    have new : d.host.tasks.find? (fun x => x.id == t.id) = none := Option.not_isSome_iff_eq_none.1 known
    simp [taskOf, tasks, List.find?_append, new]

theorem taskOf_markBusy (d : Dev) (r i : Nat) : taskOf (markBusy d r) i = taskOf d i := rfl

/-- A task whose own share goes on does not end. -/
theorem finishTask_open {d : Dev} {i : Nat} {t : HostTask} (found : taskOf d i = some t) (open_ : t.ownDone = false) : finishTask d i = d := by
  simp [finishTask, found, open_]

theorem stepFrame_putTask (d : Dev) (t : HostTask) : StepFrame d (putTask d t) := .of_eq rfl rfl rfl

/-- The task of a command whose own share the device `d` has begun, and which goes on in the device `e`. -/
def shareOpen (d e : Dev) (t : HostTask) : HostTask :=
  { merge t (myDev d) 0 0 none (gather e (portIn t.words)).1 (gather e (portIn t.words)).2 with accepted := true, ownDone := false }

/-- The own share of an ABANDON in a running step: the step is given up, and the task goes on until that has ended (R473). -/
theorem ownShare_abandon {d : Dev} {t : HostTask} (found : taskOf d t.id = some t) (op : opOf t.words = 6) (runs : stState d = 1) :
    ∃ e u, ownShare d .ring t.id = .ok e ∧ Abandoned d e ∧ taskOf e t.id = some u ∧ u.ownDone = false := by
  have told : StepFrame d (if bitAt (argOf t.words 0) 0 then emitSquall d 0x13 else d) := .ite (fun _ => stepFrame_emitSquall ..) fun _ => .refl d
  have runs' := told.stState_eq.trans runs
  have does : execOp d .ring t.words t.id = .ok (sharePend, abandonStep (if bitAt (argOf t.words 0) 0 then emitSquall d 0x13 else d)) := by
    simp only [execOp, op, runs', if_true]
  have gone := Abandoned.before told (abandoned_abandonStep runs')
  generalize abandonStep (if bitAt (argOf t.words 0) 0 then emitSquall d 0x13 else d) = e at does gone
  have entered : taskOf (putTask e (shareOpen d e t)) t.id = some (shareOpen d e t) := taskOf_putTask e (shareOpen d e t)
  have goes : abandonPoll (putTask e (shareOpen d e t)) = putTask e (shareOpen d e t) := by
    refine if_neg fun h => ?_
    have zero := h.1
    rw [(stepFrame_putTask ..).stState_eq, gone.state] at zero
    exact absurd zero (by decide)
  refine ⟨_, _, ?_, gone.after (stepFrame_putTask ..), entered, rfl⟩
  have shares : ownShare d .ring t.id = .ok (abandonPoll (finishTask (putTask e (shareOpen d e t)) t.id)) := by
    simp only [ownShare, found, does]
    rfl
  rw [shares, finishTask_open entered rfl, goes]

/-- The device with CONS of ring `r` advanced (R471). -/
def advanced (d : Dev) (r : Nat) : Dev := putRgf d (cqReg r 0x18) 63 32 ((rgf d (cqReg r 0x18) 63 32 + 1) % 2 ^ 32)

/-- The task of a command taken from ring `r`, of which the device executes its own share alone. -/
def begunTask (d : Dev) (r : Nat) (ws : List W64) : HostTask :=
  newTask (newId (takeEntry d r)).1 r (rgf d (cqReg r 0x18) 63 32) none ws [] true (ticks (newId (takeEntry d r)).2)

theorem begunTask_id (d : Dev) (r : Nat) (ws : List W64) : (begunTask d r ws).id = (newId (takeEntry d r)).1 := by
  simp only [begunTask, newTask]

theorem begunTask_words (d : Dev) (r : Nat) (ws : List W64) : (begunTask d r ws).words = ws := by
  simp only [begunTask, newTask]

/-- The device once that command is taken. -/
def begun (d : Dev) (r : Nat) (ws : List W64) : Dev := markBusy (putTask (newId (takeEntry d r)).2 (begunTask d r ws)) r

theorem stepFrame_markBusy (d : Dev) (r : Nat) : StepFrame d (markBusy d r) where
  state := rg_putRgf_other _ _ _ _ (by unfold cqReg; omega)
  ver := rg_putRgf_other _ _ _ _ (by unfold cqReg; omega)
  cons k := by
    by_cases same : k = r
    · subst same
      exact rgf_putRgf_field _ _ _ (by decide) (by decide)
    · exact rgf_putRgf_other _ _ _ _ _ _ (by unfold cqReg; omega)
  buckets := rfl
  store := rfl
  still _ := id

theorem takeEntry_eq (d : Dev) (r : Nat) :
    ∃ l, takeEntry d r = { advanced d r with hostLines := l, host := { d.host with next := (r + 1) % 4 } } := by
  obtain ⟨l, eq⟩ := lineAlloc_eq d
    (hostBase + rgf d (cqReg r 0) 43 6 * 64 + 64 * (rgf d (cqReg r 0x18) 63 32 % 2 ^ rgf d (cqReg r 0) 59 56)) 64
  refine ⟨l, ?_⟩
  simp only [takeEntry, eq]
  rfl

theorem rg_advanced_other (d : Dev) (r : Nat) {o : Nat} (out : o % 0x40 ≠ 0x18) : rg (advanced d r) o = rg d o :=
  rg_putRgf_other _ _ _ _ (by unfold cqReg; omega)

theorem cons_advanced (d : Dev) (r : Nat) : rgf (advanced d r) (cqReg r 0x18) 63 32 = (rgf d (cqReg r 0x18) 63 32 + 1) % 2 ^ 32 :=
  (rgf_putRgf_same _ _ _ (by decide)).trans (Nat.mod_mod ..)

theorem myDev_advanced (d : Dev) (r : Nat) : myDev (advanced d r) = myDev d := by
  simp only [myDev, rgf, rg_advanced_other d r (o := 0x100_0000) (by decide)]

/-- The device with CONS advanced is in the same step. -/
theorem step_advanced (d : Dev) (r : Nat) : stState (advanced d r) = stState d ∧ stGate (advanced d r) = stGate d ∧
    stStamp (advanced d r) = stStamp d ∧ stPub (advanced d r) = stPub d ∧ stPub0 (advanced d r) = stPub0 d := by
  simp only [stState, stGate, stStamp, stPub, stPub0, rgf, rg_advanced_other d r (o := 0x30B_0000) (by decide),
    rg_advanced_other d r (o := 0x30B_0010) (by decide), and_self]

/-- The device number is not touched when an entry is taken. -/
theorem myDev_takeEntry (d : Dev) (r : Nat) : myDev (takeEntry d r) = myDev d := by
  obtain ⟨l, eq⟩ := takeEntry_eq d r
  rw [eq, ← myDev_advanced d r]
  rfl

theorem myDev_newId (d : Dev) : myDev (newId d).2 = myDev d := rfl

theorem stepFrame_takeEntry (d : Dev) (r : Nat) : StepFrame (advanced d r) (takeEntry d r) := by
  obtain ⟨l, eq⟩ := takeEntry_eq d r
  rw [eq]
  exact .of_eq rfl rfl rfl

theorem stepFrame_newId (d : Dev) : StepFrame d (newId d).2 := .of_eq rfl rfl rfl

theorem stepFrame_begun (d : Dev) (r : Nat) (ws : List W64) : StepFrame (advanced d r) (begun d r ws) := by
  exact ((stepFrame_takeEntry d r).trans (stepFrame_newId _)).trans ((stepFrame_putTask ..).trans (stepFrame_markBusy ..))

theorem setOf_congr {d e : Dev} (same : myDev e = myDev d) (ws : List W64) : setOf e ws = setOf d ws := by simp only [setOf, same]

theorem othersOf_congr {d e : Dev} (same : myDev e = myDev d) (ws : List W64) : othersOf e ws = othersOf d ws := by
  simp only [othersOf, setOf_congr same, same]

/-- A command for this device alone that is sound and no RESET is taken, and its own share executed (R471–R473). -/
theorem takeCommand_own {d : Dev} {r : Nat} {ws : List W64} (sound : opBad d r ws = false) (alone : othersOf d ws = [])
    (own : bitAt (setOf d ws) (myDev d) = true) : takeCommand d r ws =
    (ownShare (begun d r ws) .ring (newId (takeEntry d r)).1).map fun e => finishTask e (newId (takeEntry d r)).1 := by
  have number : myDev (newId (takeEntry d r)).2 = myDev d := (myDev_newId _).trans (myDev_takeEntry d r)
  have alone' := (othersOf_congr number ws).trans alone
  have own' : bitAt (setOf (newId (takeEntry d r)).2 ws) (myDev (newId (takeEntry d r)).2) = true := by rw [setOf_congr number, number, own]
  simp only [takeCommand, sound, alone', own', List.isEmpty_nil, Bool.not_true, Bool.and_false, Bool.and_true, Bool.not_false, Bool.false_eq_true,
    if_false, if_true, List.filter_nil, sendRequests, List.foldl_nil, begun, begunTask, newTask]
  generalize ownShare _ _ _ = share
  cases share <;> rfl

/-! ### The statement -/

/-- The device takes an ABANDON in a running step: the step is given up, from the device with CONS advanced. -/
theorem commandTake_abandon {d : Dev} {r : Nat} {ws : List W64} (next : nextRing d = some (r, ws)) (sound : opBad d r ws = false)
    (alone : othersOf d ws = []) (own : bitAt (setOf d ws) (myDev d) = true) (op : opOf ws = 6) (runs : stState d = 1) :
    ∃ e, commandTake d (some 6) = .ok e ∧ Abandoned (advanced d r) e := by
  have begins := stepFrame_begun d r ws
  have runs' : stState (begun d r ws) = 1 := begins.stState_eq.trans ((step_advanced d r).1.trans runs)
  have found : taskOf (begun d r ws) (begunTask d r ws).id = some (begunTask d r ws) := by
    rw [begun, taskOf_markBusy, taskOf_putTask]
  obtain ⟨e, u, shares, gone, task, open_⟩ := ownShare_abandon found ((congrArg opOf (begunTask_words d r ws)).trans op) runs'
  refine ⟨e, ?_, .before begins gone⟩
  rw [begunTask_id] at shares task
  simp only [commandTake, next, op, if_true, takeCommand_own sound alone own, shares, Except.map, finishTask_open task open_]

/-- Settles O33: the task that the command becomes is still open when its own share has given the step up, so nothing ends it; the faults of the flush
come when STATE is 2, and abandon nothing. -/
theorem abandonStopsTheStep : Obligations.AbandonStopsTheStep := by
  unfold Obligations.AbandonStopsTheStep
  intro s r ws ⟨lives, _, next, sound, alone, own⟩ op runs
  obtain ⟨e, eff, given⟩ := commandTake_abandon next sound alone own op runs
  have ⟨state, gate, flipped, pub, stamp, cons, still, buckets, store⟩ := given.after (stepFrame_takeFaults (by rw [given.state]; decide))
  obtain ⟨-, gate₀, stamp₀, pub₀, launched⟩ := step_advanced s.dev r
  rw [gate₀, pub₀, launched] at pub
  exact ⟨_, (exec_abandon s).trans (happen_faults rfl lives eff), rfl, state, gate, flipped, pub, stamp.trans stamp₀,
    (cons r).trans (cons_advanced s.dev r), still, buckets, store⟩

end Sys2Proof.Machine
end

section
/-! SUPPORT. DMA_TAKE (09_stores_and_almanac.md, R324, R327): among cells that owe nothing, the head transfer of the queue that the round serves becomes the
last active one. -/

namespace Sys2Proof.Machine
open Sys2Proof.Safety

theorem exec_dmaTake (g : Nat) (s : State) : exec (.dmaTake g) s = happen (.dmaTake g) clocked (fun d => dmaTake d g) s := rfl

/-- Cells that owe nothing settle without effect, one after the other. -/
theorem foldlM_settleNow_idle {d : Dev} (cell : Nat → Nat) : ∀ (l : List Nat), (∀ j ∈ l, (cellOf d (cell j)).due = []) →
    l.foldlM (fun d j => settleNow d (cell j)) d = .ok d
  | [], _ => rfl
  | j :: l, idle => by
    have settled : settleNow d (cell j) = .ok d := settle_nil (idle j List.mem_cons_self)
    rw [List.foldlM_cons, settled]
    exact foldlM_settleNow_idle cell l fun i hi => idle i (List.mem_cons_of_mem j hi)

/-- The gallery after its engine has taken transfer `x` from the queue of cell `c`: the round goes on behind that cell (R324). -/
def takeTransfer (d : Dev) (g c : Nat) (x : Xfer) : Dev :=
  modGal (modCell d c fun y => { y with dmaq := y.dmaq.tail }) g fun y => { y with xs := y.xs ++ [x], next := (c + 1) % 8 }

/-- The conditions of R327 speak of the transfer and of the regions' registers alone, which the taking leaves. -/
theorem xferCheck_takeTransfer (d : Dev) (g c : Nat) (x y : Xfer) : xferCheck (takeTransfer d g c x) y = xferCheck d y := rfl

/-- A gallery in service with room takes the head transfer that its round serves, where that may move. -/
theorem dmaTake_takes {d : Dev} {g c : Nat} {q : DmaEntry} {x : Xfer} (hg : okGallery g = true) (up : portUp d (galleryPort g) = true)
    (room : (galOf d g).xs.length < 16) (idle : ∀ j, j < 8 → (cellOf d (8 * g + j)).due = []) (next : nextQueue d g = some (c, q, x))
    (sound : xferCheck d x = none) : dmaTake d g = .ok (takeTransfer d g c x) := by
  have exists_ : g < 48 := by simpa [okGallery] using hg
  have settled := foldlM_settleNow_idle (8 * g + ·) (List.range 8) fun j hj => idle j (List.mem_range.1 hj)
  have sound' : xferCheck (takeTransfer d g c x) x = none := (xferCheck_takeTransfer ..).trans sound
  unfold takeTransfer at sound' ⊢
  rw [dmaTake, if_neg (by simp [up, exists_, room])]
  simp only [settled, bind, Except.bind, next, sound', pure, Except.pure]

/-- Settles O26: nothing that the gallery's cells owe comes in between, and the conditions of R327 are met. -/
theorem dmaTakesInRound : Obligations.DmaTakesInRound := by
  unfold Obligations.DmaTakesInRound
  intro s g c q x runs calm hg up room idle next sound
  exact (exec_dmaTake g s).trans (happen_ok hg runs (dmaTake_takes hg up room idle next sound) calm)

end Sys2Proof.Machine
end

section
/-! SUPPORT. What a read of a device engine leaves where memory holds no ECC error (R314, R462): only free values and cached host lines change. -/

namespace Sys2Proof.Machine

/-- Where no bit of memory is flipped the bytes read are those that memory holds. -/
theorem eccRead_of_upset_nil {d : Dev} {a : Nat} {bs : List Byte} (sound : d.upset = []) : eccRead d a bs = (bs, d) := by simp [eccRead, sound]

theorem engRead_eq {d : Dev} (a n : Nat) (sound : d.upset = []) : ∃ k l, (engRead d a n).2 = { d with fresh := k, hostLines := l } := by
  have drawn : ∃ k l, (drawBytes n d).2 = { d with fresh := k, hostLines := l } := by
    obtain ⟨k, eq⟩ := drawBytes_eq n d
    exact ⟨k, d.hostLines, eq⟩
  unfold engRead
  dsimp only
  split
  · exact drawn
  · split
    · unfold lineAlloc
      dsimp only
      split
      · exact ⟨d.fresh, d.hostLines, rfl⟩
      · exact ⟨d.fresh, _, rfl⟩
    · exact drawn
    · exact drawn
    · exact ⟨d.fresh, d.hostLines, by rw [eccRead_of_upset_nil sound]⟩

theorem engRead_frame {β : Type} {F : Dev → β} (hF : ∀ d k l, F { d with fresh := k, hostLines := l } = F d) {d : Dev} (a n : Nat)
    (sound : d.upset = []) : F (engRead d a n).2 = F d := by
  obtain ⟨k, l, read⟩ := engRead_eq a n sound
  rw [read, hF]

/-- A read of an open place in HBM answers the bytes and changes nothing. -/
theorem engRead_hbm {d : Dev} {a o : Nat} (n : Nat) (at_ : place d a = .hbm o) (unblocked : blockedPlace d (.hbm o) = false) (sound : d.upset = []) :
    engRead d a n = (rdBytes d a n, d) := by
  simp [engRead, at_, unblocked, eccRead_of_upset_nil sound]

/-- The pieces of a message are read one after the other. -/
theorem readPieces_eq {d : Dev} (ps : List (Nat × Nat)) (sound : d.upset = []) :
    ∃ k l, (readPieces d ps).2 = { d with fresh := k, hostLines := l } := by
  refine List.foldlRecOn (motive := fun s : List Byte × Dev => ∃ k l, s.2 = { d with fresh := k, hostLines := l }) ps _ ⟨d.fresh, d.hostLines, rfl⟩ ?_
  rintro s ⟨k, l, eq⟩ p -
  obtain ⟨k', l', read⟩ := engRead_eq (d := s.2) p.1 p.2 (eq ▸ sound)
  exact ⟨k', l', read.trans (by rw [eq])⟩

theorem readPieces_frame {β : Type} {F : Dev → β} (hF : ∀ d k l, F { d with fresh := k, hostLines := l } = F d) {d : Dev} (ps : List (Nat × Nat))
    (sound : d.upset = []) : F (readPieces d ps).2 = F d := by
  obtain ⟨k, l, read⟩ := readPieces_eq ps sound
  rw [read, hF]

end Sys2Proof.Machine
end

section
/-! SUPPORT. The hand-over of a DWACC with LAST = 1 (05_backward_pair.md, 11_ring_reduction.md, R197, R385–R387, R390): when it waits, when it is dropped,
and what a tile that enters the contribution store leaves of the device. -/

namespace Sys2Proof.Machine
open Sys2Proof.Safety

/-! ### What the memory side leaves of ring and messages -/

/-- The reading of a stored tile changes registers, free values and cached host lines alone. -/
theorem dwRead_eq {d : Dev} (c : Nat) (r : DwRun) (x : Desc) (sound : d.upset = []) :
    ∃ k l t, (dwRead d c r x).2 = { d with fresh := k, hostLines := l, reg := t } := by
  have counts (e : Dev) (g n : Nat) : ∃ t, countDma e g n = { e with reg := t } := by
    unfold countDma
    split <;> exact ⟨_, rfl⟩
  unfold dwRead
  split
  · exact ⟨d.fresh, d.hostLines, d.reg, rfl⟩
  · refine List.foldlRecOn (motive := fun s : List (List Nat × Nat) × Dev => ∃ k l t, s.2 = { d with fresh := k, hostLines := l, reg := t }) dwTile _
      ⟨d.fresh, d.hostLines, d.reg, rfl⟩ ?_
    rintro s ⟨k, l, t, eq⟩ b -
    have sound₀ : s.2.upset = [] := eq ▸ sound
    obtain ⟨k₁, l₁, codes⟩ := engRead_eq (d := s.2) (dwPlace r x b.1 b.2).1 64 sound₀
    obtain ⟨t', counted⟩ := counts (engRead s.2 (dwPlace r x b.1 b.2).1 64).2 (galleryOfCell c) 66
    rw [codes] at counted
    obtain ⟨k₂, l₂, side⟩ := engRead_eq (dwPlace r x b.1 b.2).2 2
      (d := countDma (engRead s.2 (dwPlace r x b.1 b.2).1 64).2 (galleryOfCell c) 66) (by rw [codes, counted]; exact sound₀)
    refine ⟨k₂, l₂, t', side.trans ?_⟩
    rw [codes, counted, eq]

/-- The counts of a tile whose residues all agree write nothing but cells (R197). -/
theorem dwCounts_eq {d : Dev} {c : Nat} {r : DwRun} {x : Desc} {bs : List DwBlock} (good : bs.any (·.bad) = false) :
    ∃ t, dwCounts d c r x bs = { d with cells := t } := by
  unfold dwCounts descGauges gaugesAdd
  rw [good]
  dsimp only
  rw [if_neg Bool.false_ne_true]
  split
  · exact ⟨d.cells, rfl⟩
  · refine List.foldlRecOn (motive := fun e : Dev => ∃ t, e = { d with cells := t }) _ _ ⟨d.cells, rfl⟩ ?_
    rintro e ⟨t, rfl⟩ g -
    unfold gaugeAdd
    split <;> exact ⟨_, rfl⟩

/-- The device once the memory side of DWACC `r` has made its blocks and counted them. -/
def dwMade (d : Dev) (c : Nat) (r : DwRun) (x : Desc) : Dev := dwCounts (dwRead d c r x).2 c r x (dwBlocks r (dwRead d c r x).1)

section dwMade
variable {d : Dev} {c : Nat} {r : DwRun} {x : Desc} (sound : d.upset = []) (good : (dwBlocks r (dwRead d c r x).1).any (·.bad) = false)
include sound good

theorem dwFrame_dwMade : DwFrame c d (dwMade d c r x) :=
  have read : DwFrame c d (dwRead d c r x).2 := dwFrame_dwRead r x sound
  read.trans (dwFrame_dwCounts r x (read.upset sound) good)

/-- What lies outside registers, free values, cached host lines and cells is left. -/
theorem dwMade_frame {β : Type} {F : Dev → β} (hF : ∀ d k l t u, F { d with fresh := k, hostLines := l, reg := t, cells := u } = F d) :
    F (dwMade d c r x) = F d := by
  obtain ⟨k, l, t, read⟩ := dwRead_eq c r x sound
  obtain ⟨u, counted⟩ := dwCounts_eq (d := (dwRead d c r x).2) (c := c) (x := x) good
  rw [dwMade, counted, read]
  exact hF d k l t u
end dwMade

/-! ### The hand-over -/

theorem exec_ringHandover (c : Nat) (s : State) : exec (.ringHandover c) s = happen (.ringHandover c) clocked (fun d => ringHandover d c) s := rfl

/-- The one DWACC of an idle cell hands over, or waits. -/
theorem ringHandover_one {d : Dev} {c : Nat} {r : DwRun} {x : Desc} (idle : (cellOf d c).due = []) (one : (cellOf d c).dwMem = [r]) (last : r.last = true)
    (hx : r.d = some x) : ringHandover d c = .ok ((handOver d c r x).getD d) := by
  have settled : settleNow d c = .ok d := settle_nil idle
  cases h : handOver d c r x <;> simp [ringHandover, bind, Except.bind, pure, Except.pure, settled, one, last, hx, h]

/-- In STATE 2 the tile is dropped, and counts all the same (R385). -/
theorem handOver_abandoned {d : Dev} {c : Nat} {r : DwRun} {x : Desc} (givenUp : stState d = 2) :
    handOver d c r x = some (dwLeave d c r true) := if_pos givenUp

/-- The DWACC's address is that of the first element of a tile of its region (R385). -/
structure NamesTile (x : Desc) (a : Nat) : Prop where
  low : x.base ≤ a
  pitched : x.pitch ≠ 0
  whole : x.base + (dwPos x a).1 * x.pitch + 2 * (dwPos x a).2 = a
  row : (dwPos x a).1 % 64 = 0
  col : (dwPos x a).2 % 64 = 0

/-- The tile with the blocks `bs` as the contribution store holds it (R386). -/
def contribOf (r : DwRun) (j : Nat) (bs : List DwBlock) : Contrib :=
  { bucket := r.bucket, tile := j, e16 := r.e16, rows := (chunksOf 2 bs.length bs).map fun p => p.flatMap (·.codes)
    sides := (chunksOf 2 bs.length bs).map fun p => p.map (·.side) }

/-- The tile enters the store, counts as handed over, and is the own part of its four quarters in bucket `b` (R386, R390); its words there carry valid ECC. -/
def storeTile (d : Dev) (b : Bucket) (t : Contrib) : Dev :=
  let d := { d with ring := { d.ring with store := d.ring.store ++ [t], handed := d.ring.handed ++ [(t.bucket, t.tile)] }
                    upset := d.upset.filter fun u => !decide (contribAt t.bucket t.tile 0 ≤ 8 * u.1 ∧ 8 * u.1 < contribAt t.bucket t.tile 4) }
  putBucket d ((List.range 4).foldl (fun b q => withOwn d b t t.tile q) b)

/-- The storing of a tile changes the ring and the flipped bits alone. -/
theorem storeTile_frame {β : Type} {F : Dev → β} (hF : ∀ d x u, F { d with ring := x, upset := u } = F d) (d : Dev) (b : Bucket) (t : Contrib) :
    F (storeTile d b t) = F d := hF d _ _

theorem storeTile_store (d : Dev) (b : Bucket) (t : Contrib) : (storeTile d b t).ring.store = d.ring.store ++ [t] := rfl
theorem storeTile_handed (d : Dev) (b : Bucket) (t : Contrib) : (storeTile d b t).ring.handed = d.ring.handed ++ [(t.bucket, t.tile)] := rfl

/-- What neither a cell nor the ring nor the flipped bits hold is left by the tile that enters the store and the DWACC that leaves its cell. -/
theorem handedOver_frame {β : Type} {F : Dev → β} (hC : ∀ d c (f : Cell → Cell), F (modCell d c f) = F d)
    (hS : ∀ d x u, F { d with ring := x, upset := u } = F d) (d : Dev) (b : Bucket) (t : Contrib) (c : Nat) (r : DwRun) :
    F (dwLeave (storeTile d b t) c r true) = F d :=
  (dwLeave_frame hC ..).trans (storeTile_frame hS ..)

section handOver
variable {d : Dev} {c : Nat} {r : DwRun} {x : Desc} (goes : stState d ≠ 2) (placed : dwBad d r x = none) (names : NamesTile x r.addr)
include goes placed names

/-- Without a class for its bytes it waits (R332). -/
theorem handOver_waits_class (may : dwMay d (galleryOfCell c) r x = false) : handOver d c r x = none := by
  obtain ⟨low, pitched, whole, row, col⟩ := names
  simp [handOver, goes, placed, low, pitched, whole, row, col, may]

/-- While its bucket cannot open it waits (R387). -/
theorem handOver_waits_room (full : ensureOpen d r.bucket (workStamp d) = none) : handOver d c r x = none := by
  obtain ⟨low, pitched, whole, row, col⟩ := names
  simp [handOver, goes, placed, low, pitched, whole, row, col, full]

/-- A tile of an open bucket that has not been handed over before enters the store, where there is room, and the DWACC leaves the cell. -/
theorem handOver_stores {b : Bucket} {j : Nat} (may : dwMay d (galleryOfCell c) r x = true) (opened : openBucket d r.bucket = some b)
    (tile : (dwPos x r.addr).1 / 64 * tilesAcross x.cols + (dwPos x r.addr).2 / 64 = bkT0 b + j) (inside : j < bkTiles b)
    (new : d.ring.handed.contains (r.bucket, j) = false) (room : d.ring.store.length < 1024) :
    handOver d c r x = some (dwLeave (storeTile (dwMade d c r x) b (contribOf r j (dwBlocks r (dwRead d c r x).1))) c r true) := by
  obtain ⟨low, pitched, whole, row, col⟩ := names
  have form : (decide (x.base ≤ r.addr) && x.pitch != 0 && x.base + (dwPos x r.addr).1 * x.pitch + 2 * (dwPos x r.addr).2 == r.addr
      && (dwPos x r.addr).1 % 64 == 0 && (dwPos x r.addr).2 % 64 == 0) = true := by simp [low, pitched, whole, row, col]
  have open_ : ensureOpen d r.bucket (workStamp d) = some (.ok (b, d)) := by simp only [ensureOpen, opened]
  have fits : ¬(bkT0 b + j < bkT0 b ∨ bkTiles b ≤ j ∨ d.ring.handed.contains (r.bucket, j) = true) := by
    simp only [new, Bool.false_eq_true, or_false]
    omega
  simp only [handOver, if_neg goes, placed, form, may, open_, tile, Nat.add_sub_cancel_left, if_neg fits, if_neg (Nat.not_le.2 room), Bool.not_true,
    Bool.false_eq_true, if_false]
  rfl
end handOver

/-- A seventeenth bucket does not open (R387). -/
theorem ensureOpen_full {d : Dev} {n stamp : Nat} (closed : openBucket d n = none) (valid : entryBad d (readBucket d n stamp).1 = false)
    (full : 16 ≤ d.ring.buckets.length) : ensureOpen d n stamp = none := by
  unfold ensureOpen
  rw [closed]
  generalize readBucket d n stamp = read at valid
  obtain ⟨b, e⟩ := read
  simp only [valid, Bool.false_eq_true, if_false, if_pos full]

/-- Settles O34: the hand-over of the cell's one DWACC is dropped, waits, or enters the store; then its blocks are made in the frame of `DwFrame`, its tile
changes the ring alone, and it leaves the cell. -/
theorem handoverFillsTheStore : Obligations.HandoverFillsTheStore := by
  unfold Obligations.HandoverFillsTheStore
  intro s c r x runs calm hc up idle one last hx sound at_
  have act := ringHandover_one idle one last hx
  have hands {d : Dev} (eff : handOver s.dev c r x = some d) (quiet : d.raised = []) : Yields (.ringHandover c) s d :=
    (exec_ringHandover c s).trans (happen_ok hc runs (by rw [act, eff, Option.getD_some]) quiet)
  have waits (eff : handOver s.dev c r x = none) : Yields (.ringHandover c) s s.dev :=
    (exec_ringHandover c s).trans (happen_ok hc runs (by rw [act, eff, Option.getD_none]) calm)
  refine ⟨fun givenUp => ?dropped, fun goes placed low pitched whole row col => ?handed⟩
  case dropped => exact hands (handOver_abandoned givenUp) ((dwLeave_frame (F := (·.raised)) (fun _ _ _ => rfl) ..).trans calm)
  case handed =>
    have names : NamesTile x r.addr := ⟨low, pitched, whole, row, col⟩
    refine ⟨fun may => ?noClass, fun b j opened tile inside new room may good => ?stores, fun closed valid full => ?noRoom⟩
    case noClass => exact waits (handOver_waits_class goes placed names may)
    case noRoom => exact waits (handOver_waits_room goes placed names (ensureOpen_full closed valid full))
    case stores =>
      have eff := handOver_stores (c := c) goes placed names may opened tile inside new room
      have frame := dwFrame_dwMade sound good
      have ring : (dwMade s.dev c r x).ring = s.dev.ring := dwMade_frame (F := (·.ring)) sound good fun _ _ _ _ _ => rfl
      have cells := cellOf_dwLeave (d := storeTile (dwMade s.dev c r x) b (contribOf r j (dwBlocks r (dwRead s.dev c r x).1))) (r := r)
        ((storeTile_frame (F := (portUp · (cellPort c))) (fun _ _ _ => rfl) ..).trans ((frame.portUp_eq _).trans up))
      refine ⟨_, hands eff ?calm, ?handed, ?store, ?cell, ?mem, fun o ne => ?regs, ?tx⟩
      case calm => exact (handedOver_frame (F := (·.raised)) (fun _ _ _ => rfl) (fun _ _ _ => rfl) ..).trans (frame.raised.trans calm)
      case handed =>
        refine (dwLeave_frame (F := (·.ring.handed)) (fun _ _ _ => rfl) ..).trans ((storeTile_handed ..).trans ?_)
        rw [ring]
        rfl
      case store =>
        refine (dwLeave_frame (F := (·.ring.store)) (fun _ _ _ => rfl) ..).trans ((storeTile_store ..).trans ?_)
        rw [ring]
        rfl
      case cell =>
        have made : cellOf (storeTile (dwMade s.dev c r x) b (contribOf r j (dwBlocks r (dwRead s.dev c r x).1))) c = cellOf (dwMade s.dev c r x) c :=
          storeTile_frame (F := (cellOf · c)) (fun _ _ _ => rfl) ..
        dsimp only
        rw [cells c, if_pos rfl, made, frame.cell]
        simp [one, holdCredit, holdAdd, holdSet, holdCount, holdTarget]
      case mem =>
        refine (handedOver_frame (F := (·.mem)) (fun _ _ _ => rfl) (fun _ _ _ => rfl) ..).trans ?_
        exact dwMade_frame (F := (·.mem)) sound good fun _ _ _ _ _ => rfl
      case regs => exact (handedOver_frame (F := (rg · o)) (fun _ _ _ => rfl) (fun _ _ _ => rfl) ..).trans (frame.regs o ne)
      case tx =>
        refine (handedOver_frame (F := (·.tx)) (fun _ _ _ => rfl) (fun _ _ _ => rfl) ..).trans ?_
        exact dwMade_frame (F := (·.tx)) sound good fun _ _ _ _ _ => rfl

end Sys2Proof.Machine
end

section
/-! SUPPORT. Fabric transfers (13_fabric.md, R439–R441, R458): the poll of a transfer ring, the taking of an entry, the sending of a message, and the end of
the source read, where memory holds no ECC error. -/

namespace Sys2Proof.Machine
open Sys2Proof.Safety

/-- Where the engines outside the compute dies run, no dump is under way. -/
theorem running_dump {d : Dev} (runs : running d = true) : d.dump.isSome = false := by
  simp only [running, Bool.and_eq_true, Option.isNone_iff_eq_none] at runs
  rw [runs.2, Option.isSome_none]

/-! ### The poll of a ring -/

theorem exec_fabRingPoll (r : Nat) (s : State) : exec (.fabRingPoll r) s = happen (.fabRingPoll r) running (fun d => .ok (ringPoll d r)) s := rfl

/-- PROD of a valid ring, no more than a ring's length ahead of CONS, is what the engine knows of it from now on (R440). -/
theorem ringPoll_within {d : Dev} {r : Nat} (whole : d.dump.isSome = false) (hr : r < 49) (valid : bitAt (xring d r) 63 = true)
    (sane : d.fab.overrun.contains r = false) (may : ownerMay d 50 false (xringBase d r) 4 = true)
    (within : (leNat (engRead d (xringBase d r) 4).1 + 2 ^ 32 - xringCons (engRead d (xringBase d r) 4).2 r) % 2 ^ 32
      ≤ 2 ^ fld (xring (engRead d (xringBase d r) 4).2 r) 51 48) :
    ringPoll d r = { (engRead d (xringBase d r) 4).2 with
      fab := { (engRead d (xringBase d r) 4).2.fab with
        prod := tabPut (fun _ => 0) (engRead d (xringBase d r) 4).2.fab.prod r (leNat (engRead d (xringBase d r) 4).1) } } := by
  have known : decide (48 < r) = false := decide_eq_false (by omega)
  simp only [ringPoll, whole, known, valid, sane, may, Bool.not_true, Bool.or_self, Bool.false_eq_true, if_false, if_neg (Nat.not_lt.2 within)]

/-! ### The taking of an entry -/

theorem exec_fabTransferTake (k : Option Nat) (s : State) : exec (.fabTransferTake k) s =
    happen (.fabTransferTake k) running (fun d => match k with | none => takeXfer d | some k => sendPiece d k) s := rfl

/-- A wipe blocks all of HBM, or none of it (R527). -/
theorem blockedPlace_hbm (d : Dev) (o u : Nat) : blockedPlace d (.hbm o) = blockedPlace d (.hbm u) := rfl

/-- The transfer that the next entry of ring `r` describes (R439). -/
def nextEntry (d : Dev) (r : Nat) : FabXfer :=
  xferOfEntry d.nextId r (xringCons d r) fun k => leNat (((rdBytes d (xringEntry d r (xringCons d r)) 32).drop (8 * k)).take 8)

/-- The device once the next entry of ring `r` is taken: CONS advances in memory, and the transfer is the last active one. -/
def takeNextEntry (d : Dev) (r : Nat) : Dev :=
  { wrBytes d (xringBase d r + 32) (leBytes 4 ((xringCons d r + 1) % 2 ^ 32)) with
    nextId := d.nextId + 1, fab := { d.fab with next := (r + 1) % 49, xs := d.fab.xs ++ [nextEntry d r] } }

/-- The conditions of an entry speak of its fields and of registers alone (R442). -/
theorem entryFault_frame (d : Dev) (m : Tab Byte) (u : Tab Nat) (n : Nat) (f : FabSt) (x : FabXfer) :
    entryFault { d with mem := m, upset := u, nextId := n, fab := f } x = entryFault d x := rfl

/-- The engine takes the next entry of the ring that its round serves, where both the entry and CONS lie in open HBM. -/
theorem takeXfer_takes {d : Dev} {r o o' : Nat} (whole : d.dump.isSome = false) (sound : d.upset = []) (room : d.fab.xs.length < 32)
    (next : nextXring d = some r) (entry : place d (xringEntry d r (xringCons d r)) = .hbm o) (cons : place d (xringBase d r + 32) = .hbm o')
    (unblocked : blockedPlace d (.hbm o) = false) (good : entryFault d (nextEntry d r) = none)
    (alone : beingWritten d (xringEntry d r (xringCons d r)) 32 = false) (mayRead : ownerMay d 50 false (xringEntry d r (xringCons d r)) 32 = true)
    (mayWrite : ownerMay d 50 true (xringBase d r + 32) 4 = true) : takeXfer d = .ok (takeNextEntry d r) := by
  have read := engRead_hbm 32 entry unblocked sound
  have write := engWrite_hbm (leBytes 4 ((xringCons d r + 1) % 2 ^ 32)) cons (by rw [cons, blockedPlace_hbm d o' o, unblocked])
  have free : decide (32 ≤ d.fab.xs.length) = false := decide_eq_false (Nat.not_le.2 room)
  simp only [takeXfer, whole, free, Bool.or_self, Bool.false_eq_true, if_false, next, mayRead, mayWrite, Bool.not_true, alone, read, write]
  split
  · next fault => exact absurd (fault.symm.trans ((entryFault_frame d _ _ _ _ _).trans good)) (Option.some_ne_none _)
  · rfl

/-! ### The sending of a message -/

/-- Word 1 of the message with the next `n` bytes of a transfer (R441). -/
def dataWord (x : FabXfer) (n : Nat) : W64 :=
  w64 (b2n (decide (x.pos + n = x.len)) * 2 ^ 63 + x.rcell * 2 ^ 54 + x.rh * 2 ^ 49 + b2n x.rval * 2 ^ 48 + (x.daddr + x.pos) % 2 ^ 48)

/-- The message with the next `n` bytes of a transfer (R441, R458). -/
def dataMessage (d : Dev) (x : FabXfer) (n : Nat) (body : List Byte) : FabMsg :=
  { ownMsg d (if x.loan then 5 else 1) x.ddev (if decide (x.pos + n = x.len) then 2 else 1) (dataWord x n) body with idx := if x.loan then x.idx else 0 }

theorem dataMessage_kind (d : Dev) (x : FabXfer) (n : Nat) (body : List Byte) :
    (dataMessage d x n body).kind = if x.pos + n = x.len then 2 else 1 := by simp [dataMessage, ownMsg]

/-- A transfer with bytes left sends its next message of at most 4,096 bytes (R436, R441). -/
theorem sendPiece_sends {d : Dev} {k p n : Nat} {x : FabXfer} {ps : List (Nat × Nat)} (whole : d.dump.isSome = false) (active : d.fab.xs[k]? = some x)
    (left : x.pos < x.len) (route : letterPort d x.ddev x.idx = some p) (size : n = min 4096 (x.len - x.pos)) (pieces : ps = pieces64 (x.src + x.pos) n)
    (inRange : rangePiece d ps = false) (settled : settlePieces d ps = .ok d) (alone : beingWritten d (x.src + x.pos) n = false)
    (serves : linkServes d ps = true) (may : ownerMay d 50 false (x.src + x.pos) n = true) :
    sendPiece d k = .ok (putFab (sendMsg (readPieces d ps).2 p (dataMessage d x n (readPieces d ps).1)) { x with pos := x.pos + n }) := by
  subst size pieces
  have goesOn : decide (x.len ≤ x.pos) = false := decide_eq_false (Nat.not_le.2 left)
  simp only [sendPiece, active, whole, goesOn, Bool.or_self, Bool.false_eq_true, if_false, route, inRange, serves, may, Bool.not_true, alone, settled]
  rfl

/-! ### The end of the source read -/

theorem exec_fabSourceReadDone (k : Nat) (s : State) :
    exec (.fabSourceReadDone k) s = happen (.fabSourceReadDone k) running (fun d => .ok (sourceDone d k)) s := rfl

/-- The end of a source read counts at LCELL, if the entry names one (R441). -/
def countSource (d : Dev) (x : FabXfer) : Dev := if x.lval then engineCount d x.lcell x.lh [] else d

/-- Counting writes nothing but cells. -/
theorem countSource_frame {β : Type} {F : Dev → β} (hF : ∀ d c (f : Cell → Cell), F (modCell d c f) = F d) (d : Dev) (x : FabXfer) :
    F (countSource d x) = F d := by
  unfold countSource engineCount countAt
  split
  · split
    · exact hF ..
    · rfl
  · rfl

/-- Outside a flush no marker goes out, none is awaited, and in a step no ABANDON completes (R443, R473). -/
theorem sourceFlush_calm {d : Dev} (calm : d.fab.flushing = false) (inside : stState d ≠ 0) : abandonPoll (fabFlushEnd (fabMarkers d)) = d := by
  have markers : fabMarkers d = d := by simp [fabMarkers, calm]
  have ended : fabFlushEnd d = d := by simp [fabFlushEnd, calm]
  rw [markers, ended, abandonPoll, if_neg fun h => inside h.1]

section sourceDone
variable {d : Dev} {k : Nat} {x : FabXfer} (whole : d.dump.isSome = false) (active : d.fab.xs[k]? = some x) (unread : x.read = false) (all : x.len ≤ x.pos)
include whole active unread all

/-- A loan waits for its acknowledgement (R458). -/
theorem sourceDone_loan (loan : x.loan = true) : sourceDone d k = putFab (countSource d x) { x with read := true } := by
  have done : decide (x.pos < x.len) = false := decide_eq_false (Nat.not_lt.2 all)
  simp only [sourceDone, active, whole, unread, done, loan, Bool.or_self, Bool.false_eq_true, if_false, if_true, countSource]

/-- Any other transfer is over (R441). -/
theorem sourceDone_plain (plain : x.loan = false) (calm : d.fab.flushing = false) (inside : stState d ≠ 0) :
    sourceDone d k = { countSource d x with fab := { d.fab with xs := d.fab.xs.filter fun y => y.id != x.id } } := by
  have done : decide (x.pos < x.len) = false := decide_eq_false (Nat.not_lt.2 all)
  have fab : (countSource d x).fab = d.fab := countSource_frame (F := (·.fab)) (fun _ _ _ => rfl) d x
  have state : stState (countSource d x) = stState d := countSource_frame (F := stState) (fun _ _ _ => rfl) d x
  have ends : sourceDone d k = abandonPoll (fabFlushEnd (fabMarkers { countSource d x with
      fab := { (countSource d x).fab with xs := (countSource d x).fab.xs.filter fun y => y.id != x.id } })) := by
    simp only [sourceDone, active, whole, unread, done, plain, Bool.or_self, Bool.false_eq_true, if_false, countSource]
  rw [ends, fab]
  exact sourceFlush_calm calm (state.trans_ne inside)
end sourceDone

/-! ### The statement -/

/-- Settles O40: the engine's reads meet no error, so a poll, an entry and a message change what they name and, for a host address, the lines that the device
caches; and outside a flush the end of a source read lets no marker out. -/
theorem fabricTransfersMove : Obligations.FabricTransfersMove := by
  unfold Obligations.FabricTransfersMove
  intro s ⟨runs, calm⟩ sound
  have whole := running_dump runs
  refine ⟨fun r hr valid sane may => ?poll, fun r o o' room next => ?take, fun k x p active left route => ?send, fun k x active unread all => ?read⟩
  case poll =>
    intro b within
    have quiet : b.2.raised = s.dev.raised := engRead_frame (F := (·.raised)) (fun _ _ _ => rfl) _ _ sound
    exact happen_yields (exec_fabRingPoll r s) (decide_eq_true hr) runs calm (ringPoll_within whole hr valid sane may within) quiet
  case take =>
    intro e x entry cons unblocked good alone mayRead mayWrite
    have eff := takeXfer_takes whole sound room next entry cons unblocked good alone mayRead mayWrite
    exact (exec_fabTransferTake none s).trans (happen_ok rfl runs eff calm)
  case send =>
    intro n r ⟨_, inRange, settled, _⟩ alone serves may
    have eff : sendPiece s.dev k = .ok (putFab (sendMsg r.2 p (dataMessage s.dev x n r.1)) { x with pos := x.pos + n }) :=
      sendPiece_sends whole active left route rfl rfl inRange (eq_ok_of_toOption settled) alone serves may
    have mem : r.2.mem = s.dev.mem := readPieces_mem s.dev (pieces64 (x.src + x.pos) n)
    have tx : r.2.tx = s.dev.tx := readPieces_frame (F := (·.tx)) (fun _ _ _ => rfl) _ sound
    have fab : r.2.fab = s.dev.fab := readPieces_frame (F := (·.fab)) (fun _ _ _ => rfl) _ sound
    have quiet : r.2.raised = s.dev.raised := readPieces_frame (F := (·.raised)) (fun _ _ _ => rfl) _ sound
    clear_value r -- what the pieces hold plays no part in what follows
    have acts := (exec_fabTransferTake (some k) s).trans (happen_ok rfl runs eff (quiet.trans calm))
    refine ⟨_, dataMessage s.dev x n r.1, acts, ?tx, rfl, rfl, rfl, rfl, dataMessage_kind .., mem, ?xs⟩
    case tx => exact congrArg (· ++ [(p, dataMessage s.dev x n r.1)]) tx
    case xs => exact congrArg (fun f : FabSt => f.xs.map fun y => if y.id = x.id then { x with pos := x.pos + n } else y) fab
  case read =>
    have raised : (countSource s.dev x).raised = s.dev.raised := countSource_frame (F := (·.raised)) (fun _ _ _ => rfl) ..
    refine ⟨fun loan => ?loan, fun plain quiet inside => ?plain⟩
    case loan => exact happen_yields (exec_fabSourceReadDone k s) rfl runs calm (sourceDone_loan whole active unread all loan) raised
    case plain => exact happen_yields (exec_fabSourceReadDone k s) rfl runs calm (sourceDone_plain whole active unread all plain quiet inside) raised

end Sys2Proof.Machine
end

section
/-! SUPPORT. What records, events, reports and messages leave (13_fabric.md, 14_host_link.md): they write memory, the host's side of the device, messages, and
the registers that count them. -/

namespace Sys2Proof.Machine

/-- `F` looks at nothing that a record, an event, a report or a message of the device changes. -/
structure LinkBlind {β : Type} (F : Dev → β) : Prop where
  memory : ∀ d m u l, F { d with mem := m, upset := u, hostLines := l } = F d
  host : ∀ d h, F { d with host := h } = F d
  messages : ∀ d t f, F { d with tx := t, fab := f } = F d
  events : ∀ d hi lo v, F (putRgf d 0x20_0110 hi lo v) = F d
  reports : ∀ d hi lo v, F (putRgf d 0x20_0218 hi lo v) = F d
  busy : ∀ d r v, F (putRgf d (cqReg r 0x18) 0 0 v) = F d

/-- What looks at no register is blind as soon as it looks at none of the rest. -/
theorem LinkBlind.of_frame {β : Type} {F : Dev → β}
    (hF : ∀ d m u l h t f r, F { d with mem := m, upset := u, hostLines := l, host := h, tx := t, fab := f, reg := r } = F d) : LinkBlind F where
  memory d m u l := hF d m u l d.host d.tx d.fab d.reg
  host d h := hF d d.mem d.upset d.hostLines h d.tx d.fab d.reg
  messages d t f := hF d d.mem d.upset d.hostLines d.host t f d.reg
  events d _ _ _ := hF d d.mem d.upset d.hostLines d.host d.tx d.fab _
  reports d _ _ _ := hF d d.mem d.upset d.hostLines d.host d.tx d.fab _
  busy d _ _ := hF d d.mem d.upset d.hostLines d.host d.tx d.fab _

/-- What is worked out from something blind is blind. -/
theorem LinkBlind.map {β γ : Type} {F : Dev → β} (blind : LinkBlind F) (g : β → γ) : LinkBlind fun d => g (F d) where
  memory d m u l := congrArg g (blind.memory d m u l)
  host d h := congrArg g (blind.host d h)
  messages d t f := congrArg g (blind.messages d t f)
  events d hi lo v := congrArg g (blind.events d hi lo v)
  reports d hi lo v := congrArg g (blind.reports d hi lo v)
  busy d r v := congrArg g (blind.busy d r v)

/-- A register that is neither EQ_STAT, nor RPT_STAT, nor a CQ_STAT. -/
theorem linkBlind_rg {o : Nat} (event : o ≠ 0x20_0110) (stat : o % 0x40 ≠ 0x18) : LinkBlind (rg · o) where
  memory _ _ _ _ := rfl
  host _ _ := rfl
  messages _ _ _ := rfl
  events d _ _ _ := rg_putRgf_other d _ _ _ event
  reports d _ _ _ := rg_putRgf_other d _ _ _ (by rintro rfl; exact stat rfl)
  busy d r _ := rg_putRgf_other d _ _ _ (by unfold cqReg; omega)

theorem linkBlind_stState : LinkBlind stState := (linkBlind_rg (o := 0x30B_0000) (by decide) (by decide)).map fun w => fld w.toNat 1 0
theorem linkBlind_stLast : LinkBlind stLast := (linkBlind_rg (o := 0x30B_0008) (by decide) (by decide)).map fun w => fld w.toNat 47 0

/-- CONS of a command ring is not what marks the ring busy. -/
theorem linkBlind_cons {r : Nat} (hr : r < 4) : LinkBlind fun d => rgf d (cqReg r 0x18) 63 32 where
  memory _ _ _ _ := rfl
  host _ _ := rfl
  messages _ _ _ := rfl
  events d _ _ _ := rgf_putRgf_other d _ _ _ _ _ (by unfold cqReg; omega)
  reports d _ _ _ := rgf_putRgf_other d _ _ _ _ _ (by unfold cqReg; omega)
  busy d k v := by
    by_cases same : k = r
    · subst same
      exact rgf_putRgf_field d _ v (by decide) (by decide)
    · exact rgf_putRgf_other d _ _ _ _ _ (by unfold cqReg; omega)

section LinkBlind
variable {β : Type} {F : Dev → β} (blind : LinkBlind F)
include blind

theorem hostWrite_frame (d : Dev) (a : Nat) (bs : List Byte) : F (hostWrite d a bs) = F d := by
  unfold hostWrite
  split
  · exact engWrite_frame blind.memory d a bs
  · exact blind.host ..

theorem sendMsg_frame (d : Dev) (p : Nat) (m : FabMsg) : F (sendMsg d p m) = F d := blind.messages d _ d.fab

theorem sendRouted_frame (d : Dev) (letter : Nat) (m : FabMsg) : F (sendRouted d letter m) = F d := by
  unfold sendRouted
  split
  · exact sendMsg_frame blind ..
  · exact blind.messages d d.tx _

/-! ### Events and reports -/

theorem eventGone_frame (d : Dev) : F (eventGone d) = F d := by
  unfold eventGone
  dsimp only
  split
  · exact blind.host ..
  · exact (blind.host ..).trans (blind.host ..)

theorem eventWrite_frame (d : Dev) : F (eventWrite d) = F d := by
  unfold eventWrite
  dsimp only
  split
  · rfl
  · split
    · split
      · exact (eventGone_frame blind _).trans (sendMsg_frame blind ..)
      · rfl
    · split
      · rfl
      · exact (eventGone_frame blind _).trans ((blind.events ..).trans (hostWrite_frame blind ..))

theorem holdEvent_frame (d : Dev) (e : HeldEvent) : F (holdEvent d e) = F d := by
  unfold holdEvent
  extract_lets room
  have made : F room = F d := by
    unfold room
    split
    · exact eventWrite_frame blind d
    · rfl
  split
  · exact (blind.host ..).trans ((blind.events room ..).trans made)
  · exact (blind.host room _).trans made

theorem postEvent_frame (d : Dev) (type : Nat) (arg0 arg1 : W64) : F (postEvent d type arg0 arg1) = F d := holdEvent_frame blind d _

theorem sendReport_frame (d : Dev) (root a : Nat) (bs : List Byte) : F (sendReport d root a bs) = F d :=
  foldl_frame F _ (fun d _ => sendRouted_frame blind d ..) _ d

theorem writeReport_frame (d : Dev) (committed : Bool) : F (writeReport d committed) = F d := by
  unfold writeReport
  dsimp only
  split
  · refine (postEvent_frame blind ..).trans ((blind.reports ..).trans ?_)
    split
    · exact sendReport_frame blind ..
    · exact hostWrite_frame blind ..
  · exact (postEvent_frame blind ..).trans (blind.reports ..)

/-! ### Tasks -/

theorem writeRecord_frame (d : Dev) (t : HostTask) : F (writeRecord d t) = F d :=
  (blind.busy ..).trans ((hostWrite_frame blind ..).trans (blind.host ..))

theorem finishTask_frame (d : Dev) (i : Nat) : F (finishTask d i) = F d := by
  unfold finishTask
  split
  · rfl
  · split
    · rfl
    · split
      · split
        · exact blind.host ..
        · exact writeRecord_frame blind ..
      · dsimp only
        split
        · exact (sendRouted_frame blind ..).trans (blind.host ..)
        · exact blind.host ..

theorem endShare_frame (d : Dev) (i status reason : Nat) : F (endShare d i status reason) = F d := by
  unfold endShare
  split
  · rfl
  · exact (finishTask_frame blind ..).trans (blind.host ..)

theorem abandonPoll_frame (d : Dev) : F (abandonPoll d) = F d := by
  unfold abandonPoll
  split
  · exact foldl_frame F _ (fun d _ => endShare_frame blind d ..) _ d
  · rfl
end LinkBlind

end Sys2Proof.Machine
end

section
/-! SUPPORT. Data and loan messages that arrive (13_fabric.md, R364, R441, R442, R457, R458): what a message writes and counts, and the end of a loan. -/

namespace Sys2Proof.Machine
open Sys2Proof.Safety

theorem exec_fabDataReceive (p : Nat) (m : FabMsg) (s : State) :
    exec (.fabDataReceive p m) s = happen (.fabDataReceive p m) (arrives p) (fun d => dataReceive d p m) s := rfl

theorem exec_loanAckReceive (p : Nat) (m : FabMsg) (s : State) :
    exec (.loanAckReceive p m) s = happen (.loanAckReceive p m) (arrives p) (fun d => .ok (loanAck d m)) s := rfl

/-! ### What a message writes, and what it leaves -/

theorem writePieces_frame {β : Type} {F : Dev → β} (hF : ∀ d m u l, F { d with mem := m, upset := u, hostLines := l } = F d) :
    ∀ (ps : List (Nat × Nat)) (d : Dev) (bs : List Byte), F (writePieces d ps bs) = F d
  | [], _, _ => rfl
  | p :: ps, d, _ => (writePieces_frame hF ps ..).trans (engWrite_frame hF d p.1 _)

@[simp] theorem writePieces_raised (d : Dev) (ps : List (Nat × Nat)) (bs : List Byte) : (writePieces d ps bs).raised = d.raised :=
  writePieces_frame (F := (·.raised)) (fun _ _ _ _ => rfl) ps d bs

@[simp] theorem countAt_raised (d : Dev) (c : Nat) (q : Credit) : (countAt d c q).raised = d.raised := by
  unfold countAt
  split <;> rfl

/-- The count of a message's data raises nothing. -/
@[simp] theorem dataCounted_raised (d : Dev) (w1 : Nat) : (dataCounted d w1).raised = d.raised := by
  unfold dataCounted engineCount
  rw [countAt_raised]
  split <;> rfl

@[simp] theorem noteLoan_raised (d : Dev) (m : FabMsg) (last : Bool) : (noteLoan d m last).raised = d.raised := by
  unfold noteLoan
  split <;> rfl

/-- A message that is no loan's leaves the record of loans (R457). -/
theorem noteLoan_plain {d : Dev} {m : FabMsg} {last : Bool} (plain : m.cls ≠ 5) : noteLoan d m last = d := by
  simp [noteLoan, plain]

section dataReceive
variable {d : Dev} {p : Nat} {m : FabMsg} (up : fabUp d p = true) (whole : d.dump = none) (mine : m.dst = myDev d) (kind : m.kind = 1 ∨ m.kind = 2)
include up whole mine kind

/-- A loan that was stopped here is taken note of, and its bytes are dropped (R458). -/
theorem dataReceive_cut (loan : m.cls = 5) (cut : d.fab.cut.contains (m.src, m.idx) = true) :
    dataReceive d p m = .ok (noteLoan d m (bitAt m.w1.toNat 63)) := by
  have kept : flushed_ d p m = false := by simp [flushed_, loan]
  have kind' : (m.kind == 1 || m.kind == 2) = true := by simpa using kind
  simp [dataReceive, up, whole, mine, kind', kept, loan, cut, -List.contains_eq_mem]

/-- A message that may land: its bytes are written, its loan is noted, and the last one counts and answers (R441, R442, R458). -/
theorem dataReceive_lands {ps : List (Nat × Nat)} (cls : m.cls = 1 ∨ m.cls = 5) (pieces : ps = pieces64 (fld m.w1.toNat 47 0) m.body.length)
    (kept : flushed_ d p m = false) (uncut : m.cls = 5 → d.fab.cut.contains (m.src, m.idx) = false) (good : badPiece d ps = none)
    (open_ : (ps.any fun q => resetBlocks d (place d q.1)) = false) (inRange : rangePiece d ps = false) (serves : linkServes d ps = true)
    (may : ownerMay d 50 true (fld m.w1.toNat 47 0) m.body.length = true) (settled : settlePieces d ps = .ok d)
    (guarded : guardPieces d ps m.body = .ok ()) :
    dataReceive d p m =
      let e := noteLoan (writePieces d ps m.body) m (bitAt m.w1.toNat 63)
      if bitAt m.w1.toNat 63 then
        let e := if bitAt m.w1.toNat 48 then dataCounted e m.w1.toNat else e
        .ok (if m.cls = 5 then sendRouted e p (ownMsg e 5 m.src 3 (w64 m.idx) []) else e)
      else .ok e := by
  subst pieces
  have cls' : (m.cls == 1 || m.cls == 5) = true := by simpa using cls
  have kind' : (m.kind == 1 || m.kind == 2) = true := by simpa using kind
  have uncut' : (m.cls == 5 && d.fab.cut.contains (m.src, m.idx)) = false := by
    by_cases loan : m.cls = 5
    · rw [uncut loan, Bool.and_false]
    · simp [loan]
  simp only [dataReceive, up, whole, mine, cls', kind', kept, uncut', Option.isSome_none, bne_self_eq_false, good, open_, inRange, serves, may, settled,
    guarded, bind, Except.bind, pure, Except.pure, Bool.not_true, Bool.or_self, Bool.false_eq_true, if_false]
  cases bitAt m.w1.toNat 63 <;> rfl
end dataReceive

/-! ### The end of a loan -/

/-- The acknowledgement of loan `x` ends it: it is counted in FAB_LOANST and announced by an event (R458). -/
theorem loanAck_ends {d : Dev} {m : FabMsg} {x : FabXfer} (mine : m.dst = myDev d)
    (found : (d.fab.xs.find? fun x => x.loan && x.idx == m.w1.toNat && x.ddev == m.src && decide (x.len ≤ x.pos)) = some x) :
    loanAck d m = postEvent (putRgf { d with fab := { d.fab with xs := d.fab.xs.filter fun y => y.id != x.id } } 0x100_0030 31 16
      (satAdd 16 (rgf d 0x100_0030 31 16) 1)) 4 (w64 x.idx) 0 := by
  simp only [loanAck, mine, bne_self_eq_false, Bool.false_eq_true, if_false, found]
  rfl

/-! ### The statement -/

/-- Settles O41: a message for this device that is no stopped loan's reaches `dataReceive_lands`; of it only the last message counts, and only a loan's
would be answered. -/
theorem fabricDataArrives : Obligations.FabricDataArrives := by
  unfold Obligations.FabricDataArrives
  intro s p m ⟨lives, calm, hp, up⟩ hm mine
  have may_ : arrives p s.dev = true := by simp [arrives, lives, up]
  refine ⟨?data, fun x cls kind found => ?ack⟩
  case data =>
    intro ps last d whole kind
    have receives {e : Dev} (eff : dataReceive s.dev p m = .ok e) (quiet : e.raised = s.dev.raised) : Yields (.fabDataReceive p m) s e :=
      (exec_fabDataReceive p m s).trans (happen_ok (by simp [Instr.wf, hp, hm]) may_ eff (quiet.trans calm))
    refine ⟨fun loan cut => ?cut, fun kept ⟨good, inRange, settled, _⟩ open_ serves may guarded => ?lands⟩
    case cut => exact receives (dataReceive_cut up whole mine kind loan cut) (noteLoan_raised ..)
    case lands =>
      obtain ⟨u, guarded⟩ := Option.isSome_iff_exists.1 guarded
      have quiet : d.raised = s.dev.raised := writePieces_raised ..
      have lands (cls : m.cls = 1 ∨ m.cls = 5) (uncut : m.cls = 5 → s.dev.fab.cut.contains (m.src, m.idx) = false) :=
        dataReceive_lands up whole mine kind cls rfl kept uncut good open_ inRange serves may (eq_ok_of_toOption settled) (eq_ok_of_toOption guarded)
      refine ⟨fun data => ?data, fun loan uncut more => ?loan⟩
      case data =>
        have plain : m.cls ≠ 5 := by omega
        refine receives ?_ (e := if last && bitAt m.w1.toNat 48 then dataCounted d m.w1.toNat else d) ?_
        · rw [lands (.inl data) fun loan => absurd loan plain]
          simp only [noteLoan_plain plain, if_neg plain]
          rw [show bitAt m.w1.toNat 63 = last from rfl]
          cases last <;> cases bitAt m.w1.toNat 48 <;> rfl
        · split
          · exact (dataCounted_raised ..).trans quiet
          · exact quiet
      case loan =>
        refine receives ?_ ((noteLoan_raised ..).trans quiet)
        rw [lands (.inr loan) fun _ => uncut]
        simp only [show bitAt m.w1.toNat 63 = false from more, Bool.false_eq_true, if_false]
        rfl
  case ack =>
    have blind : LinkBlind fun d : Dev => d.raised := .of_frame fun _ _ _ _ _ _ _ _ => rfl
    refine happen_yields (exec_loanAckReceive p m s) (by simp [Instr.wf, hp, okKind, hm, cls, kind]) may_ calm (loanAck_ends mine found) ?_
    exact postEvent_frame blind ..

end Sys2Proof.Machine
end

section
/-! SUPPORT. The end of a step (10_training_step.md, R346, R358, R361): a commit and the completion of an abandoned step, and what both leave of the cells. -/

namespace Sys2Proof.Machine
open Sys2Proof.Safety

theorem exec_commit (s : State) : exec .commit s = happen .commit running (fun d => .ok (commit d)) s := rfl

theorem exec_abandonComplete (s : State) :
    exec .abandonComplete s = happen .abandonComplete running (fun d => (abandonComplete d).map abandonPoll) s := rfl

/-! ### The partial gauges and maxima -/

/-- A cell without partial gauges and maxima. -/
def noPartials (x : Cell) : Cell := { x with gauge := [], maxima := [] }

/-- The cells that a table names, and only they, lose their partial values, however often it names them. -/
theorem cellOf_foldl_noPartials (c : Nat) : ∀ (l : Tab Cell) (d : Dev), cellOf (l.foldl (fun d x => modCell d x.1 noPartials) d) c =
    if c ∈ l.map (·.1) then noPartials (cellOf d c) else cellOf d c
  | [], _ => by simp
  | a :: t, d => by
    rw [List.foldl_cons, cellOf_foldl_noPartials c t, cellOf_modCell]
    by_cases same : c = a.1
    · subst same
      simp [noPartials]
    · simp only [List.map_cons, List.mem_cons, same, false_or, if_false]

/-- What the table of cells does not name is as at reset. -/
theorem tabGet_absent {α : Type} (d : Nat → α) : ∀ (t : Tab α) {k : Nat}, k ∉ t.map (·.1) → tabGet d t k = d k
  | [], _, _ => rfl
  | (j, v) :: t, k, h => by
    simp only [List.map_cons, List.mem_cons, not_or] at h
    rw [tabGet, if_neg (Ne.symm h.1), tabGet_absent d t h.2]

/-- What holds of every entry and of the default holds of what is found. -/
theorem tabGet_all {α : Type} {P : α → Prop} (d : Nat → α) {k : Nat} (default : P (d k)) : ∀ (t : Tab α), (∀ e ∈ t, P e.2) → P (tabGet d t k)
  | [], _ => default
  | (j, v) :: t, h => by
    rw [tabGet]
    split
    · exact h _ List.mem_cons_self
    · exact tabGet_all d default t fun e he => h e (List.mem_cons_of_mem _ he)

/-- What looks neither at cells nor at the rest that a step gathers is left. -/
theorem clearPartials_frame {β : Type} {F : Dev → β}
    (hF : ∀ d c g m t r, F { d with cells := c, devGauge := g, devMax := m, stash := t, ring := r } = F d) (d : Dev) : F (clearPartials d) = F d := by
  have cell (d : Dev) (c : Nat) (f : Cell → Cell) : F (modCell d c f) = F d := hF d _ d.devGauge d.devMax d.stash d.ring
  refine Eq.trans ?_ (foldl_frame F _ (fun d (x : Nat × Cell) => cell d x.1 noPartials) d.cells d)
  exact hF _ (d.cells.foldl (fun d x => modCell d x.1 noPartials) d).cells [] [] [] _

/-- The ring forgets the maxima, and nothing else. -/
theorem ring_clearPartials (d : Dev) : (clearPartials d).ring = { d.ring with firstSent := false, secondSent := false, final := none } :=
  congrArg (fun r : RingSt => { r with firstSent := false, secondSent := false, final := none })
    (foldl_frame (·.ring) (fun d (x : Nat × Cell) => modCell d x.1 noPartials) (fun _ _ => rfl) d.cells d)

/-- The partial gauges and maxima of every cell are cleared, and nothing else there (R118, R361). -/
theorem cellOf_clearPartials (d : Dev) (c : Nat) : cellOf (clearPartials d) c = noPartials (cellOf d c) := by
  refine (cellOf_foldl_noPartials c d.cells d).trans ?_
  split
  · rfl
  · next absent => rw [cellOf, tabGet_absent _ _ absent]; rfl

/-! ### The commit -/

/-- The tables of a step that commits: the records and gauges of the barometers, the sequences and the coefficient entries (R104, R118, R358). -/
def commitTables (d : Dev) : Dev :=
  let stamp := stStamp d
  let d := (barosWith d fun v => bitAt v 3).foldl commitRecord d
  let d := (gaugeKeys d).foldl commitGauge d
  let d := if seqOn d then (List.range 128).foldl (seqCommit stamp) d else d
  (coefValid d).foldl commitEntry d

theorem commitTables_frame {β : Type} {F : Dev → β} (hW : ∀ d l, F (wrL d l) = F d) (hH : ∀ d h, F { d with histPend := h } = F d) (d : Dev) :
    F (commitTables d) = F d := by
  have record (d : Dev) (b : Nat) : F (commitRecord d b) = F d := by
    unfold commitRecord
    dsimp only
    split
    · exact hH ..
    · rfl
  have sequence (t : Nat) (d : Dev) (n : Nat) : F (seqCommit t d n) = F d := by
    unfold seqCommit
    dsimp only
    split
    · exact (hW ..).trans (hW ..)
    · rfl
  have entry (d : Dev) (n : Nat) : F (commitEntry d n) = F d := by
    unfold commitEntry
    dsimp only
    split
    · exact hW ..
    · rfl
  unfold commitTables
  extract_lets stamp recorded gauged sequenced
  have sequences : F sequenced = F gauged := by
    unfold sequenced
    split
    · exact foldl_frame F _ (sequence stamp) _ gauged
    · rfl
  have gauges : F gauged = F recorded := foldl_frame F _ (fun d _ => hW d _) _ recorded
  exact (foldl_frame F _ entry _ _).trans (sequences.trans (gauges.trans (foldl_frame F _ record _ d)))

/-- STP_LAST and STP_STATE of a step that has committed: LAST is its stamp, STATE is 0 (R358). -/
def commitRegs (d : Dev) : Dev := putRgf (putRgf (commitTables d) 0x30B_0008 47 0 (stStamp d)) 0x30B_0000 1 0 0

theorem commitRegs_frame {β : Type} {F : Dev → β} (hF : ∀ d m u h t, F { d with mem := m, upset := u, histPend := h, reg := t } = F d) (d : Dev) :
    F (commitRegs d) = F d := by
  have tables : F (commitTables d) = F d := commitTables_frame (fun d _ => hF d _ _ d.histPend d.reg) (fun d h => hF d d.mem d.upset h d.reg) d
  have reg (d : Dev) (o hi lo v : Nat) : F (putRgf d o hi lo v) = F d := hF d d.mem d.upset d.histPend _
  exact (reg ..).trans ((reg ..).trans tables)

theorem stState_commitRegs (d : Dev) : stState (commitRegs d) = 0 := rgf_putRgf_same _ _ _ (by decide)

theorem stLast_commitRegs (d : Dev) : stLast (commitRegs d) = stStamp d := by
  have small : stStamp d < 2 ^ 48 := Nat.mod_lt _ (by decide)
  refine (rgf_putRgf_other _ _ _ _ _ _ (by decide)).trans ((rgf_putRgf_same _ _ _ (by decide)).trans ?_)
  exact Nat.mod_eq_of_lt small

/-- A step that is over: its report goes out, the ring forgets what was handed over, and the partial values are cleared (R118, R358). -/
def stepOver (d : Dev) : Dev :=
  let d := writeReport (commitRegs d) true
  clearPartials { d with ring := { d.ring with handed := [], done := 0 } }

/-- A step commits when its gate is open, its update is complete and the maxima are combined; with no bucket left open there is none to close. -/
theorem commit_due {d : Dev} (sound : d.upset = []) (runs : stState d = 1) (opened : stGate d = true) (updated : dhDone d = true)
    (combined : maximaReady d = true) (closed : (d.ring.buckets.any (·.stamp == stStamp d)) = false) : commit d = stepOver d := by
  have due : (stState d == 1 && stGate d && dhDone d && maximaReady d) = true := by simp [runs, opened, updated, combined]
  have buckets : (commitRegs d).ring.buckets = d.ring.buckets :=
    commitRegs_frame (F := (·.ring.buckets)) (fun _ _ _ _ _ => rfl) d
  have none_ : (commitRegs d).ring.buckets.filter (·.stamp == stStamp d) = [] := by
    rw [buckets, List.filter_eq_nil_iff]
    exact fun b hb => by simpa using List.any_eq_false.1 closed b hb
  have step : commit d = ((commitRegs d).ring.buckets.filter (·.stamp == stStamp d)).foldl closeBucket (stepOver d) := by
    simp only [commit, due, eccTouch_of_upset_nil sound, ite_self, if_true]
    rfl
  rw [step, none_, List.foldl_nil]

/-- Before that a commit changes nothing. -/
theorem commit_early {d : Dev} (early : stGate d = false ∨ dhDone d = false) : commit d = d := by
  rcases early with h | h <;> simp [commit, h]

/-- What the report of a step and the clearing behind it leave. -/
theorem stepOver_frame {β : Type} {F : Dev → β} (blind : LinkBlind F)
    (hF : ∀ d c g m t r, F { d with cells := c, devGauge := g, devMax := m, stash := t, ring := r } = F d) (d : Dev) : F (stepOver d) = F (commitRegs d) :=
  (clearPartials_frame hF _).trans ((hF _ (writeReport (commitRegs d) true).cells _ _ _ _).trans (writeReport_frame blind ..))

/-- A committed step's STATE is 0, and LAST is its stamp (R358). -/
theorem state_stepOver (d : Dev) : stState (stepOver d) = 0 ∧ stLast (stepOver d) = stStamp d :=
  ⟨(stepOver_frame linkBlind_stState (fun _ _ _ _ _ _ => rfl) d).trans (stState_commitRegs d),
    (stepOver_frame linkBlind_stLast (fun _ _ _ _ _ _ => rfl) d).trans (stLast_commitRegs d)⟩

theorem ports_stepOver (d : Dev) : (stepOver d).ports = d.ports :=
  (stepOver_frame (F := (·.ports)) (.of_frame fun _ _ _ _ _ _ _ _ => rfl) (fun _ _ _ _ _ _ => rfl) d).trans
    (commitRegs_frame (F := (·.ports)) (fun _ _ _ _ _ => rfl) d)

theorem raised_stepOver (d : Dev) : (stepOver d).raised = d.raised :=
  (stepOver_frame (F := (·.raised)) (.of_frame fun _ _ _ _ _ _ _ _ => rfl) (fun _ _ _ _ _ _ => rfl) d).trans
    (commitRegs_frame (F := (·.raised)) (fun _ _ _ _ _ => rfl) d)

theorem cellOf_stepOver (d : Dev) (c : Nat) : cellOf (stepOver d) c = noPartials (cellOf d c) := by
  have reported : cellOf (writeReport (commitRegs d) true) c = cellOf (commitRegs d) c :=
    writeReport_frame (F := (cellOf · c)) (.of_frame fun _ _ _ _ _ _ _ _ => rfl) ..
  have tables : cellOf (commitRegs d) c = cellOf d c := commitRegs_frame (F := (cellOf · c)) (fun _ _ _ _ _ => rfl) d
  exact (cellOf_clearPartials ..).trans (congrArg noPartials (reported.trans tables))

/-- Nothing counts as complete or handed over any more. -/
theorem ring_stepOver (d : Dev) : (stepOver d).ring.done = 0 ∧ (stepOver d).ring.handed = [] := by
  rw [stepOver, ring_clearPartials]
  exact ⟨rfl, rfl⟩

/-! ### The end of an abandoned step -/

/-- An abandoned step that is over: STATE returns to 0, its report goes out, and the partial values are cleared (R361). -/
def abandonOver (d : Dev) : Dev := clearPartials (writeReport (putRgf d 0x30B_0000 1 0 0) false)

/-- Cells that have no operation under way owe nothing. -/
theorem due_of_opsDone {d : Dev} (done : opsDone d = true) (c : Nat) : (cellOf d c).due = [] := by
  refine tabGet_all (P := fun x : Cell => x.due = []) _ rfl d.cells fun e he => ?_
  have entry := List.all_eq_true.1 done e he
  simp only [Bool.and_eq_true, List.isEmpty_iff] at entry
  exact entry.1

/-- Where no cell owes anything no cell has to be settled. -/
theorem foldlM_settle_owing {d : Dev} (idle : ∀ c, (cellOf d c).due = []) : ∀ (l : List Nat),
    (l.foldlM (fun d c => if (cellOf d c).due.isEmpty then pure d else settleNow d c) d : Res Dev) = .ok d
  | [] => rfl
  | c :: l => by
    rw [List.foldlM_cons, if_pos (by simp [idle c])]
    exact foldlM_settle_owing idle l

/-- An abandoned step ends once its operations, transfers and flushes have. -/
theorem abandonComplete_due {d : Dev} (whole : d.dump.isSome = false) (given : stState d = 2) (done : opsDone d = true)
    (moved : (d.gals.all fun g => g.2.xs.isEmpty) = true) (clean : flushed d = true) (loans : d.fab.xs.all (·.loan) = true) :
    abandonComplete d = .ok (abandonOver d) := by
  have idle := foldlM_settle_owing (due_of_opsDone done) (List.range nCells)
  simp only [abandonComplete, whole, given, idle, done, moved, clean, loans, Bool.false_eq_true, ne_eq, not_true_eq_false, or_self, if_false, bind,
    Except.bind, Bool.and_self, if_true]
  rfl

/-- What the report, the clearing and the tasks that the end of an abandoned step completes leave. -/
theorem abandonOver_frame {β : Type} {F : Dev → β} (blind : LinkBlind F)
    (hF : ∀ d c g m t r, F { d with cells := c, devGauge := g, devMax := m, stash := t, ring := r } = F d) (d : Dev) :
    F (abandonPoll (abandonOver d)) = F (putRgf d 0x30B_0000 1 0 0) :=
  (abandonPoll_frame blind _).trans ((clearPartials_frame hF _).trans (writeReport_frame blind ..))

/-- An abandoned step's STATE is 0 once it is over, and LAST stays (R361). -/
theorem state_abandonOver (d : Dev) : stState (abandonPoll (abandonOver d)) = 0 ∧ stLast (abandonPoll (abandonOver d)) = stLast d :=
  ⟨(abandonOver_frame linkBlind_stState (fun _ _ _ _ _ _ => rfl) d).trans (rgf_putRgf_same _ _ _ (by decide)),
    (abandonOver_frame linkBlind_stLast (fun _ _ _ _ _ _ => rfl) d).trans (rgf_putRgf_other _ _ _ _ _ _ (by decide))⟩

theorem ports_abandonOver (d : Dev) : (abandonPoll (abandonOver d)).ports = d.ports :=
  abandonOver_frame (F := (·.ports)) (.of_frame fun _ _ _ _ _ _ _ _ => rfl) (fun _ _ _ _ _ _ => rfl) d

theorem raised_abandonOver (d : Dev) : (abandonPoll (abandonOver d)).raised = d.raised :=
  abandonOver_frame (F := (·.raised)) (.of_frame fun _ _ _ _ _ _ _ _ => rfl) (fun _ _ _ _ _ _ => rfl) d

theorem cellOf_abandonOver (d : Dev) (c : Nat) : cellOf (abandonPoll (abandonOver d)) c = noPartials (cellOf d c) := by
  have blind : LinkBlind (cellOf · c) := .of_frame fun _ _ _ _ _ _ _ _ => rfl
  refine (abandonPoll_frame blind _).trans ((cellOf_clearPartials ..).trans ?_)
  exact congrArg noPartials (writeReport_frame blind ..)

/-! ### The statement -/

/-- Settles O32: behind the step's registers come only its report and the clearing, and for an abandoned step the tasks that waited for its end. -/
theorem stepEnds : Obligations.StepEnds := by
  unfold Obligations.StepEnds
  intro s ⟨runs, calm⟩ sound cleared
  refine ⟨fun going opened updated combined closed => ?commits, fun _ early => ?early, fun given done moved clean loans => ?ends⟩
  case commits =>
    have eff := commit_due sound going opened updated combined closed
    obtain ⟨state, last⟩ := state_stepOver s.dev
    obtain ⟨complete, handed⟩ := ring_stepOver s.dev
    exact ⟨_, happen_yields (exec_commit s) rfl runs calm eff (raised_stepOver _), state, last, complete, handed, ports_stepOver _, cellOf_stepOver s.dev⟩
  case early => exact happen_yields (exec_commit s) rfl runs calm (commit_early early) rfl
  case ends =>
    have eff := congrArg (Except.map abandonPoll) (abandonComplete_due (running_dump runs) given done moved clean loans)
    obtain ⟨state, last⟩ := state_abandonOver s.dev
    have acts := (exec_abandonComplete s).trans (happen_ok rfl runs eff ((raised_abandonOver _).trans calm))
    exact ⟨_, acts, state, last, ports_abandonOver _, cellOf_abandonOver s.dev⟩

end Sys2Proof.Machine
end

section
/-! SUPPORT. LAUNCH (03_scales_and_annex.md, 10_training_step.md, R346, R353, R354, R471): the device takes the command from its ring, and the step begins. -/

namespace Sys2Proof.Machine
open Sys2Proof.Safety

theorem exec_launch (s : State) : exec .launch s = happen .launch live (fun d => commandTake d (some 5)) s := rfl

/-! ### The step's registers and data -/

/-- STP_STATE of a step of stamp `stamp` that has begun: STATE 1, GATE and FLIPPED 0 (R354). -/
def begunWord (stamp : Nat) : W64 := w64 (stamp % 2 ^ 48 * 2 ^ 8 + 1)

/-- The fields of that word. -/
theorem fields_begunWord (stamp : Nat) : fld (begunWord stamp).toNat 1 0 = 1 ∧ fld (begunWord stamp).toNat 55 8 = stamp % 2 ^ 48 ∧
    bitAt (begunWord stamp).toNat 2 = false ∧ bitAt (begunWord stamp).toNat 3 = false := by
  have word : (begunWord stamp).toNat = stamp % 2 ^ 48 * 2 ^ 8 + 1 := Nat.mod_eq_of_lt (by omega)
  simp only [word, fld, bitAt, Nat.shiftRight_eq_div_pow, beq_eq_false_iff_ne]
  omega

/-- The registers of a step that begins: STP_STATE, PUB0, ARC_STAT and UPD_STAT (R343, R354, R409). -/
def launchRegs (stamp : Nat) (d : Dev) : Dev :=
  let d := putRg d 0x30B_0000 (begunWord stamp)
  let d := putRgf d 0x30B_0010 1 1 (stPub d)
  putRg (putRg d 0x30A_0308 0) 0x30B_1008 0

theorem rg_launchRegs_state (stamp : Nat) (d : Dev) : rg (launchRegs stamp d) 0x30B_0000 = begunWord stamp := by simp [launchRegs, putRgf]

theorem rg_launchRegs_other (stamp : Nat) (d : Dev) {o : Nat} (out : o ≠ 0x30B_0000 ∧ o ≠ 0x30B_0010 ∧ o ≠ 0x30A_0308 ∧ o ≠ 0x30B_1008) :
    rg (launchRegs stamp d) o = rg d o := by
  obtain ⟨state, ver, arc, upd⟩ := out
  simp [launchRegs, putRgf, state, ver, arc, upd]

/-- The step's own data: what its report will hold, and what it gathers, which is nothing yet. -/
def launchData (replay : Bool) (d : Dev) : Dev :=
  { d with
    stp := { replay := replay, list := reportList d, slot := rgf d 0x20_0208 23 0, launchWt := d.wt, gateWt := 0, recs := [], nfault := 0 }
    ring := { d.ring with nan := [] }
    devGauge := [], devMax := [], survey := []
    srvEnt := (List.range 64).filterMap fun i =>
      let w := rg d (0x304_0000 + 8 * i)
      if bitAt w.toNat 63 then some (i, w) else none }

/-- The base of the barometer table is fixed for the step. -/
def fixBase (d : Dev) : Dev := { d with scl := { d.scl with base := rgf d 0x308_0000 47 12 * 4096 } }

/-- The device that a step starts from, its tables and its cells apart. -/
def prepared (stamp : Nat) (replay : Bool) (d : Dev) : Dev := launchData replay (launchRegs stamp (fixBase d))

theorem rg_prepared (stamp : Nat) (replay : Bool) (d : Dev) (o : Nat) : rg (prepared stamp replay d) o = rg (launchRegs stamp (fixBase d)) o := rfl

theorem prepared_frame {β : Type} {F : Dev → β} (hR : ∀ d o v, F (putRg d o v) = F d) (hB : ∀ d x, F { d with scl := x } = F d)
    (hD : ∀ d t r g m v e, F { d with stp := t, ring := r, devGauge := g, devMax := m, survey := v, srvEnt := e } = F d) (stamp : Nat) (replay : Bool)
    (d : Dev) : F (prepared stamp replay d) = F d := by
  have regs : F (launchRegs stamp (fixBase d)) = F (fixBase d) := by simp only [launchRegs, putRgf, hR]
  exact (hD (launchRegs stamp (fixBase d)) _ _ _ _ _ _).trans (regs.trans (hB d _))

theorem upset_prepared (stamp : Nat) (replay : Bool) {d : Dev} (sound : d.upset = []) : (prepared stamp replay d).upset = [] :=
  (prepared_frame (F := (·.upset)) (fun _ _ _ => rfl) (fun _ _ => rfl) (fun _ _ _ _ _ _ _ => rfl) stamp replay d).trans sound

theorem launchWt_prepared (stamp : Nat) (replay : Bool) (d : Dev) : (prepared stamp replay d).stp.launchWt = d.wt := by
  have kept : (launchRegs stamp (fixBase d)).wt = d.wt := rfl
  exact kept

/-! ### The step's tables -/

/-- The tables of a step that begins: the gauges listed for its report, the scales, the sequences and the coefficient entries (R105, R119, R354). -/
def launchTables (stamp : Nat) (d : Dev) : Dev :=
  let d := d.stp.list.foldl (fun d b => wrN d (baroAddr d b + 0xC0) 32 0) d
  let d := eccTouch (if seqOn d then eccTouch d (seqAddr d 0) 4096 else d) (coefAddr d 0) 0x80_0000
  let d := if histAwaited d stamp then { d with scl := { d.scl with ready := false, stamp := stamp, lrs := coefWaiting d } }
    else snapScalesNow d d.scl.base stamp
  let d := if seqOn d then (List.range 128).foldl seqLaunch d else d
  (coefValid d).foldl (launchEntry stamp) d

theorem launchTables_frame {β : Type} {F : Dev → β} (hF : ∀ d m u x, F { d with mem := m, upset := u, scl := x } = F d)
    (hK : ∀ d hi lo v, F (putRgf d 0x30B_1008 hi lo v) = F d) (stamp : Nat) {d : Dev} (sound : d.upset = []) : F (launchTables stamp d) = F d := by
  have hW (d : Dev) (l : List (Nat × Byte)) : F (wrL d l) = F d := hF d _ _ d.scl
  have hS (d : Dev) (x : ScaleSnap) : F { d with scl := x } = F d := hF d d.mem d.upset x
  have skewed (d : Dev) (n : Nat) : F (recordSkew d n) = F d := by
    unfold recordSkew
    extract_lets counted
    have counts : F counted = F d := hK ..
    split
    · exact counts
    · exact (hK ..).trans ((hK ..).trans counts)
  have entry (d : Dev) (n : Nat) : F (launchEntry stamp d n) = F d := by
    have written (e : Dev) (a b c u v w : Nat) : F (wrN (wrN (wrN e a 8 u) b 8 v) c 4 w) = F e := (hW ..).trans ((hW ..).trans (hW ..))
    unfold launchEntry
    dsimp only
    split
    · exact (skewed ..).trans (written ..)
    · exact written ..
  have sequence (d : Dev) (n : Nat) : F (seqLaunch d n) = F d := by
    unfold seqLaunch
    dsimp only
    split
    · exact hW ..
    · rfl
  unfold launchTables
  extract_lets listed touched scaling scaled sequenced
  have lists : F listed = F d := foldl_frame F _ (fun d _ => hW d _) _ d
  have sound' : listed.upset = [] := List.foldlRecOn (motive := fun d : Dev => d.upset = []) _ _ sound fun _ h _ _ => wrN_upset_nil h
  have touches : touched = listed := by
    unfold touched
    simp only [eccTouch_of_upset_nil sound', ite_self]
  have scales : F scaled = F touched := by
    unfold scaled
    split
    · exact hS ..
    · rw [touches, snapScalesNow_of_upset_nil sound']
      exact hS ..
  have sequences : F sequenced = F scaled := by
    unfold sequenced
    split
    · exact foldl_frame F _ sequence _ scaled
    · rfl
  exact (foldl_frame F _ entry _ _).trans (sequences.trans (scales.trans ((congrArg F touches).trans lists)))

/-! ### The step begins -/

theorem nodup_mapCells (d : Dev) : (mapCells d).Nodup := List.nodup_range.filter _

/-- What a launch makes of an in-map cell of the device (R354). -/
def launchOf (d : Dev) : Cell → Cell := launchCell (cfgGh d) (cfgFh d) (cfgDh d)

/-- Every in-map cell begins the step. -/
def launchCells (d : Dev) : Dev := (mapCells d).foldl (fun d c => modCell d c (launchOf d)) d

/-- Where a rewriting of cells rests on nothing that a cell holds it is the same for every cell. -/
theorem foldl_modCell_fixed {f : Dev → Cell → Cell} (hf : ∀ d c g, f (modCell d c g) = f d) : ∀ (l : List Nat) (d : Dev),
    l.foldl (fun d c => modCell d c (f d)) d = l.foldl (fun e c => modCell e c (f d)) d
  | [], _ => rfl
  | c :: l, d => by rw [List.foldl_cons, List.foldl_cons, foldl_modCell_fixed hf l, hf]

theorem cellOf_launchCells (d : Dev) (c : Nat) : cellOf (launchCells d) c = if c ∈ mapCells d then launchOf d (cellOf d c) else cellOf d c := by
  rw [launchCells, foldl_modCell_fixed fun _ _ _ => rfl, cellOf_foldl_modCell _ _ _ _ (nodup_mapCells d)]

/-- The push of a command changes the queue of its port, or marks the port. -/
theorem pushCmd_frame {β : Type} {F : Dev → β} (hP : ∀ d p (f : Port → Port), F (modPort d p f) = F d) (hN : ∀ d n, F { d with nextId := n } = F d)
    (d : Dev) (p : Nat) (w : W64) (extra : Bool) : F (pushCmd d p w extra).2 = F d := by
  have refused : F (refuse d p) = F d := by
    unfold refuse markNew
    exact (hP ..).trans (hP ..)
  have queued (know : List Nat) : F (enqueue d p w none know) = F d := by
    unfold enqueue newId
    exact (hP ..).trans (hN ..)
  unfold pushCmd pushFrom
  split
  · exact refused
  · exact queued _

/-- The stages of a launch: its registers and data, its tables, its cells, and the START that it pushes (R354). -/
theorem launchStep_eq (d : Dev) (stamp addr : Nat) (replay : Bool) : launchStep d stamp addr replay =
    (pushCmd (launchCells (launchTables stamp (prepared stamp replay (eccTouch d (rgf d 0x20_0220 47 2 * 4) (4 * rgf d 0x20_0220 63 52)))))
      0 (w64 (2 ^ 60 + addr % 4096)) false).2 := rfl

/-- What looks at neither memory, nor scales, nor cells, nor ports, nor UPD_STAT is as the step starts from it. -/
theorem launchStep_frame {β : Type} {F : Dev → β}
    (hF : ∀ d n p c m u x, F { d with nextId := n, ports := p, cells := c, mem := m, upset := u, scl := x } = F d)
    (hK : ∀ d hi lo v, F (putRgf d 0x30B_1008 hi lo v) = F d) (stamp addr : Nat) (replay : Bool) {d : Dev} (sound : d.upset = []) :
    F (launchStep d stamp addr replay) = F (prepared stamp replay d) := by
  have cell (d : Dev) (c : Nat) (f : Cell → Cell) : F (modCell d c f) = F d := hF d d.nextId d.ports _ d.mem d.upset d.scl
  rw [launchStep_eq, eccTouch_of_upset_nil sound, pushCmd_frame (fun d _ _ => hF d d.nextId _ d.cells d.mem d.upset d.scl)
    (fun d n => hF d n d.ports d.cells d.mem d.upset d.scl), launchCells, foldl_frame F _ fun d c => cell d c _]
  exact launchTables_frame (fun d m u x => hF d d.nextId d.ports d.cells m u x) hK stamp (upset_prepared stamp replay sound)

theorem launchOf_congr {d e : Dev} (same : rg e 0x30B_0018 = rg d 0x30B_0018) : launchOf e = launchOf d := by
  simp only [launchOf, cfgGh, cfgFh, cfgDh, rgf, same]

theorem cellOf_launchStep (stamp addr : Nat) (replay : Bool) {d : Dev} (sound : d.upset = []) (c : Nat) :
    cellOf (launchStep d stamp addr replay) c = if c ∈ mapCells d then launchOf d (cellOf d c) else cellOf d c := by
  have sound' := upset_prepared stamp replay sound
  have map : mapCells (launchTables stamp (prepared stamp replay d)) = mapCells d :=
    (launchTables_frame (F := mapCells) (fun _ _ _ _ => rfl) (fun _ _ _ _ => rfl) stamp sound').trans
      (prepared_frame (F := mapCells) (fun _ _ _ => rfl) (fun _ _ => rfl) (fun _ _ _ _ _ _ _ => rfl) stamp replay d)
  have cell : cellOf (launchTables stamp (prepared stamp replay d)) c = cellOf d c :=
    (launchTables_frame (F := (cellOf · c)) (fun _ _ _ _ => rfl) (fun _ _ _ _ => rfl) stamp sound').trans
      (prepared_frame (F := (cellOf · c)) (fun _ _ _ => rfl) (fun _ _ => rfl) (fun _ _ _ _ _ _ _ => rfl) stamp replay d)
  have counters : launchOf (launchTables stamp (prepared stamp replay d)) = launchOf d := launchOf_congr
    ((launchTables_frame (F := (rg · 0x30B_0018)) (fun _ _ _ _ => rfl) (fun _ _ _ _ => rg_putRgf_other _ _ _ _ (by decide)) stamp sound').trans
      (rg_launchRegs_other stamp (fixBase d) (by decide)))
  rw [launchStep_eq, eccTouch_of_upset_nil sound, pushCmd_frame (F := (cellOf · c)) (fun _ _ _ => rfl) (fun _ _ => rfl), cellOf_launchCells, map, cell,
    counters]

/-- Device `e` is `d` in which a step of stamp `stamp` has begun (R354). -/
structure Launched (stamp : Nat) (d e : Dev) : Prop where
  state : rg e 0x30B_0000 = begunWord stamp
  launchWt : e.stp.launchWt = d.wt
  cons : ∀ r, r < 4 → rgf e (cqReg r 0x18) 63 32 = rgf d (cqReg r 0x18) 63 32
  cells : ∀ c, cellOf e c = if c ∈ mapCells d then launchOf d (cellOf d c) else cellOf d c
  raised : e.raised = d.raised

theorem launched_launchStep (stamp addr : Nat) (replay : Bool) {d : Dev} (sound : d.upset = []) : Launched stamp d (launchStep d stamp addr replay) where
  state := (launchStep_frame (F := (rg · 0x30B_0000)) (fun _ _ _ _ _ _ _ => rfl) (fun _ _ _ _ => rg_putRgf_other _ _ _ _ (by decide)) stamp addr replay
    sound).trans (rg_launchRegs_state stamp (fixBase d))
  launchWt := (launchStep_frame (F := (·.stp.launchWt)) (fun _ _ _ _ _ _ _ => rfl) (fun _ _ _ _ => rfl) stamp addr replay sound).trans
    (launchWt_prepared stamp replay d)
  cons r hr := (launchStep_frame (F := (rgf · (cqReg r 0x18) 63 32)) (fun _ _ _ _ _ _ _ => rfl)
    (fun _ _ _ _ => rgf_putRgf_other _ _ _ _ _ _ (by unfold cqReg; omega)) stamp addr replay sound).trans
      (congrArg (fun w : W64 => fld w.toNat 63 32) (rg_launchRegs_other stamp (fixBase d) (by unfold cqReg; omega)))
  cells := cellOf_launchStep stamp addr replay sound
  raised := (launchStep_frame (F := (·.raised)) (fun _ _ _ _ _ _ _ => rfl) (fun _ _ _ _ => rfl) stamp addr replay sound).trans
    (prepared_frame (F := (·.raised)) (fun _ _ _ => rfl) (fun _ _ => rfl) (fun _ _ _ _ _ _ _ => rfl) stamp replay d)

/-- What the end of the command writes leaves the step that has begun. -/
theorem Launched.after {stamp : Nat} {d e f : Dev} (h : Launched stamp d e) (k : ∀ {β : Type} {F : Dev → β}, LinkBlind F → F f = F e) :
    Launched stamp d f where
  state := (k (linkBlind_rg (by decide) (by decide))).trans h.state
  launchWt := (k (F := (·.stp.launchWt)) (.of_frame fun _ _ _ _ _ _ _ _ => rfl)).trans h.launchWt
  cons r hr := (k (linkBlind_cons hr)).trans (h.cons r hr)
  cells c := (k (F := (cellOf · c)) (.of_frame fun _ _ _ _ _ _ _ _ => rfl)).trans (h.cells c)
  raised := (k (F := (·.raised)) (.of_frame fun _ _ _ _ _ _ _ _ => rfl)).trans h.raised

/-! ### The command -/

/-- A command is taken from one of the four rings (R471). -/
theorem nextRing_lt {d : Dev} {r : Nat} {ws : List W64} (next : nextRing d = some (r, ws)) : r < 4 := by
  unfold nextRing at next
  split at next
  · cases next
  · have found := List.mem_of_head? next
    simp only [List.mem_filterMap, Option.map_eq_some_iff, Prod.mk.injEq] at found
    obtain ⟨k, -, _, -, rfl, -⟩ := found
    omega

/-- The taking of a command touches its number, the rings, cached host lines and registers. -/
theorem begun_frame {β : Type} {F : Dev → β} (hF : ∀ d n l h t, F { d with nextId := n, hostLines := l, host := h, reg := t } = F d) (d : Dev) (r : Nat)
    (ws : List W64) : F (begun d r ws) = F d := by
  obtain ⟨l, taken⟩ := takeEntry_eq d r
  unfold begun markBusy putRgf putRg putTask newId
  rw [taken]
  exact hF d _ l _ _

/-- Of the registers the taking of a command writes CQ_STAT of its ring (R471). -/
theorem rg_begun_other (d : Dev) {r o : Nat} (ws : List W64) (ne : o ≠ cqReg r 0x18) : rg (begun d r ws) o = rg d o := by
  obtain ⟨l, taken⟩ := takeEntry_eq d r
  have entry : rg (takeEntry d r) o = rg (advanced d r) o := by
    rw [taken]
    rfl
  have entered (e : Dev) (t : HostTask) : rg (markBusy (putTask (newId e).2 t) r) o = rg e o := rg_putRgf_other _ _ _ _ ne
  exact (entered _ _).trans (entry.trans (rg_putRgf_other d _ _ _ ne))

/-- What refuses a LAUNCH is read in registers (R353). -/
theorem launchReason_begun {d : Dev} {r : Nat} (ws : List W64) (hr : r < 4) (stamp : Nat) :
    launchReason (begun d r ws) stamp (accPending (begun d r ws)) = launchReason d stamp (accPending d) := by
  have regs {o : Nat} (far : o < 0x20_0000 ∨ 0x20_0100 ≤ o) : rg (begun d r ws) o = rg d o := rg_begun_other d ws (by unfold cqReg; omega)
  have state : stState (begun d r ws) = stState d := by simp only [stState, rgf, regs (o := 0x30B_0000) (by decide)]
  have last : stLast (begun d r ws) = stLast d := by simp only [stLast, rgf, regs (o := 0x30B_0008) (by decide)]
  have pending : accPending (begun d r ws) = accPending d := by simp only [accPending, accState, rgf, regs (o := 0x10_0000) (by decide)]
  rw [launchReason, state, last, pending, launchReason]

/-- The own share of a LAUNCH that nothing refuses: the step begins, and the share is done (R473). -/
theorem ownShare_launch {d : Dev} {t : HostTask} (found : taskOf d t.id = some t) (op : opOf t.words = 5) (sound : d.upset = [])
    (accepted : launchReason d (fld (argOf t.words 0) 47 0) (accPending d) = none) :
    ∃ e, ownShare d .ring t.id = .ok e ∧ Launched (fld (argOf t.words 0) 47 0) d e := by
  have begins := launched_launchStep (fld (argOf t.words 0) 47 0) (fld (argOf t.words 1) 11 0) (bitAt (argOf t.words 2) 0) sound
  have does : execOp d .ring t.words t.id =
      .ok (shareOk, launchStep d (fld (argOf t.words 0) 47 0) (fld (argOf t.words 1) 11 0) (bitAt (argOf t.words 2) 0)) := by
    simp only [execOp, op, accepted]
  generalize launchStep d (fld (argOf t.words 0) 47 0) (fld (argOf t.words 1) 11 0) (bitAt (argOf t.words 2) 0) = e at does begins
  have shares : ∃ u, ownShare d .ring t.id = .ok (abandonPoll (finishTask (putTask e u) t.id)) := ⟨_, by
    simp only [ownShare, found, does]
    rfl⟩
  obtain ⟨u, shares⟩ := shares
  exact ⟨_, shares, begins.after fun blind => (abandonPoll_frame blind _).trans ((finishTask_frame blind ..).trans (blind.host ..))⟩

/-- The device takes a LAUNCH that nothing refuses: the step begins, from the device once the command is taken. -/
theorem commandTake_launch {d : Dev} {r : Nat} {ws : List W64} (next : nextRing d = some (r, ws)) (good : opBad d r ws = false)
    (alone : othersOf d ws = []) (own : bitAt (setOf d ws) (myDev d) = true) (op : opOf ws = 5) (sound : d.upset = [])
    (accepted : launchReason d (fld (argOf ws 0) 47 0) (accPending d) = none) :
    ∃ e, commandTake d (some 5) = .ok e ∧ Launched (fld (argOf ws 0) 47 0) (begun d r ws) e := by
  have found : taskOf (begun d r ws) (begunTask d r ws).id = some (begunTask d r ws) := by
    rw [begun, taskOf_markBusy, taskOf_putTask]
  have accepted' := (launchReason_begun ws (nextRing_lt next) (fld (argOf ws 0) 47 0)).trans accepted
  have sound' : (begun d r ws).upset = [] := (begun_frame (F := (·.upset)) (fun _ _ _ _ _ => rfl) d r ws).trans sound
  have words := begunTask_words d r ws
  obtain ⟨e, shares, begins⟩ := ownShare_launch found (by rw [words, op]) sound' (by rw [words, accepted'])
  rw [begunTask_id] at shares
  rw [words] at begins
  refine ⟨finishTask e (newId (takeEntry d r)).1, ?_, begins.after fun blind => finishTask_frame blind ..⟩
  simp only [commandTake, next, op, if_true, takeCommand_own good alone own, shares, Except.map]

/-! ### The statement -/

/-- Settles O29: the command is taken, the step begins, and the record of the command, which is complete at once, leaves all of the step. -/
theorem launchBeginsTheStep : Obligations.LaunchBeginsTheStep := by
  unfold Obligations.LaunchBeginsTheStep
  intro s r ws ⟨lives, calm, next, good, alone, own⟩ op sound accepted
  obtain ⟨e, eff, state, launchWt, cons, cells, raised⟩ := commandTake_launch next good alone own op sound accepted
  obtain ⟨running, stamp, gate, flipped⟩ := fields_begunWord (fld (argOf ws 0) 47 0)
  have hr := nextRing_lt next
  have quiet := raised.trans (begun_frame (F := (·.raised)) (fun _ _ _ _ _ => rfl) s.dev r ws)
  have map : mapCells (begun s.dev r ws) = mapCells s.dev := begun_frame (F := mapCells) (fun _ _ _ _ _ => rfl) s.dev r ws
  have cell (c : Nat) : cellOf (begun s.dev r ws) c = cellOf s.dev c := begun_frame (F := (cellOf · c)) (fun _ _ _ _ _ => rfl) s.dev r ws
  have counters : launchOf (begun s.dev r ws) = launchOf s.dev := launchOf_congr (rg_begun_other _ ws (by unfold cqReg; omega))
  refine ⟨_, (exec_launch s).trans (happen_ok rfl lives eff (quiet.trans calm)), rfl, ?state, ?stamp, ?gate, ?flipped, ?launchWt, ?cons, fun c => ?cells⟩
  case state => rw [stState, rgf, state, running]
  case stamp =>
    rw [stStamp, rgf, state, stamp]
    exact Nat.mod_mod ..
  case gate => rw [stGate, state, gate]
  case flipped => rw [stFlipped, state, flipped]
  case launchWt => exact launchWt.trans (begun_frame (F := (·.wt)) (fun _ _ _ _ _ => rfl) s.dev r ws)
  case cons => exact (cons r hr).trans (((stepFrame_begun s.dev r ws).cons r).trans (cons_advanced s.dev r))
  case cells =>
    refine (cells c).trans ?_
    rw [map, cell, counters]
    rfl

end Sys2Proof.Machine
end

section
/-! SUPPORT. The flip, and the opening of the gate (10_training_step.md, R108, R356, R357, R364): when they happen, and what they leave. -/

namespace Sys2Proof.Machine
open Sys2Proof.Safety

theorem exec_flip (s : State) : exec .flip s = happen .flip running (fun d => .ok (flip d)) s := rfl
theorem exec_gateOpen (s : State) : exec .gateOpen s = happen .gateOpen running (fun d => .ok (gateOpen d)) s := rfl

theorem stPub_le_one (d : Dev) : stPub d ≤ 1 := Nat.le_of_lt_succ (Nat.mod_lt _ (by decide))

/-- A bit of a register that is set. -/
theorem bitAt_putRgf_one (d : Dev) (o : Nat) {i : Nat} (h : i < 64) : bitAt (rg (putRgf d o i i 1) o).toNat i = true := by
  simp [putRgf, bitAt_toNat, getLsbD_setFld _ h]

/-! ### The flip -/

/-- The device with PUB toggled and FLIPPED set (R356). -/
def flipped (d : Dev) : Dev := putRgf (putRgf d 0x30B_0010 0 0 (1 - stPub d)) 0x30B_0000 3 3 1

theorem flip_due {d : Dev} (runs : stState d = 1) (enabled : cfgFlipEn d = true) (open_ : stFlipped d = false)
    (done : portDone d 0 (cfgFh d) = true) : flip d = flipped d := if_pos (by simp [runs, enabled, open_, done])

theorem flip_early {d : Dev} (early : cfgFlipEn d = false ∨ stFlipped d = true ∨ portDone d 0 (cfgFh d) = false) : flip d = d :=
  if_neg (by rcases early with h | h | h <;> simp [h])

theorem stPub_flipped (d : Dev) : stPub (flipped d) = 1 - stPub d := by
  refine (rgf_putRgf_other _ _ _ _ _ _ (by decide)).trans ((rgf_putRgf_same _ _ _ (by decide)).trans (Nat.mod_eq_of_lt ?_))
  exact Nat.lt_succ_of_le (Nat.sub_le 1 _)

theorem stFlipped_flipped (d : Dev) : stFlipped (flipped d) = true := bitAt_putRgf_one _ _ (by decide)

/-- FLIPPED is a bit of its own in STP_STATE. -/
theorem state_flipped (d : Dev) : stState (flipped d) = stState d ∧ stStamp (flipped d) = stStamp d :=
  ⟨(rgf_putRgf_field _ _ _ (by decide) (by decide)).trans (rgf_putRgf_other _ _ _ _ _ _ (by decide)),
    (rgf_putRgf_field _ _ _ (by decide) (by decide)).trans (rgf_putRgf_other _ _ _ _ _ _ (by decide))⟩

theorem rg_flipped_other (d : Dev) {o : Nat} (state : o ≠ 0x30B_0000) (ver : o ≠ 0x30B_0010) : rg (flipped d) o = rg d o :=
  (rg_putRgf_other _ _ _ _ state).trans (rg_putRgf_other _ _ _ _ ver)

/-! ### The gate -/

/-- GATE is set, and the time of the opening is kept for the report (R357). -/
def gated (d : Dev) : Dev := { putRgf d 0x30B_0000 2 2 1 with stp := { d.stp with gateWt := d.wt } }

/-- Counter GH of every in-map cell counts one (R357). -/
def countGates (d : Dev) : Dev := (mapCells d).foldl (fun d c => countAt d c (plainCredit (cfgGh d))) d

/-- The snapshots of the scales that the update needs are taken once the scales are there (R108). -/
def snapshotReady (d : Dev) : Dev := if d.scl.ready then snapshotAll d else d

theorem gateOpen_early {d : Dev} (early : d.ring.done < cfgNbuck d ∨ (cfgFlipEn d = true ∧ stFlipped d = false)) : gateOpen d = d :=
  if_neg (by
    rcases early with buckets | ⟨enabled, still⟩
    · simp [Nat.not_le.2 buckets]
    · simp [enabled, still])

/-- With no loan still reading none is stopped (R364). -/
theorem stopLoans_none {d : Dev} (read : (d.fab.xs.any fun x => x.loan && !x.read && decide (x.pos < x.len)) = false) : stopLoans d = d := by
  have none_ : (d.fab.xs.filter fun x => x.loan && !x.read && decide (x.pos < x.len)) = [] := List.filter_eq_nil_iff.2 (by simpa using read)
  rw [stopLoans, none_, List.foldl_nil]

theorem countGates_frame {β : Type} {F : Dev → β} (hC : ∀ d c (f : Cell → Cell), F (modCell d c f) = F d) (d : Dev) : F (countGates d) = F d := by
  refine foldl_frame F _ (fun d c => ?_) _ d
  unfold countAt
  split
  · exact hC ..
  · rfl

theorem giveUpSlot_frame {β : Type} {F : Dev → β} (hC : ∀ d c (f : Cell → Cell), F (modCell d c f) = F d) (hS : ∀ d l, F { d with sweep := l } = F d)
    (d : Dev) : F (giveUpSlot d) = F d :=
  (foldl_frame F _ (fun d _ => hC d _ _) _ _).trans (hS ..)

theorem snapshotReady_frame {β : Type} {F : Dev → β} (hW : ∀ d l, F (wrL d l) = F d) {d : Dev} (sound : d.upset = []) : F (snapshotReady d) = F d := by
  unfold snapshotReady
  split
  · exact snapshotAll_frame hW sound
  · rfl

/-- The device behind its open gate, with no loan to stop. -/
def opened (d : Dev) : Dev := giveUpSlot (snapshotReady (countGates (gated d)))

/-- What the opening of the gate leaves behind its register. -/
theorem opened_frame {β : Type} {F : Dev → β} (hF : ∀ d c m u l, F { d with cells := c, mem := m, upset := u, sweep := l } = F d) {d : Dev}
    (sound : d.upset = []) : F (opened d) = F (gated d) := by
  have hC (d : Dev) (c : Nat) (f : Cell → Cell) : F (modCell d c f) = F d := hF d _ d.mem d.upset d.sweep
  have sound' : (countGates (gated d)).upset = [] := (countGates_frame (F := (·.upset)) (fun _ _ _ => rfl) (gated d)).trans sound
  have snaps : F (snapshotReady (countGates (gated d))) = F (countGates (gated d)) := snapshotReady_frame (fun d _ => hF d d.cells _ _ d.sweep) sound'
  exact (giveUpSlot_frame hC (fun d l => hF d d.cells d.mem d.upset l) _).trans (snaps.trans (countGates_frame hC _))

theorem gateOpen_due {d : Dev} (runs : stState d = 1) (shut : stGate d = false) (buckets : cfgNbuck d ≤ d.ring.done)
    (flips : cfgFlipEn d = false ∨ stFlipped d = true) (sound : d.upset = [])
    (read : (d.fab.xs.any fun x => x.loan && !x.read && decide (x.pos < x.len)) = false) : gateOpen d = opened d := by
  have due : (stState d == 1 && !stGate d && decide (cfgNbuck d ≤ d.ring.done) && (!cfgFlipEn d || stFlipped d)) = true := by
    simpa [runs, shut, buckets] using flips
  have fab : (opened d).fab = d.fab := opened_frame (F := (·.fab)) (fun _ _ _ _ _ => rfl) sound
  have step : gateOpen d = stopLoans (opened d) := if_pos due
  rw [step, stopLoans_none (by rw [fab]; exact read)]

/-- GATE is a bit of its own in STP_STATE. -/
theorem state_gated (d : Dev) : stGate (gated d) = true ∧ stState (gated d) = stState d :=
  ⟨bitAt_putRgf_one d 0x30B_0000 (by decide), rgf_putRgf_field d 0x30B_0000 _ (by decide) (by decide)⟩

theorem stPub_gated (d : Dev) : stPub (gated d) = stPub d := rgf_putRgf_other d _ _ _ _ _ (by decide)

/-- The barometers lie where they lay. -/
theorem baroAddr_gated (d : Dev) : baroAddr (gated d) = baroAddr d := by
  have inside : inStep (gated d) = inStep d := by simp only [inStep, (state_gated d).2]
  have table : rgf (gated d) 0x308_0000 47 12 = rgf d 0x308_0000 47 12 := rgf_putRgf_other d _ _ _ _ _ (by decide)
  funext b
  simp only [baroAddr, inside, table]
  rfl

/-! ### What the opening makes of cells and memory -/

/-- A cell for which version slot `v` is retained no more (R364). -/
def staleAt (v : Nat) (x : Cell) : Cell := { x with stale := v :: x.stale.filter (· != v) }

theorem cellOf_giveUpSlot (d : Dev) (c : Nat) : cellOf (giveUpSlot d) c = if c ∈ mapCells d then staleAt (1 - stPub d) (cellOf d c) else cellOf d c :=
  cellOf_foldl_modCell (staleAt (1 - stPub d)) _ _ c (nodup_mapCells d)

/-- Counter GH of a cell counts one. -/
def countGate (d : Dev) (x : Cell) : Cell := holdCredit x (plainCredit (cfgGh d))

theorem holdCredit_frame {β : Type} {F : Cell → β} (hH : ∀ x l, F { x with hold := l } = F x) (hC : ∀ x l, F { x with credits := l } = F x) (x : Cell)
    (q : Credit) : F (holdCredit x q) = F x := (hC (holdAdd x q.h q.n) _).trans (hH x _)

/-- To count leaves the slots that are not retained. -/
theorem staleAt_countGate (d : Dev) (v : Nat) (x : Cell) : staleAt v (countGate d x) =
    { holdCredit x (plainCredit (cfgGh d)) with stale := v :: x.stale.filter (· != v) } := by
  have kept : (holdCredit x (plainCredit (cfgGh d))).stale = x.stale := holdCredit_frame (F := (·.stale)) (fun _ _ => rfl) (fun _ _ => rfl) x _
  rw [staleAt, countGate, kept]

/-- A cell whose port is up counts. -/
theorem foldl_countAt_up : ∀ (l : List Nat) (d : Dev), (∀ c ∈ l, portUp d (cellPort c) = true) →
    l.foldl (fun d c => countAt d c (plainCredit (cfgGh d))) d = l.foldl (fun d c => modCell d c (countGate d)) d
  | [], _, _ => rfl
  | c :: l, d, up => by
    have counts : countAt d c (plainCredit (cfgGh d)) = modCell d c (countGate d) := if_pos (up c List.mem_cons_self)
    rw [List.foldl_cons, List.foldl_cons, counts]
    exact foldl_countAt_up l _ fun k hk => up k (List.mem_cons_of_mem c hk)

theorem cellOf_countGates (d : Dev) (c : Nat) : cellOf (countGates d) c = if c ∈ mapCells d then countGate d (cellOf d c) else cellOf d c := by
  have up : ∀ k ∈ mapCells d, portUp d (cellPort k) = true := fun k hk => (List.mem_filter.1 hk).2
  rw [countGates, foldl_countAt_up _ d up, foldl_modCell_fixed fun _ _ _ => rfl, cellOf_foldl_modCell _ _ _ c (nodup_mapCells d)]

/-- Every in-map cell counts, and gives up the slot that is not published (R357, R364). -/
theorem cellOf_opened {d : Dev} (sound : d.upset = []) (c : Nat) :
    cellOf (opened d) c = if c ∈ mapCells d then staleAt (1 - stPub d) (countGate d (cellOf d c)) else cellOf d c := by
  have sound' : (countGates (gated d)).upset = [] := (countGates_frame (F := (·.upset)) (fun _ _ _ => rfl) (gated d)).trans sound
  have map : mapCells (snapshotReady (countGates (gated d))) = mapCells d :=
    (snapshotReady_frame (F := mapCells) (fun _ _ => rfl) sound').trans (countGates_frame (F := mapCells) (fun _ _ _ => rfl) (gated d))
  have pub : stPub (snapshotReady (countGates (gated d))) = stPub d :=
    (snapshotReady_frame (F := stPub) (fun _ _ => rfl) sound').trans ((countGates_frame (F := stPub) (fun _ _ _ => rfl) _).trans (stPub_gated d))
  have cell : cellOf (snapshotReady (countGates (gated d))) c = cellOf (countGates (gated d)) c :=
    snapshotReady_frame (F := (cellOf · c)) (fun _ _ => rfl) sound'
  have counter : cfgGh (gated d) = cfgGh d := rgf_putRgf_other d _ _ _ _ _ (by decide)
  have counts : countGate (gated d) = countGate d := by
    funext x
    rw [countGate, counter, countGate]
  have map' : mapCells (gated d) = mapCells d := rfl
  have cell' : cellOf (gated d) c = cellOf d c := rfl
  rw [opened, cellOf_giveUpSlot, map, pub, cell, cellOf_countGates, map', cell', counts]
  split <;> rfl

/-- The snapshots write BARO_SNAP of the barometers that ask for it, and nothing else (R108). -/
theorem rdB_snapshotAll_other {d : Dev} (sound : d.upset = []) {a : Nat}
    (out : ∀ b ∈ barosWith d (fun v => bitAt v 4), a < baroAddr d b + 0xE0 ∨ baroAddr d b + 0xE4 ≤ a) : rdB (snapshotAll d) a = rdB d a := by
  rw [snapshotAll, eccTouch_of_upset_nil sound]
  refine (List.foldlRecOn (motive := fun e : Dev => baroAddr e = baroAddr d ∧ rdB e a = rdB d a) _ snapshotBaro ⟨rfl, rfl⟩ ?_).2
  rintro e ⟨addr, same⟩ b hb
  have out := out b hb
  rw [← addr] at out
  have pub := stPub_le_one e
  exact ⟨addr, (rdB_wrN_other e _ 2 _ a (by omega)).trans same⟩

/-- Only BARO_SNAP bytes of memory change (R108, R357). -/
theorem rdB_opened_other {d : Dev} (sound : d.upset = []) {a : Nat}
    (out : ∀ b ∈ barosWith d (fun v => bitAt v 4), a < baroAddr d b + 0xE0 ∨ baroAddr d b + 0xE4 ≤ a) : rdB (opened d) a = rdB d a := by
  have counted {β : Type} {F : Dev → β} (hC : ∀ d c (f : Cell → Cell), F (modCell d c f) = F d) := countGates_frame hC (gated d)
  have addr : baroAddr (countGates (gated d)) = baroAddr d := (counted (F := baroAddr) fun _ _ _ => rfl).trans (baroAddr_gated d)
  have mem : (countGates (gated d)).mem = d.mem := counted (F := (·.mem)) fun _ _ _ => rfl
  have asked : barosWith (countGates (gated d)) (fun v => bitAt v 4) = barosWith d fun v => bitAt v 4 := by simp only [barosWith, addr, mem]
  have same : rdB (countGates (gated d)) a = rdB d a := congrArg (tabGet memDefault · a) mem
  refine (giveUpSlot_frame (F := (rdB · a)) (fun _ _ _ => rfl) (fun _ _ => rfl) _).trans ?_
  unfold snapshotReady
  split
  · exact (rdB_snapshotAll_other ((counted (F := (·.upset)) fun _ _ _ => rfl).trans sound) (by rwa [asked, addr])).trans same
  · exact same

/-! ### The statement -/

/-- Settles O31: the flip writes two registers; behind the register of the gate come the counts, the snapshots and the slot given up, and no loan is
left to stop. -/
theorem flipAndGate : Obligations.FlipAndGate := by
  unfold Obligations.FlipAndGate
  intro s ⟨runs, calm⟩ going
  refine ⟨fun enabled open_ done => ?flips, fun early => ?noFlip, fun _ early => ?noGate, fun shut buckets flips sound _ read => ?opens⟩
  case flips =>
    obtain ⟨state, stamp⟩ := state_flipped s.dev
    exact ⟨(flipped s.dev).reg, happen_yields (exec_flip s) rfl runs calm (flip_due going enabled open_ done) rfl, stPub_flipped _, stFlipped_flipped _,
      state.trans going, stamp, fun o state ver => rg_flipped_other _ state ver⟩
  case noFlip => exact happen_yields (exec_flip s) rfl runs calm (flip_early early) rfl
  case noGate => exact happen_yields (exec_gateOpen s) rfl runs calm (gateOpen_early early) rfl
  case opens =>
    have eff := gateOpen_due going shut buckets flips sound read
    have raised := opened_frame (F := (·.raised)) (fun _ _ _ _ _ => rfl) sound
    have stp := opened_frame (F := (·.stp)) (fun _ _ _ _ _ => rfl) sound
    have reg := opened_frame (F := (·.reg)) (fun _ _ _ _ _ => rfl) sound
    have fab := opened_frame (F := (·.fab)) (fun _ _ _ _ _ => rfl) sound
    have gate := opened_frame (F := stGate) (fun _ _ _ _ _ => rfl) sound
    have state := opened_frame (F := stState) (fun _ _ _ _ _ => rfl) sound
    obtain ⟨gate', state'⟩ := state_gated s.dev
    refine ⟨_, happen_yields (exec_gateOpen s) rfl runs calm eff raised, gate.trans gate', (state.trans state').trans going,
      congrArg StepSt.gateWt stp, reg, fab, fun c => ?_, fun _ => rdB_opened_other sound⟩
    rw [cellOf_opened sound, staleAt_countGate]

end Sys2Proof.Machine
end

section
/-! SUPPORT. A fault that is taken up outside a running step, with room for its event (14_host_link.md, 16_faults_and_recovery.md, R43, R479, R515, R518, R521):
what it leaves of the device. -/

namespace Sys2Proof.Machine
open Sys2Proof.Safety

/-- With room, the event of a fault is held, and nothing is written (R479, R521). -/
theorem faultEvent_frame_room {β : Type} {F : Dev → β} (hF : ∀ d w h, F { d with faultWt := w, host := h } = F d) {d : Dev} (room : EventRoom d) :
    F (faultEvent d) = F d := by
  have free : ¬256 ≤ d.host.held.length := by omega
  unfold faultEvent postEvent holdEvent
  split
  · rfl
  · simp only [if_neg free]
    exact hF d (some d.wt) _

theorem logFault_frame {β : Type} {F : Dev → β} (hF : ∀ d r l s, F { d with reg := r, flog := l, stp := s } = F d) (d : Dev) (r : List W64) :
    F (logFault d r) = F d := by
  have stat (d : Dev) (hi lo v : Nat) : F (putRgf d 0x40_0000 hi lo v) = F d := hF d _ d.flog d.stp
  unfold logFault
  extract_lets l counted full kept
  have counts : F counted = F d := stat ..
  have fills : F full = F d := by
    unfold full
    split
    · exact (stat ..).trans counts
    · exact counts
  have keeps : F kept = F d := (stat _ 6 0 _).trans ((hF full full.reg _ full.stp).trans fills)
  split
  · exact (hF kept kept.reg kept.flog _).trans keeps
  · exact keeps

/-- Outside a running step a fault changes ports, log, step records, registers and held events alone (R43, R515, R518). -/
theorem takeFault_frame_room {β : Type} {F : Dev → β}
    (hF : ∀ d p r l s w h, F { d with ports := p, reg := r, flog := l, stp := s, faultWt := w, host := h } = F d) {d : Dev} (f : FaultReq)
    (outside : stState d ≠ 1) (room : EventRoom d) : F (takeFault d f) = F d := by
  have shown : (setFaultBit d f.port (faultBit f.kind)).host = d.host := setFaultBit_frame (F := (·.host)) (fun _ _ _ => rfl) ..
  have logged (r : List W64) : (logFault (setFaultBit d f.port (faultBit f.kind)) r).host = d.host :=
    (logFault_frame (F := (·.host)) (fun _ _ _ _ => rfl) ..).trans shown
  simp only [takeFault, Bool.and_false, Bool.false_eq_true, if_false, beq_eq_false_iff_ne.2 outside]
  calc F (faultEvent (logFault (setFaultBit d f.port (faultBit f.kind)) (faultWords d f false)))
    _ = F (logFault (setFaultBit d f.port (faultBit f.kind)) (faultWords d f false)) :=
        faultEvent_frame_room (fun d w h => hF d d.ports d.reg d.flog d.stp w h) (by rw [EventRoom, logged]; exact room)
    _ = F (setFaultBit d f.port (faultBit f.kind)) := logFault_frame (fun d r l s => hF d d.ports r l s d.faultWt d.host) ..
    _ = F d := setFaultBit_frame (fun d q g => hF d _ d.reg d.flog d.stp d.faultWt d.host) ..

end Sys2Proof.Machine
end

section
/-! SUPPORT. The ring reducer's traffic (11_ring_reduction.md): the partials that arrive and the adds that use them (R387–R391, R393, R395, R396), and the two
passes of the combined maxima (R401). -/

namespace Sys2Proof.Machine
open Sys2Proof.Safety

theorem exec_ringPartialReceive (r : Nat) (m : Option (List Byte)) (s : State) :
    exec (.ringPartialReceive r m) s = happen (.ringPartialReceive r m) (ringArrives r m) (fun d => .ok (ringReceive d r m)) s := rfl
theorem exec_ringAdd (n j q : Nat) (s : State) :
    exec (.ringAdd n j q) s = happen (.ringAdd n j q) running (fun d => .ok (ringAdd d n j q)) s := rfl
theorem exec_maximaFirstPass (m : Option (List Byte)) (s : State) :
    exec (.maximaFirstPass m) s = happen (.maximaFirstPass m) (ringArrives 0 m) (fun d => .ok (maximaFirst d m)) s := rfl
theorem exec_maximaSecondPass (m : Option (List Byte)) (s : State) :
    exec (.maximaSecondPass m) s = happen (.maximaSecondPass m) (ringArrives 0 m) (fun d => .ok (maximaSecond d m)) s := rfl

/-- A ring message may arrive on a port that is up. -/
theorem ringArrives_some {d : Dev} {r : Nat} (m : List Byte) (runs : running d = true) (up : fabUp d (ringRx d r) = true) :
    ringArrives r (some m) d = true := by simp [ringArrives, runs, up]

theorem ringArrives_none {d : Dev} (r : Nat) (runs : running d = true) : ringArrives r none d = true := by simp [ringArrives, runs]

/-! ### The receive buffers -/

/-- The device with `l` in the receive buffer of ring `r` (R389). -/
def putRx (d : Dev) (r : Nat) (l : List (List Byte)) : Dev := { d with ring := { d.ring with rx := tabPut (fun _ => []) d.ring.rx r l } }

/-- A buffer that the table does not list holds nothing, and emptying it changes nothing. -/
theorem rx_unlisted {d : Dev} {r : Nat} (empty : (d.ring.rx.all fun e => e.1 != r) = true) :
    tabGet (fun _ => []) d.ring.rx r = [] ∧ putRx d r [] = d := by
  refine ⟨tabGet_absent _ _ fun h => ?_, ?_⟩
  · obtain ⟨e, he, rfl⟩ := List.mem_map.1 h
    simpa using List.all_eq_true.1 empty e he
  · have same : tabDel d.ring.rx r = d.ring.rx := List.filter_eq_self.2 fun e he => List.all_eq_true.1 empty e he
    simp only [putRx, tabPut, if_true, same]

/-- Nothing arrives at an empty buffer. -/
theorem ringTake_none {d : Dev} {r : Nat} (types : List Nat) (runs : (ringsRunning d).contains r = true)
    (empty : tabGet (fun _ => []) d.ring.rx r = []) : ringTake d r types none = putRx d r [] := by
  simp only [ringTake, runs, empty, acceptAll, Bool.not_true, Bool.false_eq_true, if_false]
  rfl

/-- A message comes alone to ring `r`, which runs and does not discard; its buffer has room (R389, R397). -/
structure RingArrival (d : Dev) (r : Nat) (types : List Nat) (m : List Byte) : Prop where
  runs : (ringsRunning d).contains r = true
  empty : tabGet (fun _ => []) d.ring.rx r = []
  takes : d.ring.discard.contains r = false
  typed : types.contains (rmType m) = true
  room : rxBytes d r + m.length ≤ 65536

section arrival
variable {d : Dev} {r : Nat} {types : List Nat} {m : List Byte} (arrival : RingArrival d r types m)
include arrival

theorem ringTake_some : ringTake d r types (some m) = putRx (acceptAll d r [m]).1 r (acceptAll d r [m]).2 := by
  obtain ⟨runs, empty, takes, typed, room⟩ := arrival
  have enters : (d.ring.discard.contains r || !types.contains (rmType m) || decide (65536 < rxBytes d r + m.length)) = false := by
    simp only [takes, typed, Bool.not_true, Bool.or_false, Bool.false_or, decide_eq_false_iff_not]
    omega
  simp only [ringTake, runs, enters, empty, Bool.not_true, Bool.false_eq_true, if_false, List.nil_append]
  rfl

theorem ringTake_stays (stays : acceptHead d r m = none) : ringTake d r types (some m) = putRx d r [m] := by
  simp only [ringTake_some arrival, acceptAll, stays]

theorem ringTake_accepts {e : Dev} (accepts : acceptHead d r m = some e) : ringTake d r types (some m) = putRx e r [] := by
  simp only [ringTake_some arrival, acceptAll, accepts]
end arrival

/-! ### Partials -/

theorem acceptHead_partial {d : Dev} {m : List Byte} (r : Nat) (typed : rmType m = 1) : acceptHead d r m = acceptPartial d r m := if_pos typed

/-- A partial of the step after the next one stays (R389). -/
theorem acceptPartial_later {d : Dev} {m : List Byte} (r : Nat) (later : rmStamp m = (stLast d + 2) % 2 ^ 48) : acceptPartial d r m = none :=
  if_pos later

/-- The stamps of the next two steps differ. -/
theorem stamp_next_ne_later {n : Nat} : (n + 1) % 2 ^ 48 ≠ (n + 2) % 2 ^ 48 := by omega

/-- A sound partial of the next step enters its tile-quarter, which waits for it (R387, R389). -/
theorem acceptPartial_enters {d : Dev} {m : List Byte} {b : Bucket} (r : Nat) (next : rmStamp m = (stLast d + 1) % 2 ^ 48)
    (sound : arrivalBad (rmPart m) = none) (opened : openBucket d (fld (rmWord m 0) 31 16) = some b) (owner : fld (rmWord m 0) 51 46 = bkOwn b)
    (tile : fld (rmWord m 0) 15 4 < bkTiles b) (waits : qState b (fld (rmWord m 0) 15 4) (fld (rmWord m 0) 3 2) = .wait) :
    acceptPartial d r m = some (putBucket d (setQ b (fld (rmWord m 0) 15 4) (fld (rmWord m 0) 3 2) (.part (rmPart m)))) := by
  have named : ¬(fld (rmWord m 0) 51 46 ≠ bkOwn b ∨ bkTiles b ≤ fld (rmWord m 0) 15 4) := by
    simp only [owner, ne_eq, not_true_eq_false, false_or, not_le]
    exact tile
  have now : rmStamp m ≠ (stLast d + 2) % 2 ^ 48 := next ▸ stamp_next_ne_later
  unfold acceptPartial
  dsimp only
  rw [if_neg now, if_neg (not_not.2 next)]
  simp only [sound, ensureOpen, opened, if_neg named, waits]

/-! ### Ring faults -/

/-- RNG_FLT takes the record `w`, unless it holds one that comes first (R396). -/
def latchRingFault (d : Dev) (w : W64) : Dev :=
  if !bitAt (rg d 0x118_0060).toNat 63 || (d.ring.fltAt == d.root / 5 && decide (faultRank w.toNat < faultRank (rg d 0x118_0060).toNat)) then
    { putRg d 0x118_0060 w with ring := { d.ring with fltAt := d.root / 5 } }
  else d

theorem latchRingFault_frame {β : Type} {F : Dev → β} (hF : ∀ d v r, F { putRg d 0x118_0060 v with ring := r } = F d) (d : Dev) (w : W64) :
    F (latchRingFault d w) = F d := by
  unfold latchRingFault
  split
  · exact hF ..
  · rfl

/-- A ring fault is one of KIND 6 at the device port (R396, R515). -/
theorem ringFault_eq (d : Dev) (kind ring src n j q blk : Nat) :
    ∃ w f, f.port = 0 ∧ f.kind = 6 ∧ ringFault d kind ring src n j q blk = raise (latchRingFault d w) f := ⟨_, _, rfl, rfl, rfl⟩

/-- What a ring fault leaves outside a running step: the device port shows it, and neither memory nor messages change. -/
theorem takeFaults_ringFault {d : Dev} (calm : d.raised = []) (outside : stState d ≠ 1) (room : EventRoom d) (kind ring src n j q blk : Nat) :
    let e := takeFaults (ringFault d kind ring src n j q blk)
    FaultShown d e 0 6 ∧ e.mem = d.mem ∧ e.tx = d.tx := by
  obtain ⟨w, f, port, fkind, eq⟩ := ringFault_eq d kind ring src n j q blk
  have state : stState (latchRingFault d w) = stState d :=
    latchRingFault_frame (fun d v _ => congrArg (fun x : W64 => fld x.toNat 1 0) ((rg_putRg d 0x118_0060 0x30B_0000 v).trans (if_neg (by decide)))) d w
  have raised : (latchRingFault d w).raised = [] := (latchRingFault_frame (F := (·.raised)) (fun _ _ _ => rfl) d w).trans calm
  have held : (latchRingFault d w).host = d.host := latchRingFault_frame (F := (·.host)) (fun _ _ _ => rfl) d w
  have port0 : portOf (latchRingFault d w) 0 = portOf d 0 := latchRingFault_frame (F := (portOf · 0)) (fun _ _ _ => rfl) d w
  have outside' : stState (latchRingFault d w) ≠ 1 := by rwa [state]
  have room' : EventRoom (latchRingFault d w) := by rwa [EventRoom, held]
  obtain ⟨-, shown⟩ := takeFaults_raise_shown f raised outside'
  rw [eq]
  refine ⟨?_, ?_, ?_⟩
  · rw [port, fkind, FaultShown, port0] at shown
    exact shown
  · rw [takeFaults_raise f raised outside', takeFault_frame_room (F := (·.mem)) (fun _ _ _ _ _ _ _ => rfl) f outside' room']
    exact latchRingFault_frame (F := (·.mem)) (fun _ _ _ => rfl) d w
  · rw [takeFaults_raise f raised outside', takeFault_frame_room (F := (·.tx)) (fun _ _ _ _ _ _ _ => rfl) f outside' room']
    exact latchRingFault_frame (F := (·.tx)) (fun _ _ _ => rfl) d w

/-! ### Adds -/

@[simp] theorem qState_setQ_same (b : Bucket) (j q : Nat) (x : QState) : qState (setQ b j q x) j q = x := tabGet_put_same ..

/-- The number of an open bucket is the one under which it is found. -/
theorem openBucket_num {d : Dev} {n : Nat} {b : Bucket} (opened : openBucket d n = some b) : b.num = n := by
  simpa using List.find?_some opened

/-- A bucket that replaces an open one is open in its place. -/
theorem openBucket_putBucket {d : Dev} {n : Nat} {b c : Bucket} (opened : openBucket d n = some b) (same : c.num = n) :
    openBucket (putBucket d c) n = some c := by
  have keeps : ((fun x : Bucket => x.num == n) ∘ fun x => if x.num = c.num then c else x) = fun x => x.num == n := by
    funext x
    dsimp only [Function.comp_apply]
    split
    · next h => rw [h]
    · rfl
  have found : d.ring.buckets.find? (fun x => x.num == n) = some b := opened
  unfold openBucket putBucket
  rw [List.find?_map, keeps, found, Option.map_some, openBucket_num opened, same, if_pos rfl]

/-- Tile-quarter `(j, q)` of an open bucket is in state `x`; its tile leaves the contribution store once no quarter needs it. -/
def closeQuarter (d : Dev) (b : Bucket) (j q : Nat) (x : QState) : Dev := storeFree (putBucket d (setQ b j q x)) (setQ b j q x) j

theorem closeQuarter_frame {β : Type} {F : Dev → β} (hF : ∀ d r, F { d with ring := r } = F d) (d : Dev) (b : Bucket) (j q : Nat) (x : QState) :
    F (closeQuarter d b j q x) = F d := by
  unfold closeQuarter storeFree
  split
  · exact (hF ..).trans (hF ..)
  · exact hF ..

theorem openBucket_closeQuarter {d : Dev} {n : Nat} {b : Bucket} (opened : openBucket d n = some b) (j q : Nat) (x : QState) :
    openBucket (closeQuarter d b j q x) n = some (setQ b j q x) := by
  have num : (setQ b j q x).num = n := openBucket_num (b := b) opened
  have put := openBucket_putBucket opened num
  unfold closeQuarter storeFree
  split <;> exact put

/-- The sums that the adder forms of a partial and the own quarter, each with whether it saturated; the first position has no partial (R391). -/
def addSums (p : Option RingPart) (own : List (List Nat)) : List (List (Nat × Bool)) :=
  match p with
  | some u => (u.blocks.zip own).map fun x => (x.1.zip x.2).map fun y => b16Add y.1 y.2
  | none => own.map fun x => x.map fun v => (v, false)

/-- The codes of the sums. -/
def addBlocks (p : Option RingPart) (own : List (List Nat)) : List (List Nat) := (addSums p own).map fun x => x.map (·.1)

/-- The first position's sum is its own quarter. -/
theorem addBlocks_none (own : List (List Nat)) : addBlocks none own = own := by
  simp [addBlocks, addSums, Function.comp_def]

theorem addBlocks_some (p : RingPart) (own : List (List Nat)) :
    addBlocks (some p) own = (p.blocks.zip own).map fun x => (x.1.zip x.2).map fun y => (b16Add y.1 y.2).1 := by
  simp [addBlocks, addSums, Function.comp_def]

/-- Of the device, the first NaN of a sum depends on the position alone (R393). -/
theorem fnAfter_congr {d e : Dev} (b : Bucket) (j q : Nat) (old : Option RingPart) (new : List (List Nat)) (same : ringPos e = ringPos d) :
    fnAfter e b j q old new = fnAfter d b j q old new := by
  unfold fnAfter
  rw [same]

/-- What an add makes: the sum with its side words and its first NaN (R388, R391, R393). -/
def addPart (d : Dev) (b : Bucket) (j q : Nat) (p : Option RingPart) (t : Contrib) : RingPart :=
  let blocks := addBlocks p (ownBlocks t q)
  { src := ringPos d, fn := fnAfter d b j q p blocks, sides := blocks.map fun x => sideWord t.e16 (b16Residue x), blocks := blocks }

/-- The message that carries a sum to the next position (R388). -/
def partBody (d : Dev) (b : Bucket) (n j q : Nat) (x : RingPart) : List Byte :=
  ringHeader d 1 (quarterRing d q) (bkOwn b) n j q b.stamp x.fn 0 ++ x.sides.flatMap (leBytes 2) ++ x.blocks.flatMap (packCodes 16)

/-- The first position sends its own quarter, under its side words (R388, R391). -/
theorem partBody_first (d : Dev) (b : Bucket) (n j q : Nat) (t : Contrib) :
    partBody d b n j q (addPart d b j q none t) =
      ringHeader d 1 (quarterRing d q) (bkOwn b) n j q b.stamp (fnAfter d b j q none (ownBlocks t q)) 0
        ++ ((ownBlocks t q).map fun x => sideWord t.e16 (b16Residue x)).flatMap (leBytes 2) ++ (ownBlocks t q).flatMap (packCodes 16) := by
  simp only [partBody, addPart, addBlocks_none]

theorem storeRead_sound {d : Dev} (n j q : Nat) (own : List (List Nat)) (sound : d.upset = []) : storeRead d n j q own = (own, d) := by
  simp [storeRead, sound]

theorem devGaugeAdd_eq (d : Dev) (baro g n : Nat) : ∃ t, devGaugeAdd d baro g n = { d with devGauge := t } := by
  unfold devGaugeAdd
  split <;> exact ⟨_, rfl⟩

/-- The device counts the sums that saturated (R118, R391). -/
def addCounted (d : Dev) (b : Bucket) (p : Option RingPart) (own : List (List Nat)) : Dev :=
  devGaugeAdd d (bkBaro b) gB16Sat (((addSums p own).map fun x => (x.filter (·.2)).length).sum)

/-- The sum is kept for delivery at the owner, and sent on at every other position (R391). -/
def addEnd (d : Dev) (b : Bucket) (n j q : Nat) (p : Option RingPart) (t : Contrib) : Dev :=
  if isOwner d b then closeQuarter d b j q (.deliver (addPart d b j q p t))
  else closeQuarter (sendRing d (quarterRing d q) (partBody d b n j q (addPart d b j q p t))) b j q .sent

/-- What has been counted bears on nothing that the end of an add looks at. -/
theorem addEnd_addCounted (d : Dev) (b : Bucket) (n j q : Nat) (p : Option RingPart) (t : Contrib) (own : List (List Nat)) :
    ∃ g, addEnd (addCounted d b p own) b n j q p t =
      if isOwner d b then closeQuarter { d with devGauge := g } b j q (.deliver (addPart d b j q p t))
      else closeQuarter (sendRing { d with devGauge := g } (quarterRing d q) (partBody d b n j q (addPart d b j q p t))) b j q .sent := by
  obtain ⟨g, counted⟩ := devGaugeAdd_eq d (bkBaro b) gB16Sat (((addSums p own).map fun x => (x.filter (·.2)).length).sum)
  have part_ : addPart { d with devGauge := g } b j q p t = addPart d b j q p t := by
    simp only [addPart, fnAfter_congr (d := d) (e := { d with devGauge := g }) b j q p _ rfl]
    rfl
  refine ⟨g, ?_⟩
  rw [addCounted, counted, addEnd, part_]
  rfl

section add
variable {d : Dev} {n j q : Nat} {b : Bucket} {p : Option RingPart} {t : Contrib} (opened : openBucket d n = some b) (adds : qState b j q = .add p)
  (tile : d.ring.store.find? (fun t => t.bucket == n && t.tile == j) = some t) (sound : d.upset = [])
include opened adds tile sound

/-- A quarter whose residues or exponents do not match is a ring fault, and nothing is added (R395, R396). -/
theorem ringAdd_faults (bad : addFault p (ownBlocks t q) (ownSides t q) ≠ none) :
    ∃ kind ring src blk, ringAdd d n j q = ringFault d kind ring src n j q blk := by
  obtain ⟨⟨k, f⟩, found⟩ := Option.ne_none_iff_exists'.1 bad
  simp only [ringAdd, opened, adds, tile, storeRead_sound n j q _ sound, found]
  split
  · exact ⟨_, _, _, _, rfl⟩
  · exact ⟨_, _, _, _, rfl⟩

/-- A sound quarter is added: the device counts what saturated (R118); the owner keeps the sum for delivery, and every other position sends it on (R391). -/
theorem ringAdd_adds (good : addFault p (ownBlocks t q) (ownSides t q) = none) : ringAdd d n j q = addEnd (addCounted d b p (ownBlocks t q)) b n j q p t := by
  simp only [ringAdd, opened, adds, tile, storeRead_sound n j q _ sound, good]
  cases p <;> simp only [addEnd, addCounted, addPart, addBlocks, addSums, closeQuarter, partBody] <;> rfl
end add

/-- Settles O35: the message alone in its buffer stays or enters its quarter; an add is a ring fault, or closes its quarter with the sum, which a device
that is not the owner has sent. -/
theorem partialsAreTakenAndSummed : Obligations.PartialsAreTakenAndSummed := by
  unfold Obligations.PartialsAreTakenAndSummed
  intro s ⟨runs, calm⟩ sound
  refine ⟨fun r m b hr up ring takes empty typed room => ?arrives, fun n j q b t hn hq opened tile => ?adds⟩
  case arrives =>
    have arrival : RingArrival s.dev r [1] m := ⟨ring, empty, takes, by rw [typed]; rfl, room⟩
    have yields {d : Dev} (eff : ringReceive s.dev r (some m) = d) (keeps : d.raised = s.dev.raised) : Yields (.ringPartialReceive r (some m)) s d :=
      happen_yields (exec_ringPartialReceive r _ s) (decide_eq_true hr) (ringArrives_some m runs up) calm eff keeps
    refine ⟨fun later => ?stays, fun next good opened owner tile waits => ?enters⟩
    case stays => exact yields (ringTake_stays arrival ((acceptHead_partial r typed).trans (acceptPartial_later r later))) rfl
    case enters =>
      exact yields (ringTake_accepts arrival ((acceptHead_partial r typed).trans (acceptPartial_enters r next good opened owner tile waits))) rfl
  case adds =>
    have wf : (Instr.ringAdd n j q).wf = true := by simp [Instr.wf, hn, hq]
    have acts : exec (.ringAdd n j q) s = .next { s with dev := takeFaults (ringAdd s.dev n j q) } :=
      (exec_ringAdd n j q s).trans (happen_faults wf runs rfl)
    have yields {d : Dev} (eff : ringAdd s.dev n j q = d) (keeps : d.raised = s.dev.raised) : Yields (.ringAdd n j q) s d :=
      happen_yields (exec_ringAdd n j q s) wf runs calm eff keeps
    refine ⟨fun p state bad outside space => ?faults, fun state other good => ?sends, fun p state own good => ?keeps⟩
    case faults =>
      obtain ⟨kind, ring, src, blk, eff⟩ := ringAdd_faults opened state tile sound bad
      rw [eff] at acts
      exact ⟨_, acts, takeFaults_ringFault calm outside space ..⟩
    case sends =>
      obtain ⟨g, made⟩ := addEnd_addCounted s.dev b n j q none t (ownBlocks t q)
      rw [other, if_neg Bool.false_ne_true] at made
      have eff := (ringAdd_adds opened state tile sound good).trans made
      refine ⟨_, yields eff ?_, ⟨_, openBucket_closeQuarter (b := b) ?_ j q .sent, qState_setQ_same ..⟩, ?_, ?_, ?_, ?tx⟩
      case tx =>
        refine (closeQuarter_frame (F := (·.tx)) (fun _ _ => rfl) ..).trans ?_
        rw [← partBody_first]
        rfl
      · exact closeQuarter_frame (F := (·.raised)) (fun _ _ => rfl) ..
      · exact opened
      · exact closeQuarter_frame (F := (·.mem)) (fun _ _ => rfl) ..
      · exact closeQuarter_frame (F := (·.cells)) (fun _ _ => rfl) ..
      · exact closeQuarter_frame (F := (·.reg)) (fun _ _ => rfl) ..
    case keeps =>
      obtain ⟨g, made⟩ := addEnd_addCounted s.dev b n j q (some p) t (ownBlocks t q)
      rw [own, if_pos rfl] at made
      have eff := (ringAdd_adds opened state tile sound good).trans made
      refine ⟨_, _, addPart s.dev b j q (some p) t, yields eff ?_, openBucket_closeQuarter (b := b) ?_ j q _, qState_setQ_same .., addBlocks_some .., ?_, ?_, ?_⟩
      · exact closeQuarter_frame (F := (·.raised)) (fun _ _ => rfl) ..
      · exact opened
      · exact closeQuarter_frame (F := (·.tx)) (fun _ _ => rfl) ..
      · exact closeQuarter_frame (F := (·.mem)) (fun _ _ => rfl) ..
      · exact closeQuarter_frame (F := (·.reg)) (fun _ _ => rfl) ..

/-! ### The combined maxima -/

/-- Ring 0 runs wherever there is more than one position (R375). -/
theorem ringsRunning_zero {d : Dev} (many : ringP d ≠ 1) : (ringsRunning d).contains 0 = true := by
  unfold ringsRunning
  rw [if_neg many]
  split <;> rfl

/-- The last position adopts a final list of the running step and sends nothing on. -/
theorem acceptHead_lastFinal {d : Dev} {m : List Byte} (typed : rmType m = 4) (next : rmStamp m = (stLast d + 1) % 2 ^ 48) (many : ringP d ≠ 1)
    (behind : ringPos d ≠ 0) (last : ringPos d + 1 = ringP d) (going : stState d = 1) :
    acceptHead d 0 m = some { d with ring := { d.ring with final := some (rmPairs m), secondSent := true } } := by
  have now : rmStamp m ≠ (stLast d + 2) % 2 ^ 48 := next ▸ stamp_next_ne_later
  have ends : ¬ringPos d + 1 < ringP d := by omega
  unfold acceptHead acceptMaxima
  rw [if_neg (by omega), if_pos rfl, if_neg now, if_neg (not_or.2 ⟨not_not.2 next, many⟩), if_neg (by omega),
    if_neg (not_or.2 ⟨behind, not_not.2 going⟩)]
  exact congrArg some (if_neg ends)

/-- Settles O37: with nothing in ring 0's buffer position 0 sends its own list, and then the final one; the last position adopts the one that comes. -/
theorem maximaPasses : Obligations.MaximaPasses := by
  unfold Obligations.MaximaPasses
  intro s ⟨runs, calm⟩ many unlisted
  have ring := ringsRunning_zero many
  obtain ⟨empty, emptied⟩ := rx_unlisted unlisted
  refine ⟨fun leads done unsent => ?first, fun l leads back unsent => ?second, fun m behind last up typed takes going next room => ?adopts⟩
  case first =>
    have nothing : ringTake s.dev 0 [3] none = s.dev := (ringTake_none _ ring empty).trans emptied
    refine happen_yields (exec_maximaFirstPass none s) rfl (ringArrives_none 0 runs) calm ?_ rfl
    have due : (decide (ringP s.dev = 1) || !dhDone s.dev || s.dev.ring.firstSent) = false := by simp [many, done, unsent]
    simp only [maximaFirst, nothing, due, leads, Bool.false_eq_true, if_false, if_true]
    rfl
  case second =>
    refine happen_yields (exec_maximaSecondPass none s) rfl (ringArrives_none 0 runs) calm ?_ rfl
    simp only [maximaSecond, if_neg many, leads, if_true, back, unsent, Bool.false_eq_true, if_false]
  case adopts =>
    have arrival : RingArrival s.dev 0 [4] m := ⟨ring, empty, takes, by rw [typed]; rfl, room⟩
    have adopted := acceptHead_lastFinal typed next many behind last going
    have eff : maximaSecond s.dev (some m) = putRx { s.dev with ring := { s.dev.ring with final := some (rmPairs m), secondSent := true } } 0 [] := by
      rw [maximaSecond, if_neg many, if_neg behind, ringTake_accepts arrival adopted]
    refine happen_yields (exec_maximaSecondPass (some m) s) rfl (ringArrives_some m runs up) calm (eff.trans ?_) rfl
    exact (rx_unlisted (d := { s.dev with ring := { s.dev.ring with final := some (rmPairs m), secondSent := true } }) unlisted).2

end Sys2Proof.Machine
end

section
/-! SUPPORT. What every command keeps (00_scope.md; 16_faults_and_recovery.md, R515, R518; 18_clocks_power_supply.md, R590): each command is an event that
happens on the device or does not, so what the faults of a command leave is said once of `happen`. -/

namespace Sys2Proof.Machine
open Sys2Proof.Safety

/-! ### Every command is an event -/

/-- A write of the driver is an event of the host link. -/
theorem driverWrite_eq_happen (c : Instr) (off : Nat) (v : W64) (s : State) :
    driverWrite c off v s = happen c reached (fun d => linkWrite d off v) s := rfl

/-- Every command is an event that can happen in some devices, with an effect on them. A write of the crate aims at a register with ST fields alone. -/
theorem exec_eq_happen (c : Instr) (s : State) : ∃ can f, exec c s = happen c can f s := by
  unfold exec
  cases c
  all_goals dsimp only
  case crateWrite off v =>
    by_cases plain : stMask off = 0
    · refine ⟨fun _ => false, .ok, ?_⟩
      rw [happen_not (Bool.and_false _)]
      exact if_pos plain
    · exact ⟨reached, fun d => linkWrite d off v, if_neg plain⟩
  case registerWrite | unitPortPush | upReset | faultSumClear | holdCounterWrite | traceFunnelWrite | commandRingEnable | doorbell
      | crateDiscard | ledgerUpdate | faultLogClear | traceStreamEnable | counterClear | counterFreeze => exact ⟨_, _, driverWrite_eq_happen ..⟩
  all_goals exact ⟨_, _, rfl⟩

/-- Settles O3: the event of such a command cannot happen. -/
theorem illFormedCommandChangesNothing : Obligations.IllFormedCommandChangesNothing := by
  unfold Obligations.IllFormedCommandChangesNothing
  intro c s ill
  obtain ⟨can, f, eq⟩ := exec_eq_happen c s
  rw [eq, happen_not (by rw [ill, Bool.false_and])]

/-- Settles O4: an event answers the state as it is, the state with another device, or a fault. -/
theorem noCommandIsRefusedOrQueued : Obligations.NoCommandIsRefusedOrQueued := by
  unfold Obligations.NoCommandIsRefusedOrQueued
  intro c s
  obtain ⟨can, f, eq⟩ := exec_eq_happen c s
  rw [eq]
  rcases happen_cases c can f s with same | ⟨d, -, next⟩ | ⟨e, stops⟩
  · rw [same]
    exact ⟨fun _ => by simp, fun t h => by cases h; rfl⟩
  · rw [next]
    exact ⟨fun _ => by simp, fun t h => by cases h; rfl⟩
  · rw [stops]
    exact ⟨fun _ => by simp, fun t h => by cases h⟩

/-- Settles O1. -/
theorem stepRunsFrontCommand : Obligations.StepRunsFrontCommand := fun _ _ _ => rfl

/-- Settles O7: at reset the memory is empty, and no fault waits. -/
theorem resetMeetsTheInvariants : Obligations.ResetMeetsTheInvariants := ⟨rfl, rfl, rfl⟩

/-! ### Faults are taken up -/

/-- A fault that abandons no step asks for no further one. -/
theorem takeFault_raised {d : Dev} {f : FaultReq} (passive : (f.abandons && stState d == 1) = false) : (takeFault d f).raised = d.raised := by
  have shown : (setFaultBit d f.port (faultBit f.kind)).raised = d.raised := setFaultBit_frame (F := (·.raised)) (fun _ _ _ => rfl) ..
  simp only [takeFault, passive, Bool.false_eq_true, if_false]
  calc (faultEvent (logFault (setFaultBit d f.port (faultBit f.kind)) (faultWords d f false))).raised
    _ = (logFault (setFaultBit d f.port (faultBit f.kind)) (faultWords d f false)).raised := congrArg Prod.fst (units_faultEvent _)
    _ = (setFaultBit d f.port (faultBit f.kind)).raised := congrArg Prod.fst (units_logFault ..)
    _ = d.raised := shown

/-- A fault that abandons the running step leaves it abandoned (R361, R516). -/
theorem stState_takeFault {d : Dev} {f : FaultReq} (abandons : f.abandons = true) (runs : stState d = 1) : stState (takeFault d f) = 2 := by
  have abnd : (f.abandons && stState d == 1) = true := by rw [abandons, runs]; rfl
  have shown := stepFrame_setFaultBit d f.port (faultBit f.kind)
  have told := (shown.trans (stepFrame_logFault _ (faultWords d f true))).trans (stepFrame_faultEvent _)
  simp only [takeFault, abnd, if_true]
  generalize faultEvent _ = e at told
  have squalled : StepFrame d (if f.kind = 8 then e else emitSquall e (faultBit f.kind)) :=
    told.trans (.ite (fun _ => .refl e) fun _ => stepFrame_emitSquall ..)
  generalize (if f.kind = 8 then e else emitSquall e (faultBit f.kind)) = e' at squalled
  have runs' := squalled.stState_eq.trans runs
  split
  · rw [abandonRegs_running runs']
    exact stState_endStep _
  · exact (abandoned_abandonStep runs').state

/-- No request waits, or no step runs that a fault could abandon. -/
def FaultsClosed (d : Dev) : Prop := d.raised = [] ∨ stState d ≠ 1

theorem faultsClosed_takeFault {d : Dev} (f : FaultReq) (h : FaultsClosed d) : FaultsClosed (takeFault d f) := by
  by_cases outside : stState d = 1
  · cases abandons : f.abandons
    · refine .inl ((takeFault_raised (by rw [abandons, Bool.false_and])).trans (h.resolve_right (not_not_intro outside)))
    · exact .inr (by rw [stState_takeFault abandons outside]; decide)
  · exact .inr (by rwa [(stepFrame_takeFault f outside).stState_eq])

theorem faultsClosed_foldl_takeFault : ∀ (l : List FaultReq) {d : Dev}, FaultsClosed d → FaultsClosed (l.foldl takeFault d)
  | [], _, h => h
  | f :: l, _, h => faultsClosed_foldl_takeFault l (faultsClosed_takeFault f h)

/-- Outside a running step the faults taken up ask for none. -/
theorem foldl_takeFault_raised : ∀ (l : List FaultReq) {d : Dev}, stState d ≠ 1 → (l.foldl takeFault d).raised = d.raised
  | [], _, _ => rfl
  | f :: l, d, outside => by
    have after := foldl_takeFault_raised l (d := takeFault d f) (by rwa [(stepFrame_takeFault f outside).stState_eq])
    exact after.trans (takeFault_raised (by rw [beq_eq_false_iff_ne.2 outside, Bool.and_false]))

/-- The first round leaves requests only if it has abandoned the step; the second then leaves none (R515, R518). -/
theorem takeFaults_raised (d : Dev) : (takeFaults d).raised = [] := by
  have first : FaultsClosed (takeRound d) := faultsClosed_foldl_takeFault _ (.inl rfl)
  rcases first with none_left | outside
  · unfold takeFaults
    rw [takeRound, none_left]
    rfl
  · exact foldl_takeFault_raised _ (d := { takeRound d with raised := [] }) outside

theorem lift_raised {s t : State} {r : Res Dev} (h : lift s r = .next t) : t.dev.raised = [] := by
  cases r with
  | ok d => cases h; exact takeFaults_raised d
  | error e => cases h

theorem happen_raised {c : Instr} {can : Dev → Bool} {f : Dev → Res Dev} {s t : State} (calm : s.dev.raised = []) (h : happen c can f s = .next t) :
    t.dev.raised = [] := by
  unfold happen at h
  split at h
  · exact lift_raised h
  · cases h; exact calm

/-- Settles O5: a step that changes the device ends in `takeFaults`, after which no request waits. -/
theorem faultsTakenUp : Obligations.FaultsTakenUp := by
  unfold Obligations.FaultsTakenUp
  intro s t calm next
  cases queue : s.pending with
  | nil => exact lift_raised (r := rootTick s.dev) (by simpa [step, queue] using next)
  | cons c rest =>
    obtain ⟨can, f, eq⟩ := exec_eq_happen c { s with pending := rest }
    exact happen_raised (s := { s with pending := rest }) calm (eq.symm.trans (by simpa [step, queue] using next))

/-! ### Without power -/

theorem live_unpowered {d : Dev} (off : d.pwr.on = false) : live d = false := by simp [live, off]

/-- A command that happens only where the module is powered, or else leaves an unpowered module as it is. -/
theorem happen_unpowered {c : Instr} {can : Dev → Bool} {f : Dev → Res Dev} {s : State} (calm : s.dev.raised = [])
    (h : can s.dev = false ∨ f s.dev = .ok s.dev) : happen c can f s = .next s := by
  rcases h with never | same
  · exact happen_not (by rw [never, Bool.and_false])
  · unfold happen
    split
    · rw [same]; exact lift_ok s calm
    · rfl

/-- Settles O8: all but seven commands need power, and of those seven the reset pin does nothing without it. -/
theorem nothingHappensWithoutPower : Obligations.NothingHappensWithoutPower := by
  unfold Obligations.NothingHappensWithoutPower
  intro c s off calm noCable noSupply noLine noPower
  have dark := live_unpowered off
  have needsPower : ∀ {can : Dev → Bool} {f}, can s.dev = false → happen c can f s = .next s := fun h => happen_unpowered calm (.inl h)
  unfold exec
  cases c
  all_goals dsimp only
  case cableMate cage b => exact absurd rfl (noCable cage b)
  case supplyVoltageChange mV pin => exact absurd rfl (noSupply mV pin)
  case hostLineInvalidate o data => exact absurd rfl (noLine o data)
  case powerOn => exact absurd rfl noPower
  case registerWrite | unitPortPush | upReset | faultSumClear | holdCounterWrite | traceFunnelWrite | commandRingEnable | doorbell
      | crateDiscard | ledgerUpdate | faultLogClear | traceStreamEnable | counterClear | counterFreeze =>
    exact (driverWrite_eq_happen ..).trans (needsPower (by simp [reached, dark]))
  case coldReset => exact happen_unpowered calm (.inr (congrArg _ (by simp [coldReset, off])))
  case modRstNAssert => exact happen_unpowered calm (.inr (congrArg _ (by simp [assertReset, off])))
  case crateWrite o v =>
    unfold execCrateWrite
    split
    · rfl
    · exact needsPower (by simp [reached, dark])
  case flashErase bus | flashProgram bus | flashRead bus => exact needsPower (by cases bus <;> simp [mailboxReached, reached, dark, off])
  case thermalShutdown | shutdown | mgmtBusWrite | flashOperationDone | tapInstruction | tapReset | dynamicAddressAssign => exact needsPower off
  all_goals exact needsPower (by simp [dark, reached, running, clocked, arrives, ringArrives])

end Sys2Proof.Machine
end


section
/-! SUPPORT. A fault that abandons a running step may bring an ECC fault with it (13_fabric.md, 16_faults_and_recovery.md, R314, R361, R443, R515): the fabric
flush reads PROD of every valid transfer ring, and where such a word is lost the fault of that read shows at the same port. Three statements say that the
port shows no other fault, and fail in such a state. -/

namespace Sys2Proof.Machine
open Sys2Proof.Safety

/-! ### A running step whose flush meets a lost word -/

/-- A step runs, fabric port 0 is up with its cable, and transfer ring 0 is valid at address 0 of HBM, where its PROD stands in a word with two flipped bits. -/
def lostProd : Dev :=
  { coldDev with upset := [(0, 3)], reg := [(0x100_0100, 2 <<< 32), (0x100_0200, 1 <<< 63), (0x30B_0000, 1)], fab := fabCold [0] }

/-- The same with the input between 40 and 44 V for 1 ms. -/
def lostProdLow : Dev := { lostProd with root := 84 * 100000, pwr := { coldDev.pwr with band := 1 } }

/-- A command whose faults leave another set of bits in port 0 than the one that it shows. -/
theorem not_faultShown {c : Instr} {s t : State} {d : Dev} {b : Nat} (ex : exec c s = .next { s with dev := takeFaults d })
    (more : (portOf (takeFaults d) 0).own ≠ (portOf s.dev 0).own ||| 2 ^ b) (next : exec c s = .next t) : ¬FaultShown s.dev t.dev 0 b := by
  rw [ex] at next
  cases next
  exact more

theorem exec_linkLoss (p : Nat) (s : State) : exec (.linkLoss p) s = happen (.linkLoss p) live (fun d => .ok (linkLoss d p)) s := rfl
theorem exec_supplyBandExpiry (s : State) : exec .supplyBandExpiry s = happen .supplyBandExpiry live (fun d => .ok (bandExpiry d)) s := rfl
theorem exec_railOutOfRegulation (die : Nat) (s : State) :
    exec (.railOutOfRegulation die) s = happen (.railOutOfRegulation die) live (fun d => .ok (railLost d die)) s := rfl

/-- LINK is bit 7; ECC, of the lost word, is bit 1. -/
theorem linkLoss_lostProd : (portOf (takeFaults (linkLoss lostProd 0)) 0).own = 2 ^ 7 + 2 ^ 1 := by decide +kernel

/-- SUPPLY is bit 9. -/
theorem railLost_lostProd : (portOf (takeFaults (railLost lostProd 0)) 0).own = 2 ^ 9 + 2 ^ 1 := by decide +kernel

theorem bandExpiry_lostProdLow : (portOf (takeFaults (bandExpiry lostProdLow)) 0).own = 2 ^ 9 + 2 ^ 1 := by decide +kernel

/-! ### The statements -/

/-- Refutes O38: the LINK fault of port 0 abandons the step of `lostProd`, and the flush shows an ECC fault beside it. -/
theorem not_linksComeAndGo : ¬ Obligations.LinksComeAndGo := by
  unfold Obligations.LinksComeAndGo
  intro h
  obtain ⟨loss, -⟩ := h ⟨[], lostProd⟩ 0 rfl rfl
  obtain ⟨t, next, -, shown⟩ := loss rfl (by decide +kernel) rfl
  have ex := (exec_linkLoss 0 ⟨[], lostProd⟩).trans (happen_faults rfl rfl rfl)
  exact not_faultShown ex (by rw [linkLoss_lostProd]; decide) next shown

/-- Refutes O54: the freeze of a low input abandons the step of `lostProdLow`, and the flush shows an ECC fault beside SUPPLY. -/
theorem not_supplyAndPower : ¬ Obligations.SupplyAndPower := by
  unfold Obligations.SupplyAndPower
  intro h
  obtain ⟨-, expiry, -⟩ := h ⟨[], lostProdLow⟩ rfl
  obtain ⟨t, next, -, -, shown, -⟩ := (expiry rfl (by decide +kernel)).1 (.inl ⟨rfl, by decide +kernel⟩)
  have ex := (exec_supplyBandExpiry ⟨[], lostProdLow⟩).trans (happen_faults rfl rfl rfl)
  exact not_faultShown ex (by rw [bandExpiry_lostProdLow]; decide) next shown

/-- Refutes O55: a rail that is lost abandons the step of `lostProd`, and the flush shows an ECC fault beside SUPPLY. -/
theorem not_orderlyFreeze : ¬ Obligations.OrderlyFreeze := by
  unfold Obligations.OrderlyFreeze
  intro h
  obtain ⟨rails, -⟩ := h ⟨[], lostProd⟩ rfl rfl
  obtain ⟨⟨t, next, -, -, shown, -⟩, -⟩ := rails 0 rfl
  have ex := (exec_railOutOfRegulation 0 ⟨[], lostProd⟩).trans (happen_faults rfl rfl rfl)
  exact not_faultShown ex (by rw [railLost_lostProd]; decide) next shown

end Sys2Proof.Machine
end

section
/-! SUPPORT. Writes of registers that have a rule of their own (14_host_link.md, R469–R471; 16_faults_and_recovery.md, R519; 17_observation.md, R547, R556):
the driver's write of such a register is the rule's effect. -/

namespace Sys2Proof.Machine
open Sys2Proof.Safety

/-- A write of a register outside the frames of the unit ports, without staged bits, that has a rule of its own. -/
theorem writeReg_own {d e : Dev} {off : Nat} {v : W64} (free : lockw d = false) (plain : (regAt off).map (·.st) = some 0)
    (out : off < 0x200_0000 ∨ 0x240_0000 ≤ off) (own : writeOwn d .link off v = some e) : writeReg d .link off v = .ok e := by
  have frame : ¬(0x200_0000 ≤ off ∧ off < 0x240_0000) := by omega
  obtain ⟨r, hr, st⟩ := Option.map_eq_some_iff.1 plain
  simp [writeReg, free, hr, st, frame, own]

/-- The driver's write of such a register, when its rule raises no fault. -/
theorem driverWrite_own {c : Instr} {off : Nat} {v : W64} {s : State} {e : Dev} (wf : c.wf = true) (w : Writable s off)
    (plain : (regAt off).map (·.st) = some 0) (out : off < 0x200_0000 ∨ 0x240_0000 ≤ off) (own : writeOwn s.dev .link off v = some e)
    (keeps : e.raised = s.dev.raised) : driverWrite c off v s = .next { s with dev := e } :=
  have ⟨_, calm, _, free, _, _, _⟩ := w
  driverWrite_ok wf w (writeReg_own free plain out own) (keeps.trans calm)

@[simp] theorem postEvent_raised (d : Dev) (type : Nat) (a b : W64) : (postEvent d type a b).raised = d.raised :=
  congrArg Prod.fst (units_holdEvent d _)

@[simp] theorem bitAt_toNat_eq (v : W64) (i : Nat) : bitAt v.toNat i = v.getLsbD i := bitAt_toNat v i

/-! ### The fault log and the counters -/

theorem exec_faultLogClear (v : W64) (s : State) : exec (.faultLogClear v) s = driverWrite (.faultLogClear v) 0x40_0008 v s := rfl
theorem exec_counterClear (v : W64) (s : State) : exec (.counterClear v) s = driverWrite (.counterClear v) 0x307_0008 v s := rfl
theorem exec_counterFreeze (v : W64) (s : State) : exec (.counterFreeze v) s = driverWrite (.counterFreeze v) 0x307_0008 v s := rfl

/-- The cells that a table names, and only they, lose their counts, however often it names them. -/
theorem cellOf_foldl_clearCounts (c : Nat) : ∀ (l : Tab Cell) (d : Dev), cellOf (l.foldl (fun d x => modCell d x.1 clearCounts) d) c =
    if c ∈ l.map (·.1) then clearCounts (cellOf d c) else cellOf d c
  | [], _ => by simp
  | a :: t, d => by
    rw [List.foldl_cons, cellOf_foldl_clearCounts c t, cellOf_modCell]
    by_cases same : c = a.1
    · subst same
      simp [clearCounts]
    · simp only [List.map_cons, List.mem_cons, same, false_or, if_false]

/-- A fold of writes of 0 leaves 0 in each register listed. -/
theorem rg_foldl_zero (at_ : Nat → Nat) (o : Nat) : ∀ (l : List Nat) (d : Dev),
    rg (l.foldl (fun d g => putRg d (at_ g) 0) d) o = if o ∈ l.map at_ then 0 else rg d o
  | [], _ => by simp
  | a :: t, d => by
    rw [List.foldl_cons, rg_foldl_zero at_ o t, rg_putRg]
    by_cases same : o = at_ a
    · simp [same]
    · simp [same]

/-- What looks neither at cells nor at registers is left when the counters are cleared. -/
theorem clearAllCounts_frame {β : Type} {F : Dev → β} (hF : ∀ d c r, F { d with cells := c, reg := r } = F d) (d : Dev) :
    F (clearAllCounts d) = F d := by
  have regs : ∀ (d : Dev) o v, F (putRg d o v) = F d := fun d o v => hF d d.cells _
  have cells : ∀ (d : Dev) c f, F (modCell d c f) = F d := fun d c f => hF d _ d.reg
  exact (regs ..).trans ((foldl_frame F _ (fun _ _ => regs ..) ..).trans (foldl_frame F _ (fun _ _ => cells ..) ..))

@[simp] theorem clearAllCounts_raised (d : Dev) : (clearAllCounts d).raised = d.raised := clearAllCounts_frame (F := (·.raised)) (fun _ _ _ => rfl) d
@[simp] theorem clearAllCounts_ports (d : Dev) : (clearAllCounts d).ports = d.ports := clearAllCounts_frame (F := (·.ports)) (fun _ _ _ => rfl) d

theorem clearCounts_cellReset : clearCounts cellReset = cellReset := rfl

/-- Every cell loses its counts: one that the table does not name has none. -/
theorem cellOf_clearAllCounts (d : Dev) (c : Nat) : cellOf (clearAllCounts d) c = clearCounts (cellOf d c) := by
  have regs := foldl_frame (cellOf · c) (fun d g => putRg d (0x307_0100 + 8 * g) 0) fun d g => cellOf_putRg d _ _ c
  unfold clearAllCounts
  rw [cellOf_putRg, regs, cellOf_foldl_clearCounts]
  split
  · rfl
  · next absent => simp only [cellOf, tabGet_absent _ _ absent, clearCounts_cellReset]

/-- The device's counters and those of every gallery are 0. -/
theorem rg_clearAllCounts {d : Dev} {o : Nat} (ctr : o = 0x307_0000 ∨ ∃ g, g < 48 ∧ o = 0x307_0100 + 8 * g) : rg (clearAllCounts d) o = 0 := by
  unfold clearAllCounts
  rw [rg_putRg, rg_foldl_zero]
  rcases ctr with dev | ⟨g, lt, gal⟩
  · rw [if_pos dev]
  · rw [if_pos (List.mem_map.2 ⟨g, List.mem_range.2 lt, gal.symm⟩), ite_self]

/-- A write of FLT_CTL. -/
theorem writeOwn_fltCtl (d : Dev) (v : W64) : writeOwn d .link 0x40_0008 v = some (if v.getLsbD 0 then clearLog d else d) := by simp [writeOwn]

/-- A write of CNT_CTL. -/
theorem writeOwn_cntCtl (d : Dev) (v : W64) :
    writeOwn d .link 0x307_0008 v = some (putRg (if v.getLsbD 1 then clearAllCounts d else d) 0x307_0008 (v &&& 1)) := by simp [writeOwn, writeCntCtl]

/-- Settles O51: both registers have a rule of their own; the clearing goes through the cells that the table names, and the others hold no counts. -/
theorem logAndCountersClear : Obligations.LogAndCountersClear := by
  unfold Obligations.LogAndCountersClear
  intro s v
  refine ⟨fun w => ?_, fun w clear => ?_, fun w clear => ?_⟩
  · refine (exec_faultLogClear v s).trans (driverWrite_own rfl w (by decide) (by decide) (writeOwn_fltCtl s.dev v) ?_)
    split <;> rfl
  · have own := writeOwn_cntCtl s.dev v
    rw [clear, if_neg Bool.false_ne_true] at own
    exact (exec_counterFreeze v s).trans (driverWrite_own (congrArg not clear) w (by decide) (by decide) own rfl)
  · have own := writeOwn_cntCtl s.dev v
    rw [clear, if_pos rfl] at own
    refine ⟨_, (exec_counterClear v s).trans (driverWrite_own clear w (by decide) (by decide) own (by simp)), fun c => ?_, ?_, ?_, fun g lt => ?_, ?_, ?_⟩
    · rw [cellOf_putRg, cellOf_clearAllCounts]
    · rw [rg_putRg, if_pos rfl]
    · rw [rg_putRg, if_neg (by decide), rg_clearAllCounts (.inl rfl)]
    · rw [rg_putRg, if_neg (by omega), rg_clearAllCounts (.inr ⟨g, lt, rfl⟩)]
    · rw [putRg_mem, clearAllCounts_mem]
    · rw [putRg_ports, clearAllCounts_ports]

end Sys2Proof.Machine
end

section
/-! SUPPORT. Command rings (14_host_link.md, R469–R471, R475): the writes of a ring's registers, the bytes of a completion record, and a NOP from its taking to
its record. -/

namespace Sys2Proof.Machine
open Sys2Proof.Safety

/-! ### Bytes that have been written -/

/-- The byte read at the address of one that has been written. -/
theorem tabGet_memPutL_zipIdx (a : Nat) : ∀ (bs : List Byte) (k : Nat) (m : Tab Byte) (i : Nat) (lt : i < bs.length),
    tabGet memDefault (memPutL ((bs.zipIdx k).map fun (b, j) => (a + j, b)) m) (a + k + i) = bs[i]
  | b :: t, k, m, 0, _ => by
    simp only [List.zipIdx_cons, List.map_cons, memPutL]
    rw [rdB_memPutL _ fun e he => ?_]
    · exact tabGet_put_same memDefault m (a + k) b
    · obtain ⟨q, hq, rfl⟩ := List.mem_map.1 he
      have := (List.mem_zipIdx hq).1
      dsimp only
      omega
  | b :: t, k, m, i + 1, lt => by
    have next := tabGet_memPutL_zipIdx a t (k + 1) (tabPut memDefault m (a + k) b) i (by simpa using lt)
    simpa only [List.zipIdx_cons, List.map_cons, memPutL, List.getElem_cons_succ, Nat.add_assoc, Nat.add_comm 1 i] using next

theorem rdB_wrBytes_same (d : Dev) (a : Nat) {bs : List Byte} {i : Nat} (lt : i < bs.length) : rdB (wrBytes d a bs) (a + i) = bs[i] :=
  tabGet_memPutL_zipIdx a bs 0 d.mem i lt

/-- The first bytes of those that have been written. -/
theorem rdBytes_wrBytes (d : Dev) (a : Nat) {bs : List Byte} {n : Nat} (le : n ≤ bs.length) : rdBytes (wrBytes d a bs) a n = bs.take n := by
  refine List.ext_getElem (by simpa [rdBytes] using le) fun i hi _ => ?_
  have lt : i < bs.length := by simp [rdBytes] at hi; omega
  simp [rdBytes, rdB_wrBytes_same d a lt]

/-- The number of its bytes. -/
theorem leNat_leBytes (v : Nat) : ∀ n, leNat (leBytes n v) = v % 2 ^ (8 * n)
  | 0 => by simp [leBytes, leNat, Nat.mod_one]
  | n + 1 => by
    have split : leBytes (n + 1) v = BitVec.ofNat 8 v :: leBytes n (v / 256) := by
      simp only [leBytes, List.range_succ_eq_map, List.map_cons, List.map_map, Nat.mul_zero, Nat.shiftRight_zero]
      congr 1
      refine List.map_congr_left fun i _ => ?_
      simp only [Function.comp_apply, Nat.shiftRight_eq_div_pow, Nat.div_div_eq_div_mul]
      rw [show 8 * i.succ = 8 + 8 * i from by omega, Nat.pow_add]
    rw [split, leNat, leNat_leBytes, show 8 * (n + 1) = 8 + 8 * n from by omega, Nat.pow_add, Nat.mod_mul]
    simp

@[simp] theorem length_leBytes (n v : Nat) : (leBytes n v).length = n := by simp [leBytes]

/-- The first eight bytes of words are the first word's. -/
theorem take_wordBytes (w : W64) (ws : List W64) : (wordBytes (w :: ws)).take 8 = leBytes 8 w.toNat := by
  rw [wordBytes, List.flatMap_cons]
  exact List.take_left' (length_leBytes ..)

@[simp] theorem length_wordBytes (ws : List W64) : (wordBytes ws).length = 8 * ws.length := by
  simp [wordBytes, List.length_flatMap]
  omega

/-! ### The registers of a ring -/

theorem exec_commandRingEnable (r : Nat) (v : W64) (s : State) :
    exec (.commandRingEnable r v) s = driverWrite (.commandRingEnable r v) (cqReg r 0) v s := rfl
theorem exec_doorbell (r : Nat) (v : W64) (s : State) : exec (.doorbell r v) s = driverWrite (.doorbell r v) (cqReg r 0x10) v s := rfl

theorem writeOwn_cqBase {r : Nat} (hr : r < 4) (d : Dev) (v : W64) : writeOwn d .link (cqReg r 0) v = some (writeCqBase d r v) := by
  interval_cases r <;> simp [writeOwn, cqReg]

theorem writeOwn_cqDb {r : Nat} (hr : r < 4) (d : Dev) (v : W64) : writeOwn d .link (cqReg r 0x10) v = some (writeCqDb d r v) := by
  interval_cases r <;> simp [writeOwn, cqReg]

theorem cqReg_plain {r : Nat} (hr : r < 4) {o : Nat} (ho : o = 0 ∨ o = 0x10) : (regAt (cqReg r o)).map (·.st) = some 0 := by
  have all : ∀ r, r < 4 → ∀ o ∈ [0, 0x10], (regAt (cqReg r o)).map (·.st) = some 0 := by decide
  exact all r hr o (by simpa using ho)

/-- The driver's write of CQ_BASE, or of CQ_DB, whose rule leads to the device `e`. -/
theorem driverWrite_cq {c : Instr} {r o : Nat} {v : W64} {s : State} {e : Dev} (wf : c.wf = true) (hr : r < 4) (ho : o = 0 ∨ o = 0x10)
    (w : Writable s (cqReg r o)) (own : writeOwn s.dev .link (cqReg r o) v = some e) (keeps : e.raised = s.dev.raised) :
    driverWrite c (cqReg r o) v s = .next { s with dev := e } :=
  driverWrite_own wf w (cqReg_plain hr ho) (.inl (by unfold cqReg; omega)) own keeps

/-- A write that leaves the ring disabled clears ERR; a size out of range is a ring error then (R470). -/
theorem writeCqBase_disable {d : Dev} {r : Nat} {v : W64} (off : v.getLsbD 63 = false) :
    let e := putRgf (putRg d (cqReg r 0) (v &&& 0xCF00_0FFF_FFFF_FFC0#64)) (cqReg r 0x18) 1 1 0
    writeCqBase d r v = if fld v.toNat 59 56 < 4 ∨ 12 < fld v.toNat 59 56 then ringError e r else e := by
  intro e
  have clear : rgf e (cqReg r 0x18) 1 1 = 0 := rgf_putRgf_same _ _ _ (by decide)
  simp only [writeCqBase, bitAt_toNat, off, Bool.not_false, if_true]
  rw [clear]
  simp [e]

/-- Enabling a ring with a size in range sets CONS to DB. -/
theorem writeCqBase_enable {d : Dev} {r : Nat} {v : W64} (on : v.getLsbD 63 = true) (was : (rg d (cqReg r 0)).getLsbD 63 = false)
    (size : 4 ≤ fld v.toNat 59 56 ∧ fld v.toNat 59 56 ≤ 12) : writeCqBase d r v =
    putRgf (putRg d (cqReg r 0) (v &&& 0xCF00_0FFF_FFFF_FFC0#64)) (cqReg r 0x18) 63 32 (rgf d (cqReg r 0x10) 31 0) := by
  have db : rgf (putRg d (cqReg r 0) (v &&& 0xCF00_0FFF_FFFF_FFC0#64)) (cqReg r 0x10) 31 0 = rgf d (cqReg r 0x10) 31 0 := by
    simp [rgf, cqReg]
  have fits : ¬(fld v.toNat 59 56 < 4) ∧ ¬(12 < fld v.toNat 59 56) := by omega
  simp only [writeCqBase, bitAt_toNat, on, was, Bool.not_true, Bool.false_eq_true, if_false, db, fits, decide_false, Bool.or_false, Bool.and_false]

/-- A doorbell: one beyond the ring is a ring error, unless the ring is in error. -/
theorem writeCqDb_eq (d : Dev) (r : Nat) (v : W64) :
    let e := putRg d (cqReg r 0x10) (v &&& 0xFFFF_FFFF#64)
    writeCqDb d r v = if rgf d (cqReg r 0x18) 1 1 = 0 ∧
      2 ^ rgf d (cqReg r 0) 59 56 < (fld v.toNat 31 0 + 2 ^ 32 - rgf d (cqReg r 0x18) 63 32) % 2 ^ 32 then ringError e r else e := by
  intro e
  have other (o : Nat) (ne : o ≠ 0x10) : rg e (cqReg r o) = rg d (cqReg r o) := by
    rw [rg_putRg, if_neg (by unfold cqReg; omega)]
  have stat : ∀ hi lo, rgf e (cqReg r 0x18) hi lo = rgf d (cqReg r 0x18) hi lo := fun hi lo => by rw [rgf, other 0x18 (by decide)]; rfl
  unfold writeCqDb
  simp only [← show e = putRg d (cqReg r 0x10) (v &&& 0xFFFF_FFFF#64) from rfl, stat, other 0 (by decide), Bool.and_eq_true, beq_iff_eq,
    decide_eq_true_eq]
  rfl

@[simp] theorem ringError_raised (d : Dev) (r : Nat) : (ringError d r).raised = d.raised := postEvent_raised ..

/-! ### A NOP from its ring -/

theorem exec_commandTake (s : State) : exec .commandTake s = happen .commandTake live (fun d => commandTake d none) s := rfl

/-- Places depend on the number of depot channels alone. -/
theorem place_congr {d e : Dev} (same : rg e 0x30A_0000 = rg d 0x30A_0000) (a : Nat) : place e a = place d a := by
  simp only [place, depotSize, depotChans, rgf, same]

/-- A write to host memory lands, whatever the device is doing. -/
theorem engWrite_host {d : Dev} {a o : Nat} (bs : List Byte) (host : place d a = .host o) :
    engWrite d a bs = wrBytes (lineDrop d a bs.length) a bs := by
  simp [engWrite, host, blockedPlace]

/-- What a window write drops are copies of lines. -/
theorem rdB_lineDrop (d : Dev) (a n b : Nat) : rdB (lineDrop d a n) b = rdB d b := rfl

/-- The task of a command whose own share, in the device `d`, has ended well. -/
def shareDone (d : Dev) (t : HostTask) : HostTask :=
  { merge t (myDev d) 0 0 none (gather d (portIn t.words)).1 (gather d (portIn t.words)).2 with accepted := true, ownDone := true }

/-- The own share of a NOP ends at once (R475). -/
theorem ownShare_nop {d : Dev} {src : Src} {t : HostTask} (found : taskOf d t.id = some t) (op : opOf t.words = 0) (alone : t.waiting = [])
    (own : t.root = none) (shown : t.closed = false) :
    ownShare d src t.id = .ok (abandonPoll (writeRecord (putTask d (shareDone d t)) (shareDone d t))) := by
  have does : execOp d src t.words t.id = .ok (shareOk, d) := by simp only [execOp, op]
  have entered : taskOf (putTask d (shareDone d t)) t.id = some (shareDone d t) := taskOf_putTask d (shareDone d t)
  have ends : finishTask (putTask d (shareDone d t)) t.id = writeRecord (putTask d (shareDone d t)) (shareDone d t) := by
    have alone' : (shareDone d t).waiting = [] := alone
    have own' : (shareDone d t).root = none := own
    have shown' : (shareDone d t).closed = false := shown
    have done : (shareDone d t).ownDone = true ∧ (shareDone d t).accepted = true := ⟨rfl, rfl⟩
    simp only [finishTask, entered, alone', own', shown', done, List.isEmpty_nil, Bool.not_true, Bool.or_false, Bool.false_eq_true, if_false]
  calc ownShare d src t.id
    _ = .ok (abandonPoll (finishTask (putTask d (shareDone d t)) t.id)) := by
      simp only [ownShare, found, does]
      rfl
    _ = _ := by rw [ends]

/-- Where the record of task `t` goes (R475). -/
def recordAt (d : Dev) (t : HostTask) : Nat :=
  hostBase + rgf d (cqReg t.ring 8) 43 6 * 64 + 64 * (t.index % 2 ^ rgf d (cqReg t.ring 0) 59 56)

/-- The record of task `t`. -/
def recordBytes (d : Dev) (t : HostTask) : List Byte := wordBytes (recordWords t (rgf d (cqReg t.ring 0) 59 56))

theorem length_recordBytes (d : Dev) (t : HostTask) : (recordBytes d t).length = 64 := length_wordBytes _

/-- While the host link is up a record is written at once. -/
theorem writeRecord_up {d : Dev} {t : HostTask} (up : hostUp d = true) :
    writeRecord d t = markBusy (engWrite (dropTask d t.id) (recordAt d t) (recordBytes d t)) t.ring := by
  have up' : hostUp (dropTask d t.id) = true := up
  simp only [writeRecord, hostWrite, up', if_true]
  rfl

theorem tasks_writeRecord {d : Dev} {t : HostTask} (up : hostUp d = true) :
    (writeRecord d t).host.tasks = d.host.tasks.filter (·.id != t.id) := by
  rw [writeRecord_up up]
  exact engWrite_frame (F := (·.host.tasks)) (fun _ _ _ _ => rfl) ..

theorem rdB_writeRecord_other {d : Dev} {t : HostTask} (up : hostUp d = true) {b : Nat} (out : b < recordAt d t ∨ recordAt d t + 64 ≤ b) :
    rdB (writeRecord d t) b = rdB d b := by
  rw [writeRecord_up up]
  exact rdB_engWrite_other (dropTask d t.id) _ _ b (by rwa [length_recordBytes])

theorem rdB_mem {d e : Dev} (same : e.mem = d.mem) (b : Nat) : rdB e b = rdB d b := by rw [rdB, rdB, same]

theorem rdBytes_markBusy (d : Dev) (r a n : Nat) : rdBytes (markBusy d r) a n = rdBytes d a n := rfl

/-- The first word of a record that is read back from host memory. -/
theorem rdN_writeRecord {d : Dev} {t : HostTask} {o : Nat} (up : hostUp d = true) (host : place d (recordAt d t) = .host o) :
    rdN (writeRecord d t) (recordAt d t) 8 = ((recordWords t (rgf d (cqReg t.ring 0) 59 56)).getD 0 0).toNat := by
  have bytes : rdBytes (writeRecord d t) (recordAt d t) 8 = (recordBytes d t).take 8 := by
    have host' : place (dropTask d t.id) (recordAt d t) = .host o := (place_congr (d := d) rfl _).trans host
    rw [writeRecord_up up, rdBytes_markBusy, engWrite_host _ host']
    exact rdBytes_wrBytes _ _ (by rw [length_recordBytes]; decide)
  rw [rdN, bytes, recordBytes, recordWords, take_wordBytes, leNat_leBytes, Nat.mod_eq_of_lt (by simpa using BitVec.isLt _)]
  rfl

/-- The record of a NOP that ended well says so: its phase and its tag are all that its first word shows. -/
theorem recordWord_nop {t : HostTask} (well : t.who = none) (alone : t.waiting = []) (op : opOf t.words = 0) (sz : Nat) :
    ((recordWords t sz).getD 0 0).toNat = phaseBit t.index sz * 2 ^ 63 + tagOf t.words := by
  have phase : phaseBit t.index sz ≤ 1 := Nat.sub_le ..
  have tag : tagOf t.words < 2 ^ 16 := Nat.mod_lt _ (by decide)
  simp only [recordWords, well, alone, op, Option.isSome_none, Bool.false_eq_true, if_false, List.isEmpty_nil, if_true, List.getD_cons_zero, w64]
  rw [BitVec.toNat_ofNat, Nat.mod_eq_of_lt (by omega)]
  omega

theorem rg_putTask (d : Dev) (t : HostTask) (o : Nat) : rg (putTask d t) o = rg d o := rfl
theorem tasks_markBusy (d : Dev) (r : Nat) : (markBusy d r).host.tasks = d.host.tasks := rfl

/-- What enters an empty list of tasks is the one task. -/
theorem tasks_putTask_idle {d : Dev} (t : HostTask) (idle : d.host.tasks = []) : (putTask d t).host.tasks = [t] := by
  simp [putTask, taskOf, idle]

/-- A command that is taken while no other is under way is the one task. -/
theorem tasks_begun {d : Dev} {r : Nat} {ws : List W64} (idle : d.host.tasks = []) : (begun d r ws).host.tasks = [begunTask d r ws] := by
  obtain ⟨l, taken⟩ := takeEntry_eq d r
  have idle' : (newId (takeEntry d r)).2.host.tasks = [] := by
    rw [taken]
    exact idle
  rw [begun, tasks_markBusy, tasks_putTask_idle _ idle']

/-- The device in which the own share of the one task `t` has ended well. -/
def nopShare (d : Dev) (t : HostTask) : Dev := putTask d (shareDone d t)

theorem tasks_nopShare {d : Dev} {t : HostTask} (one : d.host.tasks = [t]) : (nopShare d t).host.tasks = [shareDone d t] := by
  have same : (shareDone d t).id = t.id := rfl
  simp [nopShare, putTask, taskOf, one, same]

/-- While a ring has a command to be taken the host link is up (R471). -/
theorem nextRing_up {d : Dev} {x : Nat × List W64} (next : nextRing d = some x) : hostUp d = true := by
  by_contra down
  simp [nextRing, down] at next

/-- The device that takes a NOP from ring `r` and has written its record. -/
def nopTaken (d : Dev) (r : Nat) (ws : List W64) : Dev :=
  writeRecord (nopShare (begun d r ws) (begunTask d r ws)) (shareDone (begun d r ws) (begunTask d r ws))

theorem rg_nopShare (d : Dev) {r o : Nat} (ws : List W64) (ne : o ≠ cqReg r 0x18) : rg (nopShare (begun d r ws) (begunTask d r ws)) o = rg d o := by
  rw [nopShare, rg_putTask, rg_begun_other d ws ne]

theorem hostUp_nopShare {d : Dev} {r : Nat} (ws : List W64) (up : hostUp d = true) : hostUp (nopShare (begun d r ws) (begunTask d r ws)) = true := by
  rw [← up]
  simp only [hostUp, rgf, rg_nopShare d ws (show 0x20_1000 ≠ cqReg r 0x18 by unfold cqReg; omega)]

/-- What looks at nothing that a record changes, and not at the count of tasks, is left. -/
theorem nopTaken_frame {β : Type} {F : Dev → β}
    (hF : ∀ d m u l h t f r n, F { d with mem := m, upset := u, hostLines := l, host := h, tx := t, fab := f, reg := r, nextId := n } = F d)
    (d : Dev) (r : Nat) (ws : List W64) : F (nopTaken d r ws) = F d := by
  have blind : LinkBlind F := .of_frame fun d m u l h t f r => hF d m u l h t f r d.nextId
  have entered : F (nopShare (begun d r ws) (begunTask d r ws)) = F (begun d r ws) := blind.host _ _
  rw [nopTaken, writeRecord_frame blind, entered]
  exact begun_frame (fun d n l h t => hF d d.mem d.upset l h d.tx d.fab t n) d r ws

/-- CONS has advanced. -/
theorem cons_nopTaken {r : Nat} (hr : r < 4) (d : Dev) (ws : List W64) :
    rgf (nopTaken d r ws) (cqReg r 0x18) 63 32 = (rgf d (cqReg r 0x18) 63 32 + 1) % 2 ^ 32 := by
  have entered : rgf (nopShare (begun d r ws) (begunTask d r ws)) (cqReg r 0x18) 63 32 = rgf (begun d r ws) (cqReg r 0x18) 63 32 := by
    rw [rgf, nopShare, rg_putTask, ← rgf]
  rw [nopTaken, writeRecord_frame (linkBlind_cons hr), entered, (stepFrame_begun d r ws).cons, cons_advanced]

/-- Only the record is written to memory. -/
theorem rdB_nopTaken {d : Dev} {r : Nat} {ws : List W64} (up : hostUp d = true) {b : Nat}
    (out : let a := recordAt (nopShare (begun d r ws) (begunTask d r ws)) (shareDone (begun d r ws) (begunTask d r ws)); b < a ∨ a + 64 ≤ b) :
    rdB (nopTaken d r ws) b = rdB d b := by
  have entered : rdB (nopShare (begun d r ws) (begunTask d r ws)) b = rdB (begun d r ws) b := by
    rw [nopShare, rdB_mem (putTask_mem ..)]
  rw [nopTaken, rdB_writeRecord_other (hostUp_nopShare ws up) out, entered]
  exact begun_frame (F := (rdB · b)) (fun d _ _ _ _ => rdB_mem rfl b) d r ws

/-- The record of a NOP says so. -/
theorem rdN_nopTaken {d : Dev} {r : Nat} {ws : List W64} (up : hostUp d = true) (op : opOf ws = 0) {a o : Nat} (host : place d a = .host o)
    (slot : recordAt (nopShare (begun d r ws) (begunTask d r ws)) (shareDone (begun d r ws) (begunTask d r ws)) = a) :
    rdN (nopTaken d r ws) a 8 = phaseBit (rgf d (cqReg r 0x18) 63 32) (rgf d (cqReg r 0) 59 56) * 2 ^ 63 + tagOf ws := by
  subst slot
  have host' := (place_congr (rg_nopShare d ws (show 0x30A_0000 ≠ cqReg r 0x18 by unfold cqReg; omega)) _).trans host
  have shows := recordWord_nop (t := shareDone (begun d r ws) (begunTask d r ws)) rfl rfl op
  have ring : (shareDone (begun d r ws) (begunTask d r ws)).ring = r := rfl
  rw [nopTaken, rdN_writeRecord (hostUp_nopShare ws up) host', shows, ring, rgf, rg_nopShare d ws (by unfold cqReg; omega)]
  rfl

/-- The record goes to the completion slot of the command's index. -/
theorem recordAt_nop (d : Dev) (r : Nat) (ws : List W64) : recordAt (nopShare (begun d r ws) (begunTask d r ws)) (shareDone (begun d r ws) (begunTask d r ws)) =
    hostBase + rgf d (cqReg r 8) 43 6 * 64 + 64 * (rgf d (cqReg r 0x18) 63 32 % 2 ^ rgf d (cqReg r 0) 59 56) := by
  have ring : (shareDone (begun d r ws) (begunTask d r ws)).ring = r := rfl
  have index : (shareDone (begun d r ws) (begunTask d r ws)).index = rgf d (cqReg r 0x18) 63 32 := rfl
  simp only [recordAt, ring, index, rgf, rg_nopShare d ws (show cqReg r 8 ≠ cqReg r 0x18 by unfold cqReg; omega),
    rg_nopShare d ws (show cqReg r 0 ≠ cqReg r 0x18 by unfold cqReg; omega)]

/-- A NOP that is taken while no command is under way ends at once (R471, R475). -/
theorem takeCommand_nop {d : Dev} {r : Nat} {ws : List W64} (next : nextRing d = some (r, ws)) (sound : opBad d r ws = false)
    (alone : othersOf d ws = []) (own : bitAt (setOf d ws) (myDev d) = true) (op : opOf ws = 0) (idle : d.host.tasks = []) :
    commandTake d none = .ok (nopTaken d r ws) ∧ (nopTaken d r ws).host.tasks = [] := by
  have one := tasks_begun (r := r) (ws := ws) idle
  have none_ : (nopTaken d r ws).host.tasks = [] := by
    rw [nopTaken, tasks_writeRecord (hostUp_nopShare ws (nextRing_up next)), tasks_nopShare one]
    simp
  have polled : abandonPoll (nopTaken d r ws) = nopTaken d r ws := by simp [abandonPoll, none_]
  have found : taskOf (begun d r ws) (begunTask d r ws).id = some (begunTask d r ws) := by simp [taskOf, one]
  have share := ownShare_nop (src := .ring) found ((congrArg opOf (begunTask_words d r ws)).trans op) rfl rfl rfl
  rw [begunTask_id, ← nopShare, ← nopTaken, polled] at share
  have ended (i : Nat) : finishTask (nopTaken d r ws) i = nopTaken d r ws := by simp [finishTask, taskOf, none_]
  refine ⟨?_, none_⟩
  simp only [commandTake, next, takeCommand_own sound alone own, share, Except.map, ended]

/-! ### The statement -/

/-- Settles O46: the two registers have rules of their own; a NOP becomes the one task, whose own share ends at once with its record. -/
theorem commandRingsServe : Obligations.CommandRingsServe := by
  unfold Obligations.CommandRingsServe
  intro s r hr
  refine ⟨fun v w => ⟨fun off low high => ?_, fun off bad => ?_, fun on was low high => ?_⟩, fun v w => ⟨fun fits => ?_, fun beyond sound => ?_⟩, ?_⟩
  · have own := writeOwn_cqBase hr s.dev v
    rw [writeCqBase_disable off, if_neg (by omega)] at own
    exact (exec_commandRingEnable r v s).trans (driverWrite_cq (by simpa [Instr.wf] using hr) hr (.inl rfl) w own rfl)
  · have own := writeOwn_cqBase hr s.dev v
    rw [writeCqBase_disable off, if_pos bad] at own
    exact (exec_commandRingEnable r v s).trans (driverWrite_cq (by simpa [Instr.wf] using hr) hr (.inl rfl) w own (ringError_raised ..))
  · have own := writeOwn_cqBase hr s.dev v
    rw [writeCqBase_enable on was ⟨low, high⟩] at own
    exact (exec_commandRingEnable r v s).trans (driverWrite_cq (by simpa [Instr.wf] using hr) hr (.inl rfl) w own rfl)
  · have own := writeOwn_cqDb hr s.dev v
    rw [writeCqDb_eq, if_neg (fun h => Nat.not_lt.2 fits h.2)] at own
    exact (exec_doorbell r v s).trans (driverWrite_cq (by simpa [Instr.wf] using hr) hr (.inr rfl) w own rfl)
  · have own := writeOwn_cqDb hr s.dev v
    rw [writeCqDb_eq, if_pos ⟨sound, beyond⟩] at own
    exact (exec_doorbell r v s).trans (driverWrite_cq (by simpa [Instr.wf] using hr) hr (.inr rfl) w own (ringError_raised ..))
  · intro ws ⟨lives, calm, next, sound, alone, own⟩ op idle idx sz a host
    obtain ⟨eff, none_⟩ := takeCommand_nop next sound alone own op idle
    have up := nextRing_up next
    have slot := recordAt_nop s.dev r ws
    have raised := (nopTaken_frame (F := (·.raised)) (fun _ _ _ _ _ _ _ _ _ => rfl) s.dev r ws).trans calm
    refine ⟨_, (exec_commandTake s).trans (happen_ok rfl lives eff raised), rfl, cons_nopTaken hr s.dev ws, none_, ?_, ?_, fun b out => ?_, ?_⟩
    · exact nopTaken_frame (F := (·.cells)) (fun _ _ _ _ _ _ _ _ _ => rfl) s.dev r ws
    · exact nopTaken_frame (F := (·.ports)) (fun _ _ _ _ _ _ _ _ _ => rfl) s.dev r ws
    · exact rdB_nopTaken up (by rw [slot]; exact out)
    · exact rdN_nopTaken up op host slot

end Sys2Proof.Machine
end

section
/-! SUPPORT. Trace (17_observation.md, R544, R547, R548): what the records of a cell leave, a record with its wall tick that enters the gallery's buffer, and the
streaming of the buffer. -/

namespace Sys2Proof.Machine
open Sys2Proof.Safety

/-! ### What trace records leave -/

section TraceFrame
variable {β : Type} {F : Dev → β} (hF : ∀ d c g k, F { d with cells := c, gals := g, fresh := k } = F d)
  (hR : ∀ d g v, F (putRg d (trcReg g 0x18) v) = F d)
include hF

theorem putLost_frame (d : Dev) (g : Nat) : F (putLost d g) = F d := by
  unfold putLost
  dsimp only
  split
  · rfl
  · exact hF d d.cells _ _

theorem modCell_frame (d : Dev) (c : Nat) (f : Cell → Cell) : F (modCell d c f) = F d := hF d _ d.gals d.fresh

theorem modGal_frame (d : Dev) (g : Nat) (f : Gallery → Gallery) : F (modGal d g f) = F d := hF d d.cells _ d.fresh

include hR

theorem putWords_frame (d : Dev) (g : Nat) (ws : List Nat) : F (putWords d g ws) = F d := by
  unfold putWords
  dsimp only
  split
  · exact (modGal_frame hF ..).trans ((hR ..).trans (putLost_frame hF ..))
  · exact (modGal_frame hF ..).trans (putLost_frame hF ..)

theorem putTimed_frame (d : Dev) (c type why cyc : Nat) : F (putTimed d c type why cyc) = F d := by
  unfold putTimed
  exact (modCell_frame hF ..).trans (putWords_frame hF hR ..)

theorem resyncCell_frame (d : Dev) (c cyc : Nat) : F (resyncCell d c cyc) = F d := by
  unfold resyncCell
  dsimp only
  split
  · exact (putTimed_frame hF hR ..).trans (modGal_frame hF ..)
  · rfl

theorem emitRec_frame (d : Dev) (c : Nat) (r : TraceRec) : F (emitRec d c r) = F d := by
  have ready : F (resyncCell (putLost d (galleryOfCell c)) c r.edge) = F d := (resyncCell_frame hF hR ..).trans (putLost_frame hF ..)
  unfold emitRec
  split
  · rfl
  · dsimp only
    refine (modCell_frame hF ..).trans ((putWords_frame hF hR ..).trans ?_)
    split
    · exact (putTimed_frame hF hR ..).trans ready
    · exact ready

theorem flushRun_frame (d : Dev) (c : Nat) : F (flushRun d c) = F d := by
  unfold flushRun
  dsimp only
  split
  · rfl
  · exact (foldl_frame F _ (fun d t => emitRec_frame hF hR d c t) ..).trans ((emitRec_frame hF hR ..).trans (hF d _ d.gals d.fresh))

theorem addRec_frame (d : Dev) (c : Nat) (r : TraceRec) : F (addRec d c r) = F d := by
  unfold addRec
  split
  · exact modCell_frame hF ..
  · exact emitRec_frame hF hR ..

theorem updateFunnel_frame (d : Dev) (c : Nat) : F (updateFunnel d c) = F d := by
  unfold updateFunnel
  dsimp only
  split
  · rfl
  · split
    · exact (addRec_frame hF hR ..).trans (modCell_frame hF ..)
    · exact (modCell_frame hF ..).trans ((emitRec_frame hF hR ..).trans (flushRun_frame hF hR ..))
end TraceFrame

/-! ### A record with its wall tick -/

/-- Where nothing has been dropped nothing is made good. -/
theorem putLost_none {d : Dev} {g : Nat} (kept : (galOf d g).dropped = 0) : putLost d g = d := if_pos (.inl kept)

/-- Words for which the buffer has room enter it. -/
theorem putWords_room {d : Dev} {g : Nat} {ws : List Nat} (kept : (galOf d g).dropped = 0) (room : 8 * ws.length ≤ traceRoom d g) :
    putWords d g ws = modGal d g fun y => { y with trace := y.trace ++ ws.map (BitVec.ofNat 64 ·) } := by
  simp [putWords, putLost_none kept, kept, room]

/-- A SYNC record is written in every mode of the funnel. -/
theorem modeWrites_sync (mode : Nat) : modeWrites mode 7 = true := by
  unfold modeWrites
  split
  · rfl
  · split <;> rfl

/-- A SYNC record of cell `c` at edge `e`, for the reason `why` (R544). -/
def syncWord (c why e : Nat) : W64 := BitVec.ofNat 64 (traceW0 c 7 (why * 2 ^ 54 + e % 2 ^ 48))

theorem syncWord_head {c why e : Nat} : (syncWord c why e).toNat / 2 ^ 57 = 7 * 8 + c % 8 := by
  unfold syncWord traceW0
  rw [BitVec.toNat_ofNat]
  omega

/-- A SYNC record of a traced cell enters the buffer of its gallery, when nothing has been dropped there and there is room. -/
theorem addTimed_sync {d : Dev} {c why e : Nat} (on : (cellOf d c).traceOn = true) (idle : (cellOf d c).trun = none)
    (kept : (galOf d (galleryOfCell c)).dropped = 0) (known : (galOf d (galleryOfCell c)).resync = []) (room : 16 ≤ traceRoom d (galleryOfCell c)) :
    addTimed d c 7 why e = modCell (modGal d (galleryOfCell c) fun y => { y with trace := y.trace ++ [syncWord c why e, BitVec.ofNat 64 d.wt] }) c
      fun x => { x with tref := e } := by
  have same : resyncCell d c e = d := by simp [resyncCell, known]
  simp only [addTimed, addRec, idle, Option.isSome_none, Bool.false_eq_true, if_false, emitRec, on, modeWrites_sync, Bool.not_true, Bool.or_false,
    putLost_none kept, same, Bool.false_and, Option.isSome_some, Bool.or_true, if_true, Nat.add_zero]
  rw [putWords_room (ws := [traceW0 c 7 (why * 2 ^ 54 + e % 2 ^ 48), d.wt]) kept room]
  rfl

/-- A periodic SYNC that is due, where nothing has been dropped and there is room (R544). -/
theorem syncPeriodic_due {d : Dev} {c : Nat} (on : (cellOf d c).traceOn = true) (idle : (cellOf d c).trun = none)
    (due : (cellOf d c).tsync + 1048576 ≤ ticks d) (kept : (galOf d (galleryOfCell c)).dropped = 0)
    (known : (galOf d (galleryOfCell c)).resync = []) (room : 16 ≤ traceRoom d (galleryOfCell c)) :
    syncPeriodic d c = modCell (modGal (modCell d c fun x => { x with tsync := ticks d }) (galleryOfCell c) fun y =>
      { y with trace := y.trace ++ [syncWord c 4 (cellEdge d c), BitVec.ofNat 64 d.wt] }) c fun x => { x with tref := cellEdge d c } := by
  simp only [syncPeriodic, on, due, decide_true, Bool.and_true, if_true]
  exact addTimed_sync (by simp [on]) (by simp [idle]) kept known room

theorem exec_traceSyncPeriodic (c : Nat) (s : State) :
    exec (.traceSyncPeriodic c) s = happen (.traceSyncPeriodic c) clocked (fun d => .ok (syncPeriodic d c)) s := rfl

/-! ### Streams -/

theorem exec_traceStreamEnable (g : Nat) (v : W64) (s : State) :
    exec (.traceStreamEnable g v) s = driverWrite (.traceStreamEnable g v) (trcReg g 0) v s := rfl
theorem exec_traceStream (g : Nat) (s : State) : exec (.traceStream g) s = happen (.traceStream g) clocked (fun d => .ok (traceStream d g)) s := rfl

theorem trcReg_plain {g : Nat} (hg : g < 48) : (regAt (trcReg g 0)).map (·.st) = some 0 := by
  have all : ∀ g, g < 48 → (regAt (trcReg g 0)).map (·.st) = some 0 := by decide +kernel
  exact all g hg

/-- A write of TRC_BASE. -/
theorem writeOwn_trcBase {g : Nat} (hg : g < 48) (d : Dev) (v : W64) : writeOwn d .link (trcReg g 0) v = some (writeTrcBase d g v) := by
  have ne : ∀ o, o < 0x300_0000 ∨ 0x300_0600 ≤ o → trcReg g 0 ≠ o := fun o h => by unfold trcReg; omega
  have base : 0x300_0000 ≤ trcReg g 0 ∧ trcReg g 0 < 0x300_0600 ∧ trcReg g 0 % 32 = 0 := by unfold trcReg; omega
  have ring : ∀ b, ¬(0x20_0000 ≤ trcReg g 0 ∧ trcReg g 0 < 0x20_0100 ∧ b) := fun b h => by have := h.2.1; unfold trcReg at this; omega
  have at_ : (trcReg g 0 - 0x300_0000) / 32 = g := by unfold trcReg; omega
  unfold writeOwn
  simp only [ne 0x10_0030 (by decide), ne 0x10_1010 (by decide), ne 0x20_1008 (by decide), ne 0x40_0008 (by decide), ne 0x100_0028 (by decide),
    ne 0x307_0008 (by decide), ne 0x30B_0008 (by decide), ne 0x30B_0010 (by decide), ne 0xC0_0018 (by decide), ne 0xC0_2000 (by decide), or_self,
    ring, base, if_false, if_true, at_, true_and]

theorem cellOf_modGal (d : Dev) (g : Nat) (f : Gallery → Gallery) (c : Nat) : cellOf (modGal d g f) c = cellOf d c := rfl
theorem galOf_modCell (d : Dev) (c : Nat) (f : Cell → Cell) (g : Nat) : galOf (modCell d c f) g = galOf d g := rfl
theorem galOf_putRg (d : Dev) (o : Nat) (v : W64) (g : Nat) : galOf (putRg d o v) g = galOf d g := rfl

/-- Neither a slot taken nor bytes written change a gallery. -/
theorem galOf_engWrite_takeSlot (d : Dev) (p a : Nat) (bs : List Byte) (g : Nat) : galOf (engWrite (takeSlot d p) a bs) g = galOf d g := by
  rw [engWrite_frame (F := (galOf · g)) fun _ _ _ _ => rfl, takeSlot_frame (F := (galOf · g)) fun _ _ => rfl]

/-- One piece of a gallery's buffer goes into its region in HBM (R548). -/
theorem traceStream_hbm {d : Dev} {g o : Nat} (hg : g < 48) (up : portUp d (galleryPort g) = true) (on : (rg d (trcReg g 0)).getLsbD 63 = true)
    (goes : (galOf d g).tstop = false) (kept : (galOf d g).dropped = 0) :
    let wp := (rg d (trcReg g 8)).toNat
    let a := fld (rg d (trcReg g 0)).toNat 47 16 * 0x1_0000 + wp % trcSize d g
    let n := min (min (8 * (galOf d g).trace.length) (64 - a % 64)) (trcSpace d g) / 8
    place d a = .hbm o → trcSlot d (hbmPort d o) = true → n ≠ 0 →
    traceStream d g = modGal (putRg (engWrite (takeSlot d (hbmPort d o)) a (wordBytes ((galOf d g).trace.take n))) (trcReg g 8)
      (w64 ((wp + 8 * n) % 2 ^ 64))) g fun y => { y with trace := y.trace.drop n } := by
  intro wp a n at_ slot some_
  have place' : place d (fld (rg d (trcReg g 0)).toNat 47 16 * 0x1_0000 + (rg d (trcReg g 8)).toNat % trcSize d g) = .hbm o := at_
  simp only [traceStream, hg, up, bitAt_toNat, on, goes, decide_true, Bool.not_true, Bool.or_self, Bool.false_eq_true, if_false, place', slot, Bool.or_false]
  rw [if_neg (by rw [decide_eq_true_eq]; exact some_), putLost_none]
  rw [galOf_modGal, if_pos rfl, galOf_putRg, galOf_engWrite_takeSlot]
  exact kept

theorem traceStream_raised (d : Dev) (p a g : Nat) (bs : List Byte) (v : W64) (f : Gallery → Gallery) :
    (modGal (putRg (engWrite (takeSlot d p) a bs) (trcReg g 8) v) g f).raised = d.raised := by
  rw [modGal_raised, putRg_raised, engWrite_frame (F := (·.raised)) fun _ _ _ _ => rfl, takeSlot_frame (F := (·.raised)) fun _ _ => rfl]

/-! ### The statement -/

/-- Settles O52: a SYNC record is written in every mode; TRC_BASE has a rule of its own; a piece in HBM is written where it stands. -/
theorem traceEntersAndStreams : Obligations.TraceEntersAndStreams := by
  unfold Obligations.TraceEntersAndStreams
  intro s
  refine ⟨fun c runs calm hc on idle => ⟨fun early => ?_, fun due kept known room => ?_⟩, fun g v hg w => ?_, ?_⟩
  · have eff : syncPeriodic s.dev c = s.dev := by simp [syncPeriodic, early]
    exact (exec_traceSyncPeriodic c s).trans (happen_ok hc runs (congrArg _ eff) calm)
  · have eff := syncPeriodic_due on idle due kept known room
    have raised : (syncPeriodic s.dev c).raised = [] := by rw [eff]; exact calm
    refine ⟨_, syncWord c 4 (cellEdge s.dev c), (exec_traceSyncPeriodic c s).trans (happen_ok hc runs rfl raised), ?_, syncWord_head, ?_, ?_, ?_⟩
    · simp [eff, cellOf_modGal]
    · simp [eff, galOf_modCell]
    · simp [eff]
    · simp [eff]
  · have lt : g < 48 := by simpa [okGallery] using hg
    have own := writeOwn_trcBase lt s.dev v
    simp only [writeTrcBase, bitAt_toNat] at own
    refine (exec_traceStreamEnable g v s).trans (driverWrite_own hg w (trcReg_plain lt) (.inr (by unfold trcReg; omega)) own ?_)
    split <;> rfl
  · intro g o runs calm hg up on goes kept wp a n at_ slot some_
    exact (exec_traceStream g s).trans (happen_ok hg runs (congrArg _ (traceStream_hbm (by simpa [okGallery] using hg) up on goes kept at_ slot some_))
      ((traceStream_raised ..).trans calm))

end Sys2Proof.Machine
end

section
/-! SUPPORT. Accession (15_accession_and_ledger.md, R488, R491, R495, R499): the writes of the crate, the end of the condition check, and the apply. -/

namespace Sys2Proof.Machine
open Sys2Proof.Safety

/-! ### The crate -/

theorem exec_crateWrite {off : Nat} (v : W64) (s : State) (staged_ : stMask off ≠ 0) :
    exec (.crateWrite off v) s = driverWrite (.crateWrite off v) off v s := if_neg staged_
theorem exec_crateDiscard (v : W64) (s : State) : exec (.crateDiscard v) s = driverWrite (.crateDiscard v) 0x10_0030 v s := rfl
theorem exec_conditionCheck (s : State) : exec .conditionCheck s =
    happen .conditionCheck running (fun d => let r := checkEnd d; .ok (accedeEnd r.2 d.acc.task r.1)) s := rfl
theorem exec_accessionApply (s : State) : exec .accessionApply s =
    happen .accessionApply running (fun d => let r := accApply d; .ok (accedeEnd (fabDrain r.2) d.acc.task r.1)) s := rfl

/-- A write of a register with staged bits, outside the frames of the unit ports, is a write of the crate. -/
theorem writeReg_staged {d : Dev} {off : Nat} {v : W64} (free : lockw d = false) (staged_ : stMask off ≠ 0)
    (out : off < 0x200_0000 ∨ 0x240_0000 ≤ off) : writeReg d .link off v = crateWrite d off v := by
  have frame : ¬(0x200_0000 ≤ off ∧ off < 0x240_0000) := by omega
  cases hr : regAt off with
  | none => simp [stMask, hr] at staged_
  | some r =>
    have bits : r.st ≠ 0 := fun zero => staged_ (by simp [stMask, hr, zero])
    simp [writeReg, free, hr, bits, frame]

/-- Outside a pending accession, with room in the crate, a write of staged bits stands in it (R488). -/
theorem crateWrite_room {d : Dev} {off : Nat} {v : W64} (staged_ : stMask off ≠ 0) (idle : accPending d = false) (room : d.acc.crate.length < 8192) :
    crateWrite d off v = .ok { d with acc := { d.acc with crate := tabPut (fun _ => none) d.acc.crate off (some (v &&& stMask off)) } } := by
  simp only [crateWrite, staged_, idle, Nat.not_le.2 room, Bool.false_eq_true, if_false, and_false]

/-- A discard empties the crate (R491). -/
theorem writeOwn_accCtl {d : Dev} (v : W64) (idle : accPending d = false) : writeOwn d .link 0x10_0030 v =
    some (if v.getLsbD 0 then putRgf { d with acc := { d.acc with crate := [], img := none } } 0x10_0000 2 2 0 else d) := by
  simp [writeOwn, crateDiscard, idle, crateEmpty]

/-! ### The end of the check -/

/-- Registers below the command rings are none that a record, an event or a report changes. -/
theorem linkBlind_rg_low {o : Nat} (low : o < 0x20_0000) : LinkBlind (rg · o) where
  memory _ _ _ _ := rfl
  host _ _ := rfl
  messages _ _ _ := rfl
  events d _ _ _ := rg_putRgf_other d _ _ _ (by omega)
  reports d _ _ _ := rg_putRgf_other d _ _ _ (by omega)
  busy d r _ := rg_putRgf_other d _ _ _ (by unfold cqReg; omega)

/-- The report of an accession's end, and the events and answers that follow it, leave what looks neither at the registers of the accession nor at them. -/
theorem accEnd_frame {β : Type} {F : Dev → β} (blind : LinkBlind F) (hR : ∀ d o v, o < 0x10_0010 → F (putRg d o v) = F d)
    (hA : ∀ d t f i, F { d with acc := { d.acc with task := t, fail := f, img := i } } = F d) (d : Dev) (reason : Nat) (off : Option Nat) :
    F (accEnd d reason off) = F d := by
  unfold accEnd accReport putRgf
  exact (postEvent_frame blind ..).trans ((hA ..).trans ((hR _ _ _ (by decide)).trans ((hR _ _ _ (by decide)).trans (hR _ _ _ (by decide)))))

theorem accedeEnd_frame {β : Type} {F : Dev → β} (blind : LinkBlind F) (d : Dev) (task r : Option Nat) : F (accedeEnd d task r) = F d := by
  have share (status reason : Nat) : F (endShareOf d task status reason) = F d := by
    unfold endShareOf
    split
    · exact endShare_frame blind ..
    · rfl
  unfold accedeEnd
  split
  · rfl
  · exact share ..
  · exact share ..

theorem fabDrain_frame {β : Type} {F : Dev → β} (blind : LinkBlind F) (d : Dev) : F (fabDrain d) = F d :=
  (foldl_frame F _ (fun d _ => sendRouted_frame blind d ..) ..).trans (blind.messages d d.tx _)

/-- An accession that ends has its reason in ACC_STAT, and STATE 0 there (R495, R499). -/
theorem accStat_accEnd (d : Dev) {reason : Nat} (off : Option Nat) (lt : reason < 256) :
    accState (accEnd d reason off) = 0 ∧ rgf (accEnd d reason off) 0x10_0000 63 56 = reason := by
  have reg : rg (accEnd d reason off) 0x10_0000 = rg (putRgf (accReport d reason off) 0x10_0000 1 0 0) 0x10_0000 :=
    postEvent_frame (linkBlind_rg_low (o := 0x10_0000) (by decide)) ..
  have state : rgf (putRgf (accReport d reason off) 0x10_0000 1 0 0) 0x10_0000 1 0 = 0 := rgf_putRgf_same _ _ _ (by decide)
  have told : rgf (putRgf (accReport d reason off) 0x10_0000 1 0 0) 0x10_0000 63 56 = reason := by
    have first : rg (accReport d reason off) 0x10_0000 = rg (putRgf d 0x10_0000 63 56 reason) 0x10_0000 := (rg_putRg ..).trans (if_neg (by decide))
    rw [rgf_putRgf_field _ _ _ (by decide) (by decide), rgf, first, ← rgf, rgf_putRgf_same _ _ _ (by decide)]
    exact Nat.mod_eq_of_lt lt
  rw [accState, rgf, rgf, reg]
  exact ⟨state, told⟩

/-- So it stays when that register does. -/
theorem accStat_congr {d e : Dev} (same : rg e 0x10_0000 = rg d 0x10_0000) {reason : Nat}
    (ended : accState d = 0 ∧ rgf d 0x10_0000 63 56 = reason) : accState e = 0 ∧ rgf e 0x10_0000 63 56 = reason := by
  rwa [accState, rgf, rgf, same]

/-- A check that found nothing, before the instant, outside MODE 2 (R495). -/
theorem checkEnd_good {d : Dev} (checks : accState d = 1) (early : d.acc.mode = 1 → d.wt < (rg d 0x10_0010).toNat) (good : d.acc.fail = none)
    (mode : d.acc.mode ≠ 2) : checkEnd d = (none, putRgf d 0x10_0000 1 0 2) := by
  have late : (d.acc.mode == 1 && decide ((rg d 0x10_0010).toNat ≤ d.wt)) = false := by
    simpa using fun h => early h
  simp only [checkEnd, checks, ne_eq, not_true_eq_false, if_false, late, good, mode]

/-- A check that found a failing condition, outside MODE 1. -/
theorem checkEnd_bad {d : Dev} {k : Nat} {o : Option Nat} (checks : accState d = 1) (mode : d.acc.mode ≠ 1) (bad : d.acc.fail = some (k, o)) :
    checkEnd d = (some k, accEnd d k o) := by
  simp [checkEnd, checks, mode, bad]

/-! ### The apply -/

/-- What the apply of a crate leaves where memory holds no ECC error: the faults that wait, and the wall tick. -/
structure Applied (d e : Dev) : Prop where
  raised : e.raised = d.raised
  wt : e.wt = d.wt
  sound : e.upset = []

theorem Applied.refl {d : Dev} (sound : d.upset = []) : Applied d d := ⟨rfl, rfl, sound⟩

theorem Applied.trans {d e f : Dev} (first : Applied d e) (second : Applied e f) : Applied d f :=
  ⟨second.raised.trans first.raised, second.wt.trans first.wt, second.sound⟩

/-- What each step of a fold leaves, the fold leaves. -/
theorem Applied.foldl {α : Type} {f : Dev → α → Dev} (each : ∀ {d : Dev} (a : α), d.upset = [] → Applied d (f d a)) :
    ∀ (l : List α) {d : Dev}, d.upset = [] → Applied d (l.foldl f d)
  | [], _, sound => .refl sound
  | a :: t, _, sound => (each a sound).trans (Applied.foldl each t (each a sound).sound)

section Sound
variable {d : Dev} (sound : d.upset = [])
include sound

theorem applied_flushRun (c : Nat) : Applied d (flushRun d c) :=
  ⟨flushRun_frame (F := (·.raised)) (fun _ _ _ _ => rfl) (fun _ _ _ => rfl) .., flushRun_frame (F := (·.wt)) (fun _ _ _ _ => rfl) (fun _ _ _ => rfl) ..,
    (flushRun_frame (F := (·.upset)) (fun _ _ _ _ => rfl) (fun _ _ _ => rfl) ..).trans sound⟩

theorem applied_updateFunnel (c : Nat) : Applied d (updateFunnel d c) :=
  ⟨updateFunnel_frame (F := (·.raised)) (fun _ _ _ _ => rfl) (fun _ _ _ => rfl) .., updateFunnel_frame (F := (·.wt)) (fun _ _ _ _ => rfl) (fun _ _ _ => rfl) ..,
    (updateFunnel_frame (F := (·.upset)) (fun _ _ _ _ => rfl) (fun _ _ _ => rfl) ..).trans sound⟩

/-- To wipe memory without ECC errors leaves none. -/
theorem applied_wipeMem (w : Nat → Bool) : Applied d (wipeMem d w) := ⟨rfl, rfl, by simp [wipeMem, tabClear, sound]⟩

theorem applied_cellOut (c : Nat) : Applied d (cellOut d c) := by
  have run := applied_flushRun sound c
  have out (f : Cell → Cell) : Applied (flushRun d c) (modCell (flushRun d c) c f) := ⟨rfl, rfl, run.sound⟩
  unfold cellOut
  exact run.trans ((out _).trans (applied_wipeMem (out _).sound _))

theorem applied_thawCell (c : Nat) : Applied d (thawCell d c) := by
  unfold thawCell
  split
  · exact .refl sound
  · exact ⟨rfl, rfl, sound⟩

theorem applied_applyMap (m : BitVec 1024) : Applied d (applyMap d m) := by
  unfold applyMap
  extract_lets old moved gs wiped emptied
  have cells : Applied d moved := .foldl (fun c sound => by
    dsimp only
    split
    · exact applied_cellOut sound c
    · split
      · exact applied_thawCell sound c
      · exact .refl sound) _ sound
  have stores : Applied d wiped := by
    unfold wiped
    split
    · exact cells
    · exact cells.trans (applied_wipeMem cells.sound _)
  have queue {d : Dev} (p : Nat) (sound : d.upset = []) : Applied d (modPort d p fun x => { x with q := [], wiping := false }) := ⟨rfl, rfl, sound⟩
  have queues : Applied d emptied := stores.trans (.foldl queue _ stores.sound)
  exact ⟨queues.raised, queues.wt, queues.sound⟩

theorem applied_applyEntry (e : Nat × Option W64) : Applied d (applyEntry d e) := by
  unfold applyEntry
  split
  · exact .refl sound
  · dsimp only
    split
    · exact ⟨rfl, rfl, sound⟩
    · exact ⟨rfl, rfl, sound⟩

theorem applied_xringSkip (r : Nat) : Applied d (xringSkip d r) := by
  have read : Applied d (engRead d (xringBase d r) 4).2 :=
    ⟨engRead_frame (F := (·.raised)) (fun _ _ _ => rfl) _ _ sound, engRead_frame (F := (·.wt)) (fun _ _ _ => rfl) _ _ sound,
      (engRead_frame (F := (·.upset)) (fun _ _ _ => rfl) _ _ sound).trans sound⟩
  have write (e : Dev) (a : Nat) (bs : List Byte) (sound : e.upset = []) : Applied e (engWrite e a bs) :=
    ⟨engWrite_frame (F := (·.raised)) (fun _ _ _ _ => rfl) .., engWrite_frame (F := (·.wt)) (fun _ _ _ _ => rfl) .., engWrite_upset_nil sound⟩
  have both := read.trans (write _ (xringBase d r + 32) (engRead d (xringBase d r) 4).1 read.sound)
  exact ⟨both.raised, both.wt, both.sound⟩

theorem applied_applyCrate : Applied d (applyCrate d) := by
  unfold applyCrate
  extract_lets crate m rings entered mapped imaged skipped
  have entries : Applied d entered := .foldl (fun e sound => applied_applyEntry sound e) _ sound
  have map : Applied d mapped := by
    unfold mapped
    split
    · exact entries
    · exact entries.trans (applied_applyMap entries.sound _)
  have image : Applied d imaged := by
    unfold imaged
    clear_value mapped
    split
    · exact ⟨map.raised, map.wt, map.sound⟩
    · exact map
  have skip : Applied d skipped := image.trans (.foldl (fun o sound => by
    have one := applied_xringSkip sound ((o - 0x100_0200) / 8)
    exact ⟨one.raised, one.wt, one.sound⟩) _ image.sound)
  exact skip.trans (.foldl (fun c sound => applied_updateFunnel sound c) _ skip.sound)

end Sound

/-- The device in which the crate has been applied. -/
def crateApplied (d : Dev) : Dev :=
  let e := crateEmpty (applyCrate d)
  let e := putRgf e 0x10_0038 31 0 (satAdd 32 (rgf e 0x10_0038 31 0) 1)
  putRg e 0x10_0018 (w64 e.wt)

theorem crateApplied_raised {d : Dev} (sound : d.upset = []) : (crateApplied d).raised = d.raised := (applied_applyCrate sound).raised

/-- No entry is left, and the wall tick is on record (R499). -/
theorem crateApplied_empty (d : Dev) : (crateApplied d).acc.crate = [] := rfl

theorem rg_crateApplied {d : Dev} (sound : d.upset = []) : rg (crateApplied d) 0x10_0018 = w64 d.wt := by
  have tick : (crateEmpty (applyCrate d)).wt = d.wt := (applied_applyCrate sound).wt
  exact (rg_putRg ..).trans ((if_pos rfl).trans (congrArg w64 tick))

/-- An accession whose instant has come, and which no state fails, is applied (R499). -/
theorem accApply_good {d : Dev} (waits : accState d = 2) (due : d.acc.mode = 1 → (rg d 0x10_0010).toNat ≤ d.wt)
    (good : pickFail d (stateFails d) = none) : accApply d = (some 0, accEnd (crateApplied d) 0 none) := by
  have now : ¬(accState d ≠ 2 ∨ (d.acc.mode = 1 ∧ d.wt < (rg d 0x10_0010).toNat)) := by
    rintro (other | ⟨mode, early⟩)
    · exact other waits
    · exact absurd (due mode) (Nat.not_le.2 early)
  simp only [accApply, now, if_false, good]
  rfl

/-! ### The statement -/

/-- A check that failed ends the accession with its reason, and leaves the crate and the cells (R495). -/
theorem conditionCheck_bad {s : State} {k : Nat} {o : Option Nat} (runs : running s.dev = true) (calm : s.dev.raised = [])
    (eff : checkEnd s.dev = (some k, accEnd s.dev k o)) (lt : k < 256) : ∃ t, exec .conditionCheck s = .next t ∧ accState t.dev = 0 ∧
    rgf t.dev 0x10_0000 63 56 = k ∧ t.dev.acc.crate = s.dev.acc.crate ∧ t.dev.cells = s.dev.cells := by
  have none_ : LinkBlind (fun d => (d.raised, d.acc.crate, d.cells)) := .of_frame fun _ _ _ _ _ _ _ _ => rfl
  have kept := (accedeEnd_frame none_ (accEnd s.dev k o) s.dev.acc.task (some k)).trans
    (accEnd_frame none_ (fun _ _ _ _ => rfl) (fun _ _ _ _ => rfl) s.dev k o)
  have reg := accedeEnd_frame (linkBlind_rg_low (o := 0x10_0000) (by decide)) (accEnd s.dev k o) s.dev.acc.task (some k)
  simp only [Prod.mk.injEq] at kept
  obtain ⟨raised, crate, cells⟩ := kept
  obtain ⟨state, told⟩ := accStat_congr reg (accStat_accEnd s.dev o lt)
  exact ⟨_, (exec_conditionCheck s).trans (happen_ok rfl runs (by simp only [eff]) (raised.trans calm)), state, told, crate, cells⟩

/-- The apply ends the accession (R499). -/
theorem accessionApply_good {s : State} (runs : running s.dev = true) (calm : s.dev.raised = []) (sound : s.dev.upset = [])
    (eff : accApply s.dev = (some 0, accEnd (crateApplied s.dev) 0 none)) : ∃ t, exec .accessionApply s = .next t ∧ accState t.dev = 0 ∧
    rgf t.dev 0x10_0000 63 56 = 0 ∧ t.dev.acc.crate = [] ∧ rg t.dev 0x10_0018 = w64 s.dev.wt := by
  have answered {β : Type} {F : Dev → β} (blind : LinkBlind F) (d : Dev) : F (accedeEnd (fabDrain d) s.dev.acc.task (some 0)) = F d :=
    (accedeEnd_frame blind ..).trans (fabDrain_frame blind d)
  have none_ : LinkBlind (fun d => (d.raised, d.acc.crate)) := .of_frame fun _ _ _ _ _ _ _ _ => rfl
  have kept := (answered none_ _).trans (accEnd_frame none_ (fun _ _ _ _ => rfl) (fun _ _ _ _ => rfl) (crateApplied s.dev) 0 none)
  have at_ : LinkBlind (rg · 0x10_0018) := linkBlind_rg_low (by decide)
  have tick := (answered at_ _).trans (accEnd_frame at_ (fun d o v lt => (rg_putRg ..).trans (if_neg (by omega))) (fun _ _ _ _ => rfl) (crateApplied s.dev) 0 none)
  simp only [Prod.mk.injEq] at kept
  obtain ⟨raised, crate⟩ := kept
  obtain ⟨state, told⟩ := accStat_congr (answered (linkBlind_rg_low (o := 0x10_0000) (by decide)) _) (accStat_accEnd (crateApplied s.dev) (reason := 0) none (by decide))
  exact ⟨_, (exec_accessionApply s).trans (happen_ok rfl runs (by simp only [eff]) (raised.trans ((crateApplied_raised sound).trans calm))),
    state, told, crate.trans (crateApplied_empty _), tick.trans (rg_crateApplied sound)⟩

/-- Settles O49: after the report of an accession's end come an event and an answer, which touch neither ACC_STAT nor the crate; the apply leaves
the wall tick, which it puts on record. -/
theorem crateAndAccession : Obligations.CrateAndAccession := by
  unfold Obligations.CrateAndAccession
  intro s
  refine ⟨fun off v w bits out idle room => ?_, fun v w idle => ?_, fun ⟨runs, calm⟩ checks early good mode => ?_,
    fun k o ⟨runs, calm⟩ checks mode bad lt => conditionCheck_bad runs calm (checkEnd_bad checks mode bad) lt,
    fun ⟨runs, calm⟩ waits due good sound => accessionApply_good runs calm sound (accApply_good waits due good)⟩
  · have ⟨_, calm, _, free, ok, _, _⟩ := w
    exact (exec_crateWrite v s bits).trans (driverWrite_ok ok w ((writeReg_staged free bits out).trans (crateWrite_room bits idle room)) calm)
  · refine (exec_crateDiscard v s).trans (driverWrite_own rfl w (by decide) (by decide) (writeOwn_accCtl v idle) ?_)
    split <;> rfl
  · have eff : checkEnd s.dev = (none, putRgf s.dev 0x10_0000 1 0 2) := checkEnd_good checks early good mode
    exact (exec_conditionCheck s).trans (happen_ok rfl runs (by simp only [eff, accedeEnd]) calm)

end Sys2Proof.Machine
end

section
/-! SUPPORT. Ledger updates (15_accession_and_ledger.md, R508–R510, R512): the write that starts one, and its end. -/

namespace Sys2Proof.Machine
open Sys2Proof.Safety

/-- With room among the held events a posted event only joins them. -/
theorem postEvent_frame_room {β : Type} {F : Dev → β} (hF : ∀ d h, F { d with host := h } = F d) {d : Dev} (room : d.host.held.length < 256)
    (type : Nat) (a b : W64) : F (postEvent d type a b) = F d := by
  have free : ¬256 ≤ d.host.held.length := by omega
  unfold postEvent holdEvent
  simp only [if_neg free]
  exact hF d _

/-- A one-bit field is its bit. -/
theorem bitAt_eq_rgf (d : Dev) (o i : Nat) : bitAt (rg d o).toNat i = decide (rgf d o i i = 1) := by
  have one : i + 1 - i = 1 := by omega
  rw [bitAt, rgf, fld, one, Nat.pow_one]
  rfl

/-! ### The start -/

theorem exec_ledgerUpdate (v : W64) (s : State) : exec (.ledgerUpdate v) s = driverWrite (.ledgerUpdate v) 0x10_1010 v s := rfl

theorem writeOwn_ldgUpd (d : Dev) (v : W64) : writeOwn d .link 0x10_1010 v = some (ledgerUpdate d v) := by simp [writeOwn]

/-- A write without GO is a plain write of the register. -/
theorem ledgerUpdate_idle {d : Dev} {v : W64} (still : v.getLsbD 0 = false) : ledgerUpdate d v = putRg d 0x10_1010 (v &&& 0xFFFF_FFFF_FFC0#64) := by
  simp only [ledgerUpdate, bitAt_toNat, still, Bool.not_false, if_true]

theorem rgf_ldgStat (d : Dev) (v : W64) (hi lo : Nat) : rgf (putRg d 0x10_1010 v) 0x10_1000 hi lo = rgf d 0x10_1000 hi lo := by
  rw [rgf, rg_putRg, if_neg (by decide), ← rgf]

theorem accPending_ldgUpd (d : Dev) (v : W64) : accPending (putRg d 0x10_1010 v) = accPending d := by
  rw [accPending, accState, rgf, rg_putRg, if_neg (by decide), ← rgf]
  rfl

/-- While an update runs, or an accession is pending, no update starts (R509). -/
theorem ledgerUpdate_busy {d : Dev} {v : W64} (go : v.getLsbD 0 = true) (busy : rgf d 0x10_1000 4 4 = 1 ∨ accPending d = true) :
    ledgerUpdate d v = putRgf (putRg d 0x10_1010 (v &&& 0xFFFF_FFFF_FFC0#64)) 0x10_1000 15 8 0x40 := by
  simp only [ledgerUpdate, bitAt_toNat v, go, Bool.not_true, Bool.false_eq_true, if_false]
  rw [if_pos]
  rw [bitAt_eq_rgf, rgf_ldgStat, accPending_ldgUpd]
  simpa using busy

/-- The target of an update depends on LDG_STAT alone, and not on its bit 4. -/
theorem updTarget_congr {d e : Dev} (sel : rgf e 0x10_1000 1 0 = rgf d 0x10_1000 1 0) (valid : rgf e 0x10_1000 2 2 = rgf d 0x10_1000 2 2) :
    updTarget e = updTarget d := by
  simp only [updTarget, bitAt_eq_rgf, sel, valid]

/-- The device in which the update `u` has started. -/
def updating_ (d : Dev) (u : LdgUpd) : Dev :=
  let e := putRgf d 0x10_1000 4 4 1
  { e with sec := { e.sec with upd := some u } }

/-- The image and the link presets of an update are read without another effect, where memory holds no ECC error. -/
theorem imageRead_eq {d : Dev} (sound : d.upset = []) (reads : Bool) (a len : Nat) :
    ∃ k l, (linkPresets (if reads then engRead d a len else ([], d)).2).2 = { d with fresh := k, hostLines := l } := by
  have image : ∃ k l, (if reads then engRead d a len else ([], d)).2 = { d with fresh := k, hostLines := l } := by
    cases reads
    · exact ⟨d.fresh, d.hostLines, rfl⟩
    · exact engRead_eq a len sound
  obtain ⟨k, l, read⟩ := image
  obtain ⟨k', drawn⟩ := drawBytes_eq 64 (if reads then engRead d a len else ([], d)).2
  exact ⟨k', l, drawn.trans (by rw [read])⟩

/-- What an update has found of its image. -/
def updFound (d : Dev) (image presets : List Byte) : LdgUpd :=
  match updCheck d image presets with
  | .error k => { target := updTarget d, bytes := [], seq := 0, fail := some k }
  | .ok (bs, seq) => { target := updTarget d, bytes := bs, seq := seq, fail := none }

theorem updFound_target (d : Dev) (image presets : List Byte) : (updFound d image presets).target = updTarget d := by
  unfold updFound
  split <;> rfl

/-- The start of an update in the device `e`, with its image and the device that the reading of it leaves. -/
def updStart (r : List Byte × Dev) : Dev :=
  let p := linkPresets r.2
  updating_ p.2 (updFound (putRgf p.2 0x10_1000 4 4 1) r.1 p.1)

theorem rgf_updating (d : Dev) (u : LdgUpd) : rgf (updating_ d u) 0x10_1000 4 4 = 1 := by
  have word : rgf (updating_ d u) 0x10_1000 4 4 = rgf (putRgf d 0x10_1000 4 4 1) 0x10_1000 4 4 := rfl
  exact word.trans (rgf_putRgf_same d 0x10_1000 1 (by decide))

/-- A started update changes neither memory nor flash, and raises nothing. -/
theorem updating_frame (d : Dev) (u : LdgUpd) : (updating_ d u).sec.upd = some u ∧ (updating_ d u).mem = d.mem ∧
    (updating_ d u).sec.flash = d.sec.flash ∧ (updating_ d u).raised = d.raised := ⟨rfl, rfl, rfl, rfl⟩

/-- An update that starts reads its image, if it stands in memory that may hold one. -/
theorem ledgerUpdate_starts {d : Dev} {v : W64} (go : v.getLsbD 0 = true) (idle : rgf d 0x10_1000 4 4 = 0) (free : accPending d = false) :
    ∃ (reads : Bool) (a len : Nat), ledgerUpdate d v = updStart (if reads then engRead (putRg d 0x10_1010 (v &&& 0xFFFF_FFFF_FFC0#64)) a len
      else ([], putRg d 0x10_1010 (v &&& 0xFFFF_FFFF_FFC0#64))) := by
  have new : ¬(bitAt (rg (putRg d 0x10_1010 (v &&& 0xFFFF_FFFF_FFC0#64)) 0x10_1000).toNat 4 ||
      accPending (putRg d 0x10_1010 (v &&& 0xFFFF_FFFF_FFC0#64))) = true := by
    rw [bitAt_eq_rgf, rgf_ldgStat, accPending_ldgUpd, idle, free]
    decide
  simp only [ledgerUpdate, bitAt_toNat v, go, Bool.not_true, Bool.false_eq_true, if_false]
  rw [if_neg new]
  exact ⟨_, _, _, rfl⟩

/-- It is then under way (R509). -/
theorem ledgerUpdate_go {d : Dev} {v : W64} (go : v.getLsbD 0 = true) (idle : rgf d 0x10_1000 4 4 = 0) (free : accPending d = false)
    (sound : d.upset = []) : ∃ k l u, u.target = updTarget d ∧
    ledgerUpdate d v = updating_ { putRg d 0x10_1010 (v &&& 0xFFFF_FFFF_FFC0#64) with fresh := k, hostLines := l } u := by
  obtain ⟨reads, a, len, starts⟩ := ledgerUpdate_starts go idle free
  have stat (hi lo : Nat) : rgf (putRg d 0x10_1010 (v &&& 0xFFFF_FFFF_FFC0#64)) 0x10_1000 hi lo = rgf d 0x10_1000 hi lo := rgf_ldgStat ..
  have sound' : (putRg d 0x10_1010 (v &&& 0xFFFF_FFFF_FFC0#64)).upset = [] := sound
  generalize putRg d 0x10_1010 (v &&& 0xFFFF_FFFF_FFC0#64) = e at starts stat sound'
  obtain ⟨k, l, read⟩ := imageRead_eq sound' reads a len
  have target : updTarget (putRgf { e with fresh := k, hostLines := l } 0x10_1000 4 4 1) = updTarget d := updTarget_congr
    ((rgf_putRgf_field _ _ _ (by decide) (by decide)).trans (stat 1 0)) ((rgf_putRgf_field _ _ _ (by decide) (by decide)).trans (stat 2 2))
  rw [starts, updStart, read]
  exact ⟨k, l, _, (updFound_target ..).trans target, rfl⟩

theorem exec_ledgerUpdateDone (readback : Bool) (s : State) : exec (.ledgerUpdateDone readback) s =
    happen (.ledgerUpdateDone readback) (fun d => live d && !updateWaits d) (fun d => .ok (ledgerDone d readback)) s := rfl

/-! ### The end -/

/-- The device in which no update is under way any more. -/
def updGone (d : Dev) : Dev := putRgf { d with sec := { d.sec with upd := none } } 0x10_1000 4 4 0

/-- The RESULT of an update, and its event (R510). -/
def updResult (d : Dev) (r : Nat) : Dev := postEvent (putRgf d 0x10_1000 15 8 r) 9 (w64 (r % 256 + 2 ^ 8)) (w64 d.wt)

/-- What a RESULT leaves of LDG_STAT. -/
theorem ldgStat_updResult (d : Dev) {r : Nat} (lt : r < 256) : rgf (updResult d r) 0x10_1000 15 8 = r ∧
    ∀ hi lo, hi < 8 → rgf (updResult d r) 0x10_1000 hi lo = rgf d 0x10_1000 hi lo := by
  have reg : rg (updResult d r) 0x10_1000 = rg (putRgf d 0x10_1000 15 8 r) 0x10_1000 := postEvent_frame (linkBlind_rg_low (o := 0x10_1000) (by decide)) ..
  refine ⟨?_, fun hi lo low => ?_⟩
  · rw [rgf, reg, ← rgf, rgf_putRgf_same _ _ _ (by decide)]
    exact Nat.mod_eq_of_lt lt
  · rw [rgf, reg, ← rgf, rgf_putRgf_field _ _ _ (by decide) (.inl low)]

/-- An update that was refused ends with its RESULT (R510). -/
theorem ledgerDone_refused {d : Dev} {u : LdgUpd} {k : Nat} (runs : d.sec.upd = some u) (bad : u.fail = some k) (ne : k ≠ 0) (rb : Bool) :
    ledgerDone d rb = updResult (ldgMarks (updGone d)) k := by
  simp only [ledgerDone, runs, bad, Option.isNone_some, Bool.false_eq_true, if_false, false_and, ne]
  rfl

/-- One that read back as programmed has written its target copy, which is selected (R512). -/
theorem ledgerDone_good {d : Dev} {u : LdgUpd} (runs : d.sec.upd = some u) (good : u.fail = none) :
    ledgerDone d true = updResult (ldgUse (programCopy (updGone d) u.target u.bytes) u.target) 0 := by
  simp only [ledgerDone, runs, good, Option.isNone_none, if_true, Bool.not_true, Bool.false_eq_true, and_false, if_false]
  rfl

theorem rgf_updGone (d : Dev) : rgf (updGone d) 0x10_1000 4 4 = 0 := rgf_putRgf_same _ _ _ (by decide)

/-- Marking the copies leaves the other fields of LDG_STAT. -/
theorem rgf_ldgMarks (d : Dev) : rgf (ldgMarks d) 0x10_1000 4 4 = rgf d 0x10_1000 4 4 := rgf_putRgf_field _ _ _ (by decide) (by decide)

/-- The copy in use is in LDG_STAT, which keeps whether an update runs. -/
theorem rgf_ldgUse (d : Dev) (k : Nat) : rgf (ldgUse d k) 0x10_1000 1 0 = k % 4 ∧ rgf (ldgUse d k) 0x10_1000 4 4 = rgf d 0x10_1000 4 4 := by
  have reg : rg (ldgUse d k) 0x10_1000 = rg (putRgf (ldgMarks d) 0x10_1000 1 0 k) 0x10_1000 := (rg_putRg ..).trans (if_neg (by decide))
  rw [rgf, rgf, reg]
  exact ⟨rgf_putRgf_same _ _ _ (by decide), (rgf_putRgf_field _ _ _ (by decide) (by decide)).trans (rgf_ldgMarks d)⟩

/-- A RESULT and its event raise nothing and leave the security block. -/
theorem updResult_sec (d : Dev) (r : Nat) : (updResult d r).raised = d.raised ∧ (updResult d r).sec = d.sec := by
  have blind : LinkBlind (fun d => (d.raised, d.sec)) := .of_frame fun _ _ _ _ _ _ _ _ => rfl
  have kept := postEvent_frame blind (putRgf d 0x10_1000 15 8 r) 9 (w64 (r % 256 + 2 ^ 8)) (w64 d.wt)
  simp only [Prod.mk.injEq] at kept
  exact kept

/-- With room among the held events it leaves memory. -/
theorem updResult_mem {d : Dev} (room : EventRoom d) (r : Nat) : (updResult d r).mem = d.mem := by
  have fits : d.host.held.length < 256 := by omega
  exact postEvent_frame_room (F := (·.mem)) (fun _ _ => rfl) (d := putRgf d 0x10_1000 15 8 r) fits ..

/-- An update that was refused leaves the flash and memory. -/
theorem refused_frame (d : Dev) : (ldgMarks (updGone d)).raised = d.raised ∧
    (ldgMarks (updGone d)).sec = { d.sec with upd := none } ∧ (ldgMarks (updGone d)).mem = d.mem := ⟨rfl, rfl, rfl⟩

/-- One that was programmed leaves the flash with its copy. -/
theorem programmed_frame (d : Dev) (k : Nat) (bs : List Byte) : (ldgUse (programCopy d k bs) k).raised = d.raised ∧
    (ldgUse (programCopy d k bs) k).sec = (programCopy d k bs).sec := ⟨rfl, rfl⟩

/-- What is programmed looks at the flash alone. -/
theorem programCopy_updGone (d : Dev) (k : Nat) (bs : List Byte) : (programCopy (updGone d) k bs).sec.flash = (programCopy d k bs).sec.flash ∧
    (programCopy (updGone d) k bs).sec.upd = none := ⟨rfl, rfl⟩

/-! ### The statement -/

/-- Settles O50: the write has a rule of its own; at the end the marks, the RESULT and the event touch neither the flash nor the bits that say what ended. -/
theorem ledgerUpdates : Obligations.LedgerUpdates := by
  unfold Obligations.LedgerUpdates
  intro s
  refine ⟨fun v w sound => ?_, fun u rb lives calm runs waits => ?_⟩
  · have writes (e : Dev) (eff : ledgerUpdate s.dev v = e) (keeps : e.raised = s.dev.raised) : exec (.ledgerUpdate v) s = .next { s with dev := e } :=
      (exec_ledgerUpdate v s).trans (driverWrite_own rfl w (by decide) (by decide) ((writeOwn_ldgUpd s.dev v).trans (congrArg some eff)) keeps)
    refine ⟨fun still => writes _ (ledgerUpdate_idle still) rfl, fun go busy => writes _ (ledgerUpdate_busy go busy) rfl, fun go idle free => ?_⟩
    obtain ⟨k, l, u, target, starts⟩ := ledgerUpdate_go go idle free sound
    obtain ⟨under, mem, flash, raised⟩ := updating_frame { putRg s.dev 0x10_1010 (v &&& 0xFFFF_FFFF_FFC0#64) with fresh := k, hostLines := l } u
    exact ⟨_, u, writes _ starts raised, rgf_updating .., under, target, mem, flash⟩
  · have may : (live s.dev && !updateWaits s.dev) = true := by rw [lives, waits]; rfl
    refine ⟨fun k bad lt ne room => ?_, fun good rb' target => ?_⟩
    · obtain ⟨told, others⟩ := ldgStat_updResult (ldgMarks (updGone s.dev)) lt
      have ended := (others 4 4 (by decide)).trans ((rgf_ldgMarks _).trans (rgf_updGone s.dev))
      obtain ⟨raised, sec⟩ := updResult_sec (ldgMarks (updGone s.dev)) k
      have mem := updResult_mem (d := ldgMarks (updGone s.dev)) room k
      obtain ⟨raised', sec', mem'⟩ := refused_frame s.dev
      rw [← ledgerDone_refused runs bad ne rb] at told ended raised sec mem
      rw [sec'] at sec
      exact ⟨_, (exec_ledgerUpdateDone rb s).trans (happen_ok rfl may rfl (raised.trans (raised'.trans calm))), by rw [sec], ended, told,
        by rw [sec], mem.trans mem'⟩
    · subst rb'
      obtain ⟨told, others⟩ := ldgStat_updResult (ldgUse (programCopy (updGone s.dev) u.target u.bytes) u.target) (r := 0) (by decide)
      obtain ⟨sel, run⟩ := rgf_ldgUse (programCopy (updGone s.dev) u.target u.bytes) u.target
      obtain ⟨flash, gone⟩ := programCopy_updGone s.dev u.target u.bytes
      have ended := (others 4 4 (by decide)).trans (run.trans (rgf_updGone s.dev))
      have selected := (others 1 0 (by decide)).trans (sel.trans (Nat.mod_eq_of_lt (by omega)))
      obtain ⟨raised, sec⟩ := updResult_sec (ldgUse (programCopy (updGone s.dev) u.target u.bytes) u.target) 0
      obtain ⟨raised', sec'⟩ := programmed_frame (updGone s.dev) u.target u.bytes
      rw [← ledgerDone_good runs good] at told ended selected raised sec
      rw [sec'] at sec
      exact ⟨_, (exec_ledgerUpdateDone true s).trans (happen_ok rfl may rfl (raised.trans (raised'.trans calm))), by rw [sec]; exact gone, ended, told,
        selected, by rw [sec]; exact flash⟩

end Sys2Proof.Machine
end

section
/-! SUPPORT. A step on an empty queue (18_clocks_power_supply.md, R564, R565, R569): one cycle of the die root. -/

namespace Sys2Proof.Machine
open Sys2Proof.Safety

/-- With nothing to send no port starts a message. -/
theorem portsTick_idle {d : Dev} (idle : d.tx = []) : portsTick d = d := by simp [portsTick, idle]

/-- On an empty queue a step is the root's cycle, when that raises nothing. -/
theorem step_root {s : State} {d : Dev} (empty : s.pending = []) (tick : rootTick s.dev = .ok d) (calm : d.raised = []) :
    step s = .next { s with dev := d } := by
  rw [step, empty]
  dsimp only
  rw [tick, lift_ok s calm, empty]

theorem rootTick_dead {d : Dev} (dead : live d = false) : rootTick d = .ok d := by simp [rootTick, dead]

/-- The device one root cycle later. -/
def nextCycle (d : Dev) : Dev := { d with root := d.root + 1 }

/-- The compute dies' part of a root cycle. -/
def wingsTick (d : Dev) : Res Dev := if halted d then .ok d else (List.range 4).foldlM wingEdge d

/-- A root cycle of a live device: with a wall tick the sweep of the waits, the tick, the links' errors and the accesses that wait, and always the ports
and the wings. -/
theorem rootTick_live {d : Dev} (lives : live d = true) : rootTick d =
    let c := nextCycle (if (d.root + 1) % 84 = 0 then overrunSweep d else d)
    let e := portsTick (if c.root % 84 = 0 then linkErrors (wallTick c) else c)
    if e.root % 84 = 0 then retryAccesses e >>= wingsTick else wingsTick e := by
  unfold rootTick
  rw [if_neg (by rw [lives]; decide)]
  rfl

/-- Between wall ticks, with nothing to send, a root cycle is the wings'. -/
theorem rootTick_between {d : Dev} (lives : live d = true) (idle : d.tx = []) (between : (d.root + 1) % 84 ≠ 0) :
    rootTick d = wingsTick (nextCycle d) := by
  have between' : ¬(nextCycle d).root % 84 = 0 := between
  have ports : portsTick (nextCycle d) = nextCycle d := portsTick_idle idle
  rw [rootTick_live lives, if_neg between]
  dsimp only
  rw [if_neg between', ports, if_neg between']

/-- Where no bundle waits no wait can have lasted too long. -/
theorem overrunSweep_idle {d : Dev} (idle : (d.cells.all fun e => e.2.wait.isNone) = true) : overrunSweep d = d := by
  have none_ : (d.cells.filter fun e => e.2.wait.isSome) = [] := by
    rw [List.filter_eq_nil_iff]
    intro e he
    have := List.all_eq_true.1 idle e he
    simpa using this
  rw [overrunSweep, none_, List.foldl_nil]

/-- Where no link is up none errs. -/
theorem linkErrors_down {d : Dev} (ports : upPorts d = []) (host : hostUp d = false) : linkErrors d = d := by
  simp [linkErrors, ports, host]

/-- A wall tick while the dies stand still: with no slew it is one. -/
theorem wallTick_still {d : Dev} (halts : halted d = true) (still : d.fab.sync.slew = 0) : wallTick d = { d with wt := d.wt + 1 } := by
  have one : wtAdvance d.fab.sync.slew = (1, 0) := by rw [still]; rfl
  simp only [wallTick, one, halts, if_true]
  rw [← still]

theorem retryAccesses_idle {d : Dev} (idle : d.host.wait = []) : retryAccesses d = .ok d := by simp [retryAccesses, idle]

/-- With a wall tick, a device that stands still and that nothing disturbs counts that too (R450). -/
theorem rootTick_wall {d : Dev} (lives : live d = true) (halts : halted d = true) (calm : Undisturbed d) (wall : (d.root + 1) % 84 = 0)
    (still : d.fab.sync.slew = 0) : rootTick d = .ok { nextCycle d with wt := d.wt + 1 } := by
  obtain ⟨tx, wait, ports, host, cells⟩ := calm
  have wall' : (nextCycle d).root % 84 = 0 := wall
  have tick : wallTick (nextCycle d) = { nextCycle d with wt := d.wt + 1 } := wallTick_still halts still
  have errs : linkErrors { nextCycle d with wt := d.wt + 1 } = { nextCycle d with wt := d.wt + 1 } := linkErrors_down ports host
  have sent : portsTick { nextCycle d with wt := d.wt + 1 } = { nextCycle d with wt := d.wt + 1 } := portsTick_idle tx
  have retried : retryAccesses { nextCycle d with wt := d.wt + 1 } = .ok { nextCycle d with wt := d.wt + 1 } := retryAccesses_idle wait
  have halts' : halted { nextCycle d with wt := d.wt + 1 } = true := halts
  rw [rootTick_live lives, if_pos wall, overrunSweep_idle cells]
  dsimp only
  rw [if_pos wall', tick, errs, sent, if_pos wall', retried]
  exact if_pos halts'

/-- A wing that is not at its edge only counts. -/
theorem wingEdge_counts {d : Dev} {w : Nat} (far : 1 < (wingOf d w).left) :
    wingEdge d w = .ok (putWing d w { wingOf d w with left := (wingOf d w).left - 1 }) := by
  have far' : ¬(wingOf d w).left ≤ 1 := by omega
  simp only [wingEdge, far, wingTick, far', decide_false, Bool.false_and, Bool.false_eq_true, if_true, if_false]

/-- A wing's period runs down by one. -/
def countWing (d : Dev) (w : Nat) : Dev := putWing d w { wingOf d w with left := (wingOf d w).left - 1 }

/-- Among wings none of which is at its edge each listed one counts. -/
theorem foldlM_wingEdge : ∀ (l : List Nat) {d : Dev}, l.Nodup → (∀ w ∈ l, 1 < (wingOf d w).left) → l.foldlM wingEdge d = .ok (l.foldl countWing d)
  | [], _, _, _ => rfl
  | w :: t, d, nodup, far => by
    obtain ⟨new, rest⟩ := List.nodup_cons.1 nodup
    have far' : ∀ v ∈ t, 1 < (wingOf (countWing d w) v).left := fun v hv => by
      have ne : v ≠ w := fun e => new (e ▸ hv)
      rw [countWing, wingOf_putWing, if_neg ne]
      exact far v (List.mem_cons_of_mem _ hv)
    rw [List.foldlM_cons, wingEdge_counts (far w List.mem_cons_self), List.foldl_cons, ← foldlM_wingEdge t rest far']
    rfl

theorem foldl_countWing_raised (l : List Nat) (d : Dev) : (l.foldl countWing d).raised = d.raised := foldl_frame (·.raised) countWing (fun _ _ => rfl) l d

/-- Settles O2: of the parts of a root cycle the messages, the wall tick and the edges of the wings have nothing to do in turn. -/
theorem idleStepIsOneRootCycle : Obligations.IdleStepIsOneRootCycle := by
  unfold Obligations.IdleStepIsOneRootCycle
  intro s empty calm
  refine ⟨fun dead => step_root empty (rootTick_dead dead) calm, fun lives halts idle between => ?_, fun lives halts undisturbed wall still => ?_,
    fun runs idle between far => ?_⟩
  · have wings : wingsTick (nextCycle s.dev) = .ok (nextCycle s.dev) := if_pos halts
    exact step_root empty ((rootTick_between lives idle between).trans wings) calm
  · exact step_root empty (rootTick_wall lives halts undisturbed wall still) calm
  · have lives : live s.dev = true := by
      rw [clocked, Bool.and_eq_true] at runs
      exact runs.1
    have wings : wingsTick (nextCycle s.dev) = .ok ((List.range 4).foldl countWing (nextCycle s.dev)) :=
      (if_neg (by rw [show halted (nextCycle s.dev) = halted s.dev from rfl, clocked_halted runs]; decide)).trans
        (foldlM_wingEdge _ List.nodup_range fun w hw => far w (List.mem_range.1 hw))
    exact step_root empty ((rootTick_between lives idle between).trans wings) ((foldl_countWing_raised ..).trans calm)

end Sys2Proof.Machine
end

section
/-! SUPPORT. Wall-tick synchronisation (13_fabric.md, R449, R450): the request, the reply of the parent, and the correction. -/

namespace Sys2Proof.Machine
open Sys2Proof.Safety

theorem exec_wallTickExchange (s : State) : exec .wallTickExchange s = happen .wallTickExchange live (fun d => .ok (wtExchange d)) s := rfl
theorem exec_wallTickRequestReceive (p : Nat) (m : FabMsg) (s : State) : exec (.wallTickRequestReceive p m) s =
    happen (.wallTickRequestReceive p m) (arrives p) (fun d => .ok (wtRequest d p m)) s := rfl
theorem exec_wallTickReplyReceive (p : Nat) (m : FabMsg) (s : State) : exec (.wallTickReplyReceive p m) s =
    happen (.wallTickReplyReceive p m) (arrives p) (fun d => .ok (wtReply d m)) s := rfl

/-- The device in which a request has gone out (R449). -/
def wtAsked (d : Dev) : Dev :=
  { d with fab := { d.fab with sync := { d.fab.sync with lastReq := some (ticks d), open1 := some (wt16 d) } } }

/-- A request that is due goes to the sync parent. -/
theorem wtExchange_due {d : Dev} {p : Nat} (other : rgf d 0x100_0000 38 33 ≠ myDev d) (due : ∀ t, d.fab.sync.lastReq = some t → t + 4096 ≤ ticks d)
    (closed : d.fab.sync.open1 = none) (parent : syncParent d = some p) :
    wtExchange d = sendMsg (wtAsked d) p (ownMsg d 4 (rgf d (fabPort p) 47 42) 1 0 (leBytes 8 (wt16 d))) := by
  have due' : (match (motive := Option Nat → Bool) d.fab.sync.lastReq with | some t => decide (t + 4096 ≤ ticks d) | none => true) = true := by
    cases last : d.fab.sync.lastReq with
    | none => rfl
    | some t => exact decide_eq_true (due t last)
  unfold wtExchange
  extract_lets free asks
  have free' : free = true := due'
  have asks' : asks = d := by simp only [asks, closed, Option.isSome_none, Bool.false_eq_true, if_false]
  clear_value asks
  subst asks'
  rw [if_neg (by simp [other, free'])]
  split
  · next none_ => exact absurd (none_.symm.trans parent) (by simp)
  · next q hq =>
    cases hq.symm.trans parent
    rfl

/-! ### The correction -/

/-- What the correction by an offset `o` makes of the device (R450). -/
structure WtCorrected (d : Dev) (o : Int) (locked : Bool) (e : Dev) : Prop where
  closed : e.fab.sync.open1 = d.fab.sync.open1
  missed : e.fab.sync.missed = d.fab.sync.missed
  offset : rgf e 0x100_0010 15 0 = rgf d 0x100_0010 15 0
  mem : e.mem = d.mem
  cells : e.cells = d.cells
  raised : e.raised = d.raised
  keeps : locked = true ∨ o.natAbs ≤ 128 → e.wt = d.wt
  steps : locked = false → 128 < o.natAbs → e.wt = ((16 * (d.wt : Int) + o) / 16).toNat

/-- One more adjustment is counted beside the offset. -/
theorem rgf_adjusted (d : Dev) (v : Nat) : rgf (putRgf d 0x100_0010 31 16 v) 0x100_0010 15 0 = rgf d 0x100_0010 15 0 :=
  rgf_putRgf_field _ _ _ (by decide) (by decide)

theorem wtCorrected_wtCorrect (d : Dev) (o : Int) (locked : Bool) : WtCorrected d o locked (wtCorrect d o locked) := by
  unfold wtCorrect
  extract_lets adj slew
  split
  · next on =>
    have never : locked = false → 128 < o.natAbs → d.wt = ((16 * (d.wt : Int) + o) / 16).toNat := fun off => absurd on (by rw [off]; decide)
    split
    · exact ⟨rfl, rfl, rgf_adjusted .., rfl, rfl, rfl, fun _ => rfl, never⟩
    · exact ⟨rfl, rfl, rfl, rfl, rfl, rfl, fun _ => rfl, never⟩
  · next off =>
    split
    · next far =>
      exact ⟨rfl, rfl, rgf_adjusted .., rfl, rfl, rfl, fun h => (h.elim off fun le => absurd far (Nat.not_lt.2 le)).elim, fun _ _ => rfl⟩
    · next near =>
      split
      · exact ⟨rfl, rfl, rgf_adjusted .., rfl, rfl, rfl, fun _ => rfl, fun _ far => absurd far near⟩
      · exact ⟨rfl, rfl, rfl, rfl, rfl, rfl, fun _ => rfl, fun _ far => absurd far near⟩

/-- The device that has noted the offset `o` of an answered request. -/
def wtNoted (d : Dev) (o : Int) : Dev :=
  putRgf { d with fab := { d.fab with sync := { d.fab.sync with open1 := none, missed := 0, good := if o.natAbs < 16 then d.fab.sync.good + 1 else 0 } } }
    0x100_0010 15 0 (o % 65536).toNat

/-- A reply to the open request: the offset is noted, the count corrected, and the lock perhaps found. -/
theorem wtReply_open {d : Dev} {m : FabMsg} {t1 : Nat} (asked : d.fab.sync.open1 = some t1) (same : leNat (m.body.take 8) = t1) :
    let t (k : Nat) : Int := leNat ((m.body.drop (8 * k)).take 8)
    let o := Int.tdiv ((t 1 - t 0) + (t 2 - (wt16 d : Int))) 2
    ∃ e, WtCorrected (wtNoted d o) o (rgf d 0x100_0010 63 63 == 1) e ∧ (wtReply d m = e ∨ wtReply d m = putRgf e 0x100_0010 63 63 1) := by
  intro t o
  have first : ¬(t 0 ≠ (t1 : Int)) := by simpa [t] using same
  let e := wtCorrect (wtNoted d o) o (rgf d 0x100_0010 63 63 == 1)
  have shape : ∃ good, wtReply d m = if 4 ≤ good then putRgf e 0x100_0010 63 63 1 else e := by
    unfold wtReply
    rw [asked]
    exact ⟨_, if_neg first⟩
  obtain ⟨good, shape⟩ := shape
  refine ⟨e, wtCorrected_wtCorrect .., ?_⟩
  rw [shape]
  split
  · exact .inr rfl
  · exact .inl rfl

/-- What the finding of the lock leaves. -/
theorem locked_frame (d : Dev) : rgf (putRgf d 0x100_0010 63 63 1) 0x100_0010 15 0 = rgf d 0x100_0010 15 0 :=
  rgf_putRgf_field _ _ _ (by decide) (by decide)

/-! ### The statement -/

/-- A reply to the open request closes it, and shows the offset (R449, R450). -/
theorem wtReply_corrects {d : Dev} {m : FabMsg} {t1 : Nat} (asked : d.fab.sync.open1 = some t1) (same : leNat (m.body.take 8) = t1) :
    let t (k : Nat) : Int := leNat ((m.body.drop (8 * k)).take 8)
    let o := Int.tdiv ((t 1 - t 0) + (t 2 - (wt16 d : Int))) 2
    ∃ e, wtReply d m = e ∧ e.fab.sync.open1 = none ∧ e.fab.sync.missed = 0 ∧ rgf e 0x100_0010 15 0 = (o % 65536).toNat ∧ e.mem = d.mem ∧
      e.cells = d.cells ∧ e.raised = d.raised ∧ (rgf d 0x100_0010 63 63 = 1 ∨ o.natAbs ≤ 128 → e.wt = d.wt) ∧
      (rgf d 0x100_0010 63 63 ≠ 1 → 128 < o.natAbs → e.wt = ((16 * (d.wt : Int) + o) / 16).toNat) := by
  intro t o
  obtain ⟨e, ⟨closed, missed, offset, mem, cells, raised, keeps, steps⟩, made⟩ := wtReply_open asked same
  have noted : rgf (wtNoted d o) 0x100_0010 15 0 = (o % 65536).toNat := by
    rw [wtNoted, rgf_putRgf_same _ _ _ (by decide)]
    omega
  have keeps' : rgf d 0x100_0010 63 63 = 1 ∨ o.natAbs ≤ 128 → e.wt = d.wt := fun h => keeps (h.imp_left fun on => by rw [on]; rfl)
  have steps' : rgf d 0x100_0010 63 63 ≠ 1 → 128 < o.natAbs → e.wt = ((16 * (d.wt : Int) + o) / 16).toNat := fun off => steps (by simpa using off)
  rcases made with made | made
  · exact ⟨e, made, closed, missed, offset.trans noted, mem, cells, raised, keeps', steps'⟩
  · exact ⟨_, made, closed, missed, (locked_frame e).trans (offset.trans noted), mem, cells, raised, keeps', steps'⟩

/-- Settles O43: the device asks when a request is due, answers at once, and corrects its count by the offset. -/
theorem wallTicksAreExchanged : Obligations.WallTicksAreExchanged := by
  unfold Obligations.WallTicksAreExchanged
  intro s p lives calm
  refine ⟨fun other due closed parent => ?_, fun m wf up => ?_, fun m t1 wf up asked same => ?_⟩
  · exact (exec_wallTickExchange s).trans (happen_ok rfl lives (congrArg _ (wtExchange_due other due closed parent)) calm)
  · have arrives_ : arrives p s.dev = true := by rw [arrives, lives, up]; rfl
    have eff : wtRequest s.dev p m = _ := if_neg (by rw [up]; decide)
    exact (exec_wallTickRequestReceive p m s).trans (happen_ok wf arrives_ (congrArg _ eff) calm)
  · have arrives_ : arrives p s.dev = true := by rw [arrives, lives, up]; rfl
    obtain ⟨e, eff, closed, missed, offset, mem, cells, raised, keeps, steps⟩ := wtReply_corrects asked same
    exact ⟨_, (exec_wallTickReplyReceive p m s).trans (happen_ok wf arrives_ (congrArg _ eff) (raised.trans calm)), closed, missed, offset, mem, cells,
      keeps, steps⟩

end Sys2Proof.Machine
end

section
/-! SUPPORT. Events (14_host_link.md, R478, R479): the oldest held event is written or forwarded, and forwarded ones arrive. -/

namespace Sys2Proof.Machine
open Sys2Proof.Safety

theorem exec_eventWrite (s : State) : exec .eventWrite s = happen .eventWrite live (fun d => .ok (eventWrite d)) s := rfl
theorem exec_forwardedEventReceive (p : Nat) (m : FabMsg) (s : State) : exec (.forwardedEventReceive p m) s =
    happen (.forwardedEventReceive p m) (arrives p) (fun d => .ok (forwarded d m)) s := rfl

/-- Where no event was dropped the written one is gone, and no other comes. -/
theorem eventGone_kept {d : Dev} (kept : d.host.dropped = 0) : eventGone d = { d with host := { d.host with held := d.host.held.tail } } := by
  simp only [eventGone, kept, if_true]

/-- An event is pushed where there is room. -/
theorem holdEvent_room {d : Dev} {e : HeldEvent} (room : d.host.held.length < 256) : holdEvent d e = pushHeld d e := by
  have free : ¬256 ≤ d.host.held.length := by omega
  simp only [holdEvent, if_neg free]

/-- The place and the bytes of the oldest event `e` in the queue (R478). -/
def eventAt (d : Dev) : Nat := hostBase + rgf d 0x20_0100 43 5 * 32 + 32 * (rgf d 0x20_0110 63 32 % 2 ^ rgf d 0x20_0100 59 56)
def eventBytes (d : Dev) (e : HeldEvent) : List Byte := wordBytes (eventWords e (phaseBit (rgf d 0x20_0110 63 32) (rgf d 0x20_0100 59 56)))

/-- The device in which the oldest event `e` has been written (R479). -/
def eventWritten (d : Dev) (e : HeldEvent) : Dev :=
  eventGone (putRgf (engWrite d (eventAt d) (eventBytes d e)) 0x20_0110 63 32 ((rgf d 0x20_0110 63 32 + 1) % 2 ^ 32))

/-- With the queue enabled, the host link up and room, the oldest event is written. -/
theorem eventWrite_queue {d : Dev} {e : HeldEvent} {rest : List HeldEvent} (held : d.host.held = e :: rest) (own : fwdRoot d = none)
    (on : bitAt (rg d 0x20_0100).toNat 63 = true) (up : hostUp d = true)
    (room : (rgf d 0x20_0110 63 32 + 2 ^ 32 - rgf d 0x20_0108 31 0) % 2 ^ 32 < 2 ^ rgf d 0x20_0100 59 56) : eventWrite d = eventWritten d e := by
  have room' : ¬2 ^ fld (rg d 0x20_0100).toNat 59 56 ≤ (rgf d 0x20_0110 63 32 + 2 ^ 32 - rgf d 0x20_0108 31 0) % 2 ^ 32 := Nat.not_le.2 room
  unfold eventWrite
  simp only [held, own]
  rw [if_neg (by simp only [on, up, room', decide_false]; decide), hostWrite, if_pos up]
  rfl

/-- Where ROOT is another device the oldest event goes there by relay. -/
theorem eventWrite_forward {d : Dev} {e : HeldEvent} {rest : List HeldEvent} {root p : Nat} (held : d.host.held = e :: rest)
    (kept : d.host.dropped = 0) (away : fwdRoot d = some root) (route : relayPort d root = some p) : eventWrite d =
    { d with tx := d.tx ++ [(p, ownMsg d 3 root 3 0 (wordBytes (eventWords e 0)))], host := { d.host with held := rest } } := by
  have tail : d.host.held.tail = rest := by rw [held]; rfl
  unfold eventWrite
  simp only [held, away, route]
  have kept' : (sendMsg d p (ownMsg d 3 root 3 0 (wordBytes (eventWords e 0)))).host.dropped = 0 := kept
  rw [eventGone_kept kept', ← tail]
  rfl

/-- What a written event leaves, and what it makes of the held ones and of memory. -/
theorem eventWritten_frame {d : Dev} {e : HeldEvent} {rest : List HeldEvent} (held : d.host.held = e :: rest) (kept : d.host.dropped = 0) :
    (eventWritten d e).host = { d.host with held := rest } ∧ (eventWritten d e).cells = d.cells ∧ (eventWritten d e).raised = d.raised ∧
    (eventWritten d e).mem = (engWrite d (eventAt d) (eventBytes d e)).mem ∧
    rgf (eventWritten d e) 0x20_0110 63 32 = (rgf d 0x20_0110 63 32 + 1) % 2 ^ 32 := by
  have host : (engWrite d (eventAt d) (eventBytes d e)).host = d.host := engWrite_frame (F := (·.host)) (fun _ _ _ _ => rfl) ..
  have cells : (engWrite d (eventAt d) (eventBytes d e)).cells = d.cells := engWrite_frame (F := (·.cells)) (fun _ _ _ _ => rfl) ..
  have raised : (engWrite d (eventAt d) (eventBytes d e)).raised = d.raised := engWrite_frame (F := (·.raised)) (fun _ _ _ _ => rfl) ..
  unfold eventWritten
  generalize engWrite d (eventAt d) (eventBytes d e) = w at host cells raised
  have kept' : (putRgf w 0x20_0110 63 32 ((rgf d 0x20_0110 63 32 + 1) % 2 ^ 32)).host.dropped = 0 := (congrArg HostSt.dropped host).trans kept
  have prod := rgf_putRgf_same w 0x20_0110 (hi := 63) (lo := 32) ((rgf d 0x20_0110 63 32 + 1) % 2 ^ 32) (by decide)
  rw [Nat.mod_mod] at prod
  rw [eventGone_kept kept']
  refine ⟨?_, cells, raised, rfl, prod⟩
  show { w.host with held := w.host.held.tail } = _
  rw [host, held]
  rfl

/-! ### The statement -/

/-- Settles O48: the oldest event is written in the queue or sent on; what is forwarded here joins this device's events, or goes to host memory. -/
theorem eventsReachTheirQueue : Obligations.EventsReachTheirQueue := by
  unfold Obligations.EventsReachTheirQueue
  intro s lives calm
  refine ⟨fun e rest held kept => ⟨fun own on up room => ?_, fun root p away route => ?_⟩, fun p m wf up here => ⟨fun report => ?_, fun event room => ?_⟩⟩
  · obtain ⟨host, cells, raised, mem, prod⟩ := eventWritten_frame held kept
    exact ⟨_, (exec_eventWrite s).trans (happen_ok rfl lives (congrArg _ (eventWrite_queue held own on up room)) (raised.trans calm)), host, cells, prod, mem⟩
  · exact (exec_eventWrite s).trans (happen_ok rfl lives (congrArg _ (eventWrite_forward held kept away route)) calm)
  · have arrives_ : arrives p s.dev = true := by rw [arrives, lives, up]; rfl
    have eff : forwarded s.dev m = hostWrite s.dev (fld m.w1.toNat 47 0) m.body := by simp [forwarded, here, report]
    have raised := hostWrite_frame (F := (·.raised)) (.of_frame fun _ _ _ _ _ _ _ _ => rfl) s.dev (fld m.w1.toNat 47 0) m.body
    exact (exec_forwardedEventReceive p m s).trans (happen_ok wf arrives_ (congrArg _ eff) (raised.trans calm))
  · have arrives_ : arrives p s.dev = true := by rw [arrives, lives, up]; rfl
    have eff : ∃ e : HeldEvent, forwarded s.dev m = pushHeld s.dev e ∧ e.type = fld (leNat (m.body.take 8)) 63 56 ∧
        e.dev = fld (leNat (m.body.take 8)) 55 50 ∧ e.stamp = fld (leNat (m.body.take 8)) 47 0 := by
      simp only [forwarded, here, bne_self_eq_false, Bool.false_eq_true, if_false, bitAt_toNat, event, holdEvent_room room]
      exact ⟨_, rfl, rfl, rfl, rfl⟩
    obtain ⟨e, eff, shows⟩ := eff
    exact ⟨e, (exec_forwardedEventReceive p m s).trans (happen_ok wf arrives_ (congrArg _ eff) calm), shows⟩

end Sys2Proof.Machine
end

section
/-! SUPPORT. Relay (13_fabric.md, R444–R447): a relayed NOP, the answers of the members, and the timeout. -/

namespace Sys2Proof.Machine
open Sys2Proof.Safety

theorem exec_relayRequestReceive (p : Nat) (m : FabMsg) (s : State) : exec (.relayRequestReceive p m) s =
    happen (.relayRequestReceive p m) (arrives p) (fun d => relayRequest d m) s := rfl
theorem exec_relayReplyReceive (p : Nat) (m : FabMsg) (s : State) : exec (.relayReplyReceive p m) s =
    happen (.relayReplyReceive p m) (arrives p) (fun d => relayReply d m) s := rfl
theorem exec_relayTimeout (i : Nat) (s : State) : exec (.relayTimeout i) s = happen (.relayTimeout i) live (fun d => .ok (relayTimeout d i)) s := rfl

/-! ### A relayed NOP -/

/-- The device with the tasks `ts`. -/
def withTasks (d : Dev) (ts : List HostTask) : Dev := { d with host := { d.host with tasks := ts } }

/-- A task joins none. -/
theorem putTask_none (d : Dev) (t : HostTask) : putTask (withTasks d []) t = withTasks d [t] := rfl

/-- A task takes the place of the one with its number. -/
theorem putTask_one (d : Dev) {t u : HostTask} (same : t.id = u.id) : putTask (withTasks d [t]) u = withTasks d [u] := by
  simp [putTask, withTasks, taskOf, same]

theorem dropTask_one (d : Dev) (t : HostTask) : dropTask (withTasks d [t]) t.id = withTasks d [] := by
  simp [dropTask, withTasks]

theorem taskOf_one (d : Dev) (t : HostTask) : taskOf (withTasks d [t]) t.id = some t := by
  simp [taskOf, withTasks]

theorem withTasks_idle {d : Dev} (idle : d.host.tasks = []) : withTasks d [] = d := by
  rw [withTasks, ← idle]

theorem gather_withTasks (d : Dev) (ts : List HostTask) (port : Nat) : gather (withTasks d ts) port = gather d port := rfl

/-- A routed message leaves, or is held, whatever the tasks are. -/
theorem sendRouted_withTasks (d : Dev) (ts : List HostTask) (letter : Nat) (m : FabMsg) :
    sendRouted (withTasks d ts) letter m = withTasks (sendRouted d letter m) ts := by
  have route : routePort (withTasks d ts) letter m = routePort d letter m := rfl
  unfold sendRouted
  rw [route]
  cases routePort d letter m <;> rfl

theorem sendReply_withTasks (d : Dev) (ts : List HostTask) (root tag port : Nat) (s : Share) :
    sendReply (withTasks d ts) root tag port s = withTasks (sendReply d root tag port s) ts :=
  sendRouted_withTasks d ts 0 _

/-- A polled device without tasks polls none. -/
theorem abandonPoll_idle {d : Dev} (idle : d.host.tasks = []) : abandonPoll d = d := by simp [abandonPoll, idle]

/-- The task of a request relayed from `root` (R444). -/
def relayTask (d : Dev) (m : FabMsg) : HostTask := newTask d.nextId 0 0 (some (m.src, fld m.w1.toNat 63 48)) (cmdWords m.body) [] true (ticks d)

/-- The device that has given out a number. -/
def numbered (d : Dev) : Dev := { d with nextId := d.nextId + 1 }

/-- The end of a relayed task that has been answered. -/
theorem finishTask_relayed {d : Dev} {t : HostTask} (alone : t.waiting = []) (done : t.ownDone = true) (taken : t.accepted = true)
    {root : Nat × Nat} (relayed : t.root = some root) (early : repliesLate (opOf t.words) = false) :
    finishTask (withTasks d [t]) t.id = withTasks d [] := by
  obtain ⟨r, tag⟩ := root
  simp only [finishTask, taskOf_one, alone, done, taken, relayed, early, List.isEmpty_nil, Bool.not_true, Bool.or_self, Bool.false_eq_true,
    if_false, dropTask_one]

/-- A relayed NOP is answered at once, and leaves no task (R444, R445). -/
theorem relayRequest_nop {d : Dev} {m : FabMsg} (here : m.dst = myDev d) (ready : isReady d = true) (op : opOf (cmdWords m.body) = 0)
    (idle : d.host.tasks = []) : relayRequest d m =
    .ok (sendReply (numbered d) m.src (fld m.w1.toNat 63 48) (portIn (cmdWords m.body)) shareOk) := by
  have taken : takenNow d (cmdWords m.body) = true := by simp [takenNow, op]
  have early : repliesLate 0 = false := rfl
  have idle' : withTasks (numbered d) [] = numbered d := withTasks_idle idle
  let t := relayTask d m
  let u : HostTask := { t with status := 0, reason := 0, ownDone := true }
  have first : putTask (newId d).2 t = withTasks (numbered d) [t] := by
    rw [← putTask_none, idle']
    rfl
  have does : execOp (withTasks (numbered d) [t]) .relay (cmdWords m.body) d.nextId = .ok (shareOk, withTasks (numbered d) [t]) := by
    simp only [execOp, op]
  have second : putTask (withTasks (numbered d) [t]) u = withTasks (numbered d) [u] := putTask_one _ rfl
  have ends (e : Dev) : finishTask (withTasks e [u]) d.nextId = withTasks e [] :=
    finishTask_relayed (t := u) rfl rfl rfl (root := (m.src, fld m.w1.toNat 63 48)) rfl ((congrArg repliesLate op).trans early)
  have stands : ¬(m.dst != myDev d || !isReady d || !takenNow d (cmdWords m.body)) = true := by simp [here, ready, taken]
  have noWrite : ¬(opOf (cmdWords m.body) = 2 ∧ 0xC0_0000 ≤ argOf (cmdWords m.body) 0 ∧ argOf (cmdWords m.body) 0 < 0x100_0000) := by simp [op]
  have answered : abandonPoll (withTasks (sendReply (numbered d) m.src (fld m.w1.toNat 63 48) (portIn (cmdWords m.body)) shareOk) []) =
      sendReply (numbered d) m.src (fld m.w1.toNat 63 48) (portIn (cmdWords m.body)) shareOk := by
    rw [abandonPoll_idle rfl, ← sendReply_withTasks, idle']
  calc relayRequest d m
    _ = (execOp (putTask (newId d).2 t) .relay (cmdWords m.body) d.nextId >>= fun r =>
        let e := putTask r.2 { t with status := r.1.status, reason := r.1.reason, ownDone := r.1.done }
        let e := if repliesLate (opOf (cmdWords m.body)) then e else sendReply e m.src (fld m.w1.toNat 63 48) (portIn (cmdWords m.body)) r.1
        pure (abandonPoll (finishTask e d.nextId))) := by
      unfold relayRequest
      rw [if_neg stands, if_neg noWrite]
      rfl
    _ = .ok (abandonPoll (finishTask (sendReply (putTask (withTasks (numbered d) [t]) u) m.src (fld m.w1.toNat 63 48) (portIn (cmdWords m.body)) shareOk)
        d.nextId)) := by
      rw [first, does, op]
      rfl
    _ = _ := by rw [second, sendReply_withTasks, ends, answered]

/-! ### Answers and timeouts -/

/-- What a member reports changes neither the number nor the words of the task. -/
theorem merge_keeps (t : HostTask) (dev status reason : Nat) (value : Option W64) (done fsum : Nat) :
    (merge t dev status reason value done fsum).id = t.id ∧ (merge t dev status reason value done fsum).words = t.words := by
  unfold merge
  dsimp only
  split
  · exact ⟨rfl, rfl⟩
  · split
    · split <;> exact ⟨rfl, rfl⟩
    · exact ⟨rfl, rfl⟩

/-- A task that waits for answers does not end. -/
theorem finishTask_waiting {d : Dev} {i : Nat} {t : HostTask} (found : taskOf d i = some t) (waits : t.waiting.isEmpty = false) : finishTask d i = d := by
  simp [finishTask, found, waits]

/-- An answer of a member among several is taken off those that the command waits for (R446). -/
theorem relayReply_several {d : Dev} {m : FabMsg} {t : HostTask} {k : Nat} (here : m.dst = myDev d)
    (found : (d.host.tasks.find? fun t => t.root.isNone && tagOf t.words == fld m.w1.toNat 63 48 && t.waiting.contains m.src) = some t)
    (more : k ∈ t.waiting) (other : k ≠ m.src) :
    ∃ u, relayReply d m = .ok (putTask d u) ∧ taskOf (putTask d u) t.id = some u ∧ u.waiting = t.waiting.filter (· != m.src) ∧ u.words = t.words := by
  have left : (t.waiting.filter (· != m.src)).isEmpty = false := by
    rw [List.isEmpty_eq_false_iff_exists_mem]
    exact ⟨k, List.mem_filter.2 ⟨more, by simpa using other⟩⟩
  have shape : ∃ st reason value done fsum, relayReply d m =
      let u : HostTask := { merge t m.src st reason value done fsum with waiting := t.waiting.filter (· != m.src) }
      if u.waiting.isEmpty && !u.accepted then ownShare (putTask d u) .ring t.id else .ok (finishTask (putTask d u) t.id) := by
    unfold relayReply
    rw [if_neg (by simp [here]), found]
    exact ⟨_, _, _, _, _, rfl⟩
  obtain ⟨st, reason, value, done, fsum, shape⟩ := shape
  obtain ⟨number, words⟩ := merge_keeps t m.src st reason value done fsum
  let u : HostTask := { merge t m.src st reason value done fsum with waiting := t.waiting.filter (· != m.src) }
  have entered : taskOf (putTask d u) t.id = some u := number ▸ taskOf_putTask d u
  refine ⟨u, ?_, entered, rfl, words⟩
  rw [shape]
  dsimp only
  rw [left, Bool.false_and, if_neg Bool.false_ne_true, finishTask_waiting entered left]

/-- After the timeout a command's record names the members that have not answered, also while the root's own share goes on (R447). -/
theorem relayTimeout_late {d : Dev} {i : Nat} {t : HostTask} (found : taskOf d i = some t) (waits : t.waiting ≠ []) (sent : requestHeld d t = false)
    (late : t.sent + rgf d 0x100_0020 31 0 ≤ ticks d) : relayTimeout d i = if t.ownDone || !t.accepted then writeRecord d t
      else markBusy (putTask (writeRecord d t) { t with waiting := [], closed := true }) t.ring := by
  simp only [relayTimeout, found, sent, Nat.not_lt.2 late, decide_false, Bool.or_false, List.isEmpty_eq_false_iff.2 waits, Bool.false_eq_true, if_false]

/-- Settles O42: the request becomes a task that ends at once; an answer among several leaves the task open; a late command has its record. -/
theorem relayedCommandsAreAnswered : Obligations.RelayedCommandsAreAnswered := by
  unfold Obligations.RelayedCommandsAreAnswered
  intro s lives calm
  have none_ : LinkBlind (·.raised) := .of_frame fun _ _ _ _ _ _ _ _ => rfl
  refine ⟨fun p q m wf up here ready op idle _ => ?_, fun p m t k wf up here found more other => ?_, fun i t found waits sent late => ⟨fun over_ => ?_,
    fun open_ taken => ?_⟩⟩
  · have arrives_ : arrives p s.dev = true := by rw [arrives, lives, up]; rfl
    exact (exec_relayRequestReceive p m s).trans
      (happen_ok wf arrives_ (relayRequest_nop here ready op idle) ((sendRouted_frame none_ ..).trans calm))
  · have arrives_ : arrives p s.dev = true := by rw [arrives, lives, up]; rfl
    obtain ⟨u, eff, entered, waiting, words⟩ := relayReply_several here found more other
    exact ⟨_, u, (exec_relayReplyReceive p m s).trans (happen_ok wf arrives_ eff calm), entered, waiting, words, rfl, rfl, rfl⟩
  · have eff := relayTimeout_late found waits sent late
    rw [if_pos (by rcases over_ with h | h <;> simp [h])] at eff
    exact (exec_relayTimeout i s).trans (happen_ok rfl lives (congrArg _ eff) ((writeRecord_frame none_ ..).trans calm))
  · have eff := relayTimeout_late found waits sent late
    rw [if_neg (by simp [open_, taken])] at eff
    exact (exec_relayTimeout i s).trans (happen_ok rfl lives (congrArg _ eff) ((writeRecord_frame none_ ..).trans calm))

end Sys2Proof.Machine
end

section
/-! SUPPORT. The host's windows (14_host_link.md, R462, R463, R466): an access moves its bytes, waits, or fails and is counted. -/

namespace Sys2Proof.Machine
open Sys2Proof.Safety

theorem exec_hostWindowAccess (w off len : Nat) (data : Option (List Byte)) (s : State) : exec (.hostWindowAccess w off len data) s =
    happen (.hostWindowAccess w off len data) reached (fun d => windowAccess d w off len data) s := rfl
theorem exec_hostAccessTimeout (s : State) : exec .hostAccessTimeout s = happen .hostAccessTimeout live (fun d => .ok (accessTimeout d)) s := rfl
theorem exec_hostLineInvalidate (off : Nat) (bs : List Byte) (s : State) : exec (.hostLineInvalidate off bs) s =
    happen (.hostLineInvalidate off bs) (fun _ => true) (fun d => .ok (hostLineWrite d off bs)) s := rfl

/-- The access of `len` bytes, or of those of `data`, through window `w` (R466). -/
def access (d : Dev) (w off len : Nat) (data : Option (List Byte)) : HostAcc :=
  { window := w, off := off, len := match data with | some bs => bs.length | none => len, data := data, wt := ticks d }

/-- Windows 1 to 3 are no register window. -/
theorem windowAccess_serves {w : Nat} (hw : w = 1 ∨ w = 2 ∨ w = 3) (d : Dev) (off len : Nat) (data : Option (List Byte)) :
    windowAccess d w off len data = serveAccess d (access d w off len data) := if_neg (by omega)

/-! ### The three ends of an access -/

/-- An access may be made: the device is ready, and all its bytes are there. -/
abbrev Allowed (d : Dev) (a : HostAcc) : Prop := isReady d = true ∧ a.len ≠ 0 ∧ (winBytes a.window a.off a.len).all (winByteOk d) = true

theorem serveAccess_allowed {d : Dev} {a : HostAcc} (may : Allowed d a) : serveAccess d a =
    if accessGranted d a then moveAccess d a else .ok { d with host := { d.host with wait := d.host.wait ++ [a] } } := by
  obtain ⟨ready, some_, bytes⟩ := may
  exact if_neg (by simp [ready, some_, bytes])

theorem serveAccess_absent {d : Dev} {a : HostAcc} (absent : (winBytes a.window a.off a.len).all (winByteOk d) = false) :
    serveAccess d a = .ok (invalidAccess d a.len a.data) := if_pos (by simp [absent])

/-- An access that fails answers a read with 0xFF in every byte. -/
theorem failAccess_eq (d : Dev) (n : Nat) (data : Option (List Byte)) : failAccess d n data =
    { d with hostResp := if data.isSome then d.hostResp else d.hostResp ++ [List.replicate n 0xFF#8] } := by
  cases data <;> rfl

/-- The pieces of an access that are settled need no settling. -/
theorem settlePieces_settled {d : Dev} {ps : List (Nat × Nat)} (settled : (settlePieces d ps).toOption = some d) : settlePieces d ps = .ok d := by
  cases made : settlePieces d ps with
  | error e => rw [made] at settled; cases settled
  | ok e => rw [made] at settled; cases settled; rfl

/-- A write that meets no coefficient in use moves its bytes. -/
theorem moveAccess_write {d : Dev} {a : HostAcc} {bs : List Byte} (written : a.data = some bs)
    (settled : (settlePieces d (winPieces a.window a.off a.len)).toOption = some d)
    (free : (guardPieces d (winPieces a.window a.off a.len) bs).toOption.isSome = true) :
    moveAccess d a = .ok (writePieces d (winPieces a.window a.off a.len) bs) := by
  obtain ⟨u, guarded⟩ : ∃ u, guardPieces d (winPieces a.window a.off a.len) bs = .ok u := by
    cases made : guardPieces d (winPieces a.window a.off a.len) bs with
    | error e => rw [made] at free; cases free
    | ok u => exact ⟨u, rfl⟩
  simp only [moveAccess, settlePieces_settled settled, written]
  show (guardPieces d (winPieces a.window a.off a.len) bs >>= fun _ => pure (writePieces d (winPieces a.window a.off a.len) bs)) = _
  rw [guarded]
  rfl

/-- A read answers the bytes. -/
theorem moveAccess_read {d : Dev} {a : HostAcc} (read : a.data = none)
    (settled : (settlePieces d (winPieces a.window a.off a.len)).toOption = some d) (sound : d.upset = []) : moveAccess d a =
    .ok { (readPieces d (winPieces a.window a.off a.len)).2 with hostResp := d.hostResp ++ [(readPieces d (winPieces a.window a.off a.len)).1] } := by
  have answered := readPieces_frame (F := (·.hostResp)) (fun _ _ _ => rfl) (winPieces a.window a.off a.len) sound
  have moved : moveAccess d a = .ok { (readPieces d (winPieces a.window a.off a.len)).2 with
      hostResp := (readPieces d (winPieces a.window a.off a.len)).2.hostResp ++ [(readPieces d (winPieces a.window a.off a.len)).1] } := by
    simp only [moveAccess, settlePieces_settled settled, read]
    rfl
  rw [moved, answered]

/-- An access that has waited too long is counted and fails (R466). -/
theorem accessTimeout_late {d : Dev} {a : HostAcc} {rest : List HostAcc} (waits : d.host.wait = a :: rest) (late : a.wt + 10000 ≤ ticks d) :
    accessTimeout d = { putRgf { d with host := { d.host with wait := rest } } 0x20_1018 63 32 (satAdd 32 (rgf d 0x20_1018 63 32) 1) with
      hostResp := if a.data.isSome then d.hostResp else d.hostResp ++ [List.replicate a.len 0xFF#8] } := by
  unfold accessTimeout
  simp only [waits]
  rw [if_neg (Nat.not_lt.2 late), failAccess_eq]
  rfl

/-! ### The statement -/

/-- Settles O45: an access is served when it is made, or waits; one that fails answers a read with 0xFF, and a write with nothing. -/
theorem hostWindowsMoveBytes : Obligations.HostWindowsMoveBytes := by
  unfold Obligations.HostWindowsMoveBytes
  intro s calm
  refine ⟨fun w off len data reach hw => ?_, fun a rest lives waits late => ?_, fun off bs fits => ?_⟩
  · intro n ps granted
    have wf : (Instr.hostWindowAccess w off len data).wf = true := decide_eq_true (by omega)
    have serves (d : Dev) (eff : serveAccess s.dev (access s.dev w off len data) = .ok d) (keeps : d.raised = s.dev.raised) :
        Yields (.hostWindowAccess w off len data) s d :=
      (exec_hostWindowAccess w off len data s).trans (happen_ok wf reach ((windowAccess_serves hw ..).trans eff) (keeps.trans calm))
    refine ⟨fun ready some_ bytes held => ?_, fun ready some_ bytes goes ⟨_, _, settled, sound⟩ => ⟨fun bs written free => ?_, fun read => ?_⟩,
      fun ready absent => ?_⟩
    · exact serves _ ((serveAccess_allowed ⟨ready, some_, bytes⟩).trans (if_neg (by rw [show accessGranted s.dev _ = granted from rfl, held]; decide))) rfl
    · exact serves _ ((serveAccess_allowed ⟨ready, some_, bytes⟩).trans ((if_pos goes).trans (moveAccess_write written settled free)))
        (writePieces_raised ..)
    · exact serves _ ((serveAccess_allowed ⟨ready, some_, bytes⟩).trans ((if_pos goes).trans (moveAccess_read read settled sound)))
        (readPieces_frame (F := (·.raised)) (fun _ _ _ => rfl) ps sound)
    · exact serves _ ((serveAccess_absent absent).trans (congrArg _ (failAccess_eq ..))) rfl
  · exact (exec_hostAccessTimeout s).trans (happen_ok rfl lives (congrArg _ (accessTimeout_late waits late)) calm)
  · exact (exec_hostLineInvalidate off bs s).trans (happen_ok (decide_eq_true fits) rfl (congrArg _ (if_pos fits)) calm)

end Sys2Proof.Machine
end

section
/-! SUPPORT. PROGLOAD and COPY (14_host_link.md, R480, R482): the bytes that they move, and their completion. -/

namespace Sys2Proof.Machine
open Sys2Proof.Safety

theorem exec_progloadComplete (i : Nat) (s : State) : exec (.progloadComplete i) s =
    happen (.progloadComplete i) running (fun d => progloadComplete d i) s := rfl
theorem exec_copyComplete (i : Nat) (s : State) : exec (.copyComplete i) s = happen (.copyComplete i) running (fun d => copyComplete d i) s := rfl

/-! ### The end of a share -/

theorem tasks_hostWrite (d : Dev) (a : Nat) (bs : List Byte) : (hostWrite d a bs).host.tasks = d.host.tasks := by
  unfold hostWrite
  split
  · exact engWrite_frame (F := (·.host.tasks)) (fun _ _ _ _ => rfl) ..
  · rfl

/-- A task whose record is written is no more. -/
theorem taskOf_writeRecord (d : Dev) (t : HostTask) : taskOf (writeRecord d t) t.id = none := by
  have tasks : (writeRecord d t).host.tasks = d.host.tasks.filter (·.id != t.id) := tasks_hostWrite (dropTask d t.id) ..
  rw [taskOf, tasks, List.find?_eq_none]
  intro u hu
  have ne := (List.mem_filter.1 hu).2
  simpa using ne

theorem taskOf_dropTask (d : Dev) (i : Nat) : taskOf (dropTask d i) i = none := by
  rw [taskOf, dropTask, List.find?_eq_none]
  intro u hu
  have ne := (List.mem_filter.1 hu).2
  simpa using ne

/-- Records go to host memory. -/
theorem rdB_hostWrite_below {d : Dev} {a b : Nat} (bs : List Byte) (host : hostBase ≤ a) (below : b < hostBase) : rdB (hostWrite d a bs) b = rdB d b := by
  unfold hostWrite
  split
  · exact rdB_engWrite_other d a bs b (.inl (by omega))
  · rfl

theorem rdB_writeRecord_below {d : Dev} (t : HostTask) {b : Nat} (below : b < hostBase) : rdB (writeRecord d t) b = rdB d b :=
  rdB_hostWrite_below (d := dropTask d t.id) _ (by omega) below

theorem merge_rest (t : HostTask) (dev status reason : Nat) (value : Option W64) (done fsum : Nat) :
    (merge t dev status reason value done fsum).waiting = t.waiting ∧ (merge t dev status reason value done fsum).accepted = t.accepted ∧
    (merge t dev status reason value done fsum).root = t.root := by
  unfold merge
  dsimp only
  split
  · exact ⟨rfl, rfl, rfl⟩
  · split
    · split <;> exact ⟨rfl, rfl, rfl⟩
    · exact ⟨rfl, rfl, rfl⟩

/-- A command of this device that has ended, and that waits for no other, ends without a record or with one. -/
theorem finishTask_alone {d : Dev} {u : HostTask} (found : taskOf d u.id = some u) (alone : u.waiting = []) (taken : u.accepted = true)
    (own : u.root = none) (done : u.ownDone = true) : finishTask d u.id = if u.closed then dropTask d u.id else writeRecord d u := by
  simp only [finishTask, found, alone, taken, own, done, List.isEmpty_nil, Bool.not_true, Bool.or_self, Bool.false_eq_true, if_false]

/-- The own share of a command of this device that waits for no other ends the command (R475). -/
theorem endShare_alone {d : Dev} {i : Nat} {t : HostTask} (found : taskOf d i = some t) (alone : t.waiting = []) (taken : t.accepted = true)
    (own : t.root = none) (status reason : Nat) : taskOf (endShare d i status reason) i = none ∧
    ∀ b, b < hostBase → rdB (endShare d i status reason) b = rdB d b := by
  have number : t.id = i := by simpa using List.find?_some found
  let u : HostTask := { merge t (myDev d) status reason none (2 ^ 32 - 1) 0 with ownDone := true }
  obtain ⟨same, -⟩ := merge_keeps t (myDev d) status reason none (2 ^ 32 - 1) 0
  obtain ⟨waits, accepted, root⟩ := merge_rest t (myDev d) status reason none (2 ^ 32 - 1) 0
  have uid : u.id = i := same.trans number
  have ends : endShare d i status reason = if u.closed then dropTask (putTask d u) u.id else writeRecord (putTask d u) u := by
    rw [endShare, found]
    have entered := finishTask_alone (taskOf_putTask d u) (waits.trans alone) (accepted.trans taken) (root.trans own) rfl
    rw [uid] at entered
    rw [uid]
    exact entered
  rw [ends, ← uid]
  split
  · exact ⟨taskOf_dropTask .., fun b _ => rfl⟩
  · exact ⟨taskOf_writeRecord .., fun b below => rdB_writeRecord_below u below⟩

/-! ### Bundles -/

/-- What a bundle written leaves of the port tree. -/
theorem portUp_putBundle (d : Dev) (c a : Nat) (bs : List Byte) (p : Nat) :
    portUp (putBundle d c a bs) p = portUp d p ∧ resetting (putBundle d c a bs) p = resetting d p := by
  unfold putBundle
  split
  · exact ⟨rfl, rfl⟩
  · exact ⟨rfl, rfl⟩

/-- A bundle written in a cell that takes it; other cells, and other places, stay. -/
theorem cellOf_putBundle_other (d : Dev) {c k : Nat} (a : Nat) (bs : List Byte) (ne : k ≠ c) : cellOf (putBundle d c a bs) k = cellOf d k := by
  unfold putBundle
  split
  · rfl
  · exact (cellOf_modCell ..).trans (if_neg ne)

theorem progWord_putBundle {d : Dev} {c : Nat} (a : Nat) (bs : List Byte) (up : portUp d (cellPort c) = true)
    (goes : resetting d (cellPort c) = false) (j : Nat) : progWord (cellOf (putBundle d c a bs) c) j =
    if j = a % 4096 then BitVec.ofNat 256 (leNat bs) else progWord (cellOf d c) j := by
  unfold putBundle
  rw [if_neg (by simp [up, goes])]
  dsimp only
  rw [cellOf_modCell, if_pos rfl]
  exact tabGet_put ..

/-- The first `n` of the bundles `w` written in cell `c` from place `first` on. -/
def putBundles (first : Nat) (w : Nat → List Byte) (n : Nat) (d : Dev) (c : Nat) : Dev :=
  (List.range n).foldl (fun d k => putBundle d c (first + k) (w k)) d

theorem putBundles_succ (first : Nat) (w : Nat → List Byte) (n : Nat) (d : Dev) (c : Nat) :
    putBundles first w (n + 1) d c = putBundle (putBundles first w n d c) c (first + n) (w n) := by
  simp [putBundles, List.range_succ]

theorem portUp_putBundles (first : Nat) (w : Nat → List Byte) (d : Dev) (c p : Nat) :
    ∀ n, portUp (putBundles first w n d c) p = portUp d p ∧ resetting (putBundles first w n d c) p = resetting d p
  | 0 => ⟨rfl, rfl⟩
  | n + 1 => by
    rw [putBundles_succ]
    have step := portUp_putBundle (putBundles first w n d c) c (first + n) (w n) p
    have before := portUp_putBundles first w d c p n
    exact ⟨step.1.trans before.1, step.2.trans before.2⟩

theorem cellOf_putBundles_other (first : Nat) (w : Nat → List Byte) (d : Dev) {c k : Nat} (ne : k ≠ c) :
    ∀ n, cellOf (putBundles first w n d c) k = cellOf d k
  | 0 => rfl
  | n + 1 => by rw [putBundles_succ, cellOf_putBundle_other _ _ _ ne, cellOf_putBundles_other first w d ne n]

/-- All bundles of a program stand in the store of the cell, which holds 4,096 of them (R480). -/
theorem progWord_putBundles {first : Nat} {w : Nat → List Byte} {d : Dev} {c : Nat} (up : portUp d (cellPort c) = true)
    (goes : resetting d (cellPort c) = false) : ∀ n, n ≤ 4096 → ∀ k, k < n →
    progWord (cellOf (putBundles first w n d c) c) ((first + k) % 4096) = BitVec.ofNat 256 (leNat (w k))
  | 0, _, k, lt => by omega
  | n + 1, le, k, lt => by
    have frame := portUp_putBundles first w d c (cellPort c) n
    rw [putBundles_succ, progWord_putBundle _ _ (frame.1.trans up) (frame.2.trans goes)]
    by_cases last : k = n
    · rw [if_pos (by rw [last]), last]
    · rw [if_neg (by omega), progWord_putBundles up goes n (by omega) k (by omega)]

theorem cellOf_loaded_other (first : Nat) (w : Nat → List Byte) (n : Nat) {c : Nat} (l : List Nat) (d : Dev) (absent : c ∉ l) :
    cellOf (l.foldl (putBundles first w n) d) c = cellOf d c := by
  induction l generalizing d with
  | nil => rfl
  | cons a t ih =>
    obtain ⟨ne, rest⟩ : c ≠ a ∧ c ∉ t := by simpa using absent
    rw [List.foldl_cons, ih _ rest, cellOf_putBundles_other first w d ne n]

/-- A fold over cells loads every listed cell that takes bundles, however often it is listed. -/
theorem progWord_loaded {first : Nat} {w : Nat → List Byte} {n : Nat} (le : n ≤ 4096) (l : List Nat) {d : Dev} {c : Nat} (listed : c ∈ l)
    (up : portUp d (cellPort c) = true) (goes : resetting d (cellPort c) = false) {k : Nat} (lt : k < n) :
    progWord (cellOf (l.foldl (putBundles first w n) d) c) ((first + k) % 4096) = BitVec.ofNat 256 (leNat (w k)) := by
  induction l generalizing d with
  | nil => cases listed
  | cons a t ih =>
    have frame := portUp_putBundles first w d a (cellPort c) n
    rw [List.foldl_cons]
    by_cases later : c ∈ t
    · exact ih later (frame.1.trans up) (frame.2.trans goes)
    · obtain rfl := (List.mem_cons.1 listed).resolve_right later
      rw [cellOf_loaded_other first w n t _ later]
      exact progWord_putBundles up goes n le k lt

/-! ### PROGLOAD -/

/-- A pending task is a task. -/
theorem taskOf_pendingTask {d : Dev} {i op : Nat} {t : HostTask} (pending : pendingTask d i op = some t) : taskOf d i = some t := by
  unfold pendingTask at pending
  split at pending
  · next u found =>
    split at pending
    · exact found.trans pending
    · cases pending
  · cases pending

/-- What looks neither at cells nor at the words marked in memory is left when programs are loaded. -/
theorem loaded_frame {β : Type} {F : Dev → β} (hF : ∀ d u c, F { d with upset := u, cells := c } = F d) (first : Nat) (w : Nat → List Byte) (n : Nat)
    (l : List Nat) (d : Dev) : F (l.foldl (putBundles first w n) d) = F d := by
  refine foldl_frame F _ (fun d c => foldl_frame F _ (fun d k => ?_) _ d) l d
  unfold putBundle
  split
  · rfl
  · exact hF d _ _

/-- The bundles of a program that has been read. -/
def bundleOf (bs : List Byte) (k : Nat) : List Byte := (bs.drop (32 * k)).take 32

/-- A PROGLOAD whose source may be read writes its bundles and completes (R480). -/
theorem progloadComplete_good {d : Dev} {i : Nat} {t : HostTask} (pending : pendingTask d i 7 = some t) :
    let src := argOf t.words 0 % 2 ^ 48
    let n := fld (argOf t.words 1) 28 16 + 1
    let ps := pieces64 src (32 * n)
    src % 32 = 0 → badPiece d ps = none → rangePiece d ps = false → (settlePieces d ps).toOption = some d → linkServes d ps = true →
    ((galleriesUnder d (portIn t.words)).all fun g => ps.all fun q => match memPort d q.1 with
        | some m => classGranted d (progClass d g (match place d q.1 with | .hbm o => crosses d g o | _ => true)) g false m
        | none => true) = true →
    progloadComplete d i = .ok (endShare ((cellsUnder (readPieces d ps).2 (portIn t.words)).foldl
      (putBundles (fld (argOf t.words 1) 11 0) (bundleOf (readPieces d ps).1) n) (readPieces d ps).2) i 0 0) := by
  intro src n ps aligned good inside settled serves granted
  unfold progloadComplete
  simp only [pending]
  rw [if_neg (not_not_intro aligned)]
  have good' : badPiece d (pieces64 (argOf t.words 0 % 2 ^ 48) (32 * (fld (argOf t.words 1) 28 16 + 1))) = none := good
  have inside' : rangePiece d (pieces64 (argOf t.words 0 % 2 ^ 48) (32 * (fld (argOf t.words 1) 28 16 + 1))) = false := inside
  have serves' : linkServes d (pieces64 (argOf t.words 0 % 2 ^ 48) (32 * (fld (argOf t.words 1) 28 16 + 1))) = true := serves
  have settled' : settlePieces d (pieces64 (argOf t.words 0 % 2 ^ 48) (32 * (fld (argOf t.words 1) 28 16 + 1))) = .ok d := settlePieces_settled settled
  simp only [good', inside', serves', settled', Bool.not_true, Bool.false_eq_true, if_false]
  refine (if_neg ?_).trans rfl
  rw [Bool.not_eq_true', Bool.not_eq_false]
  exact granted

/-- Cells below a port are in service. -/
theorem portUp_of_cellsUnder {d : Dev} {p c : Nat} (listed : c ∈ cellsUnder d p) : portUp d (cellPort c) = true := by
  obtain ⟨q, -, hq⟩ := List.mem_filterMap.1 listed
  split at hq
  · next cell =>
    obtain ⟨is, up⟩ := Bool.and_eq_true_iff.1 cell
    have low : 64 ≤ q := by
      have kind := portKind_of_isCell is
      unfold portKind at kind
      split_ifs at kind <;> first | omega | cases kind
    have same : cellPort c = q := by
      cases hq
      unfold cellPort
      omega
    rwa [same]
  · cases hq

/-- A PROGLOAD that has loaded its bundles is complete. -/
theorem progload_completes {s : State} {i : Nat} {t : HostTask} (ready : Ready s) (alone : t.waiting = []) (taken : t.accepted = true)
    (own : t.root = none) {first n : Nat} (le : n ≤ 4096) {ps : List (Nat × Nat)} (found : taskOf s.dev i = some t) (sound : s.dev.upset = [])
    (eff : progloadComplete s.dev i = .ok (endShare ((cellsUnder (readPieces s.dev ps).2 (portIn t.words)).foldl
      (putBundles first (bundleOf (readPieces s.dev ps).1) n) (readPieces s.dev ps).2) i 0 0)) :
    ∃ u, exec (.progloadComplete i) s = .next u ∧ taskOf u.dev i = none ∧
      ∀ c ∈ cellsUnder s.dev (portIn t.words), resetting s.dev (cellPort c) = false → ∀ k, k < n →
        progWord (cellOf u.dev c) ((first + k) % 4096) = BitVec.ofNat 256 (leNat (((readPieces s.dev ps).1.drop (32 * k)).take 32)) := by
  obtain ⟨runs, calm⟩ := ready
  obtain ⟨fresh, lines, read⟩ := readPieces_eq ps sound
  have cells : cellsUnder (readPieces s.dev ps).2 (portIn t.words) = cellsUnder s.dev (portIn t.words) := by rw [read]; rfl
  have port (p : Nat) : portUp (readPieces s.dev ps).2 p = portUp s.dev p ∧ resetting (readPieces s.dev ps).2 p = resetting s.dev p := by
    rw [read]; exact ⟨rfl, rfl⟩
  have host : (readPieces s.dev ps).2.host = s.dev.host := by rw [read]
  have raised : (readPieces s.dev ps).2.raised = s.dev.raised := by rw [read]
  rw [cells] at eff
  generalize (readPieces s.dev ps).2 = d at eff port host raised
  generalize (readPieces s.dev ps).1 = bs at eff
  have host' := (loaded_frame (F := (·.host)) (fun _ _ _ => rfl) first (bundleOf bs) n (cellsUnder s.dev (portIn t.words)) d).trans host
  have raised' := (loaded_frame (F := (·.raised)) (fun _ _ _ => rfl) first (bundleOf bs) n (cellsUnder s.dev (portIn t.words)) d).trans raised
  have listed : ∀ c ∈ cellsUnder s.dev (portIn t.words), portUp s.dev (cellPort c) = true := fun _ => portUp_of_cellsUnder
  have loaded (c : Nat) (mem : c ∈ cellsUnder s.dev (portIn t.words)) (goes : resetting s.dev (cellPort c) = false) (k : Nat) (lt : k < n) :=
    progWord_loaded (first := first) (w := bundleOf bs) le (cellsUnder s.dev (portIn t.words)) (d := d) mem
      ((port _).1.trans (listed c mem)) ((port _).2.trans goes) lt
  generalize (cellsUnder s.dev (portIn t.words)).foldl (putBundles first (bundleOf bs) n) d = e at eff host' raised' loaded
  have found' : taskOf e i = some t := by rw [taskOf, host']; exact found
  have keeps := endShare_frame (F := (·.raised)) (.of_frame fun _ _ _ _ _ _ _ _ => rfl) e i 0 0
  have cells' (c : Nat) := endShare_frame (F := (cellOf · c)) (.of_frame fun _ _ _ _ _ _ _ _ => rfl) e i 0 0
  refine ⟨_, (exec_progloadComplete i s).trans (happen_ok rfl runs eff (keeps.trans (raised'.trans calm))),
    (endShare_alone found' alone taken own 0 0).1, fun c mem goes k lt => ?_⟩
  rw [cells' c]
  exact loaded c mem goes k lt

/-! ### COPY -/

/-- The device `e` is `d` but for the free values, the host lines and the words marked in memory. -/
def LinesApart (d e : Dev) : Prop := ∃ k l u, e = { d with fresh := k, hostLines := l, upset := u }

/-- To write the same bytes in two such devices leaves them so. -/
theorem linesApart_engWrite {d e : Dev} (apart : LinesApart d e) (a : Nat) (bs : List Byte) : LinesApart (engWrite d a bs) (engWrite e a bs) := by
  obtain ⟨k, l, u, rfl⟩ := apart
  have mem : (engWrite { d with fresh := k, hostLines := l, upset := u } a bs).mem = (engWrite d a bs).mem := engWrite_mem_congr rfl rfl rfl
  obtain ⟨m, l', eq⟩ := engWrite_eq d a bs
  obtain ⟨m', l'', eq'⟩ := engWrite_eq { d with fresh := k, hostLines := l, upset := u } a bs
  have same : m' = m := by rw [eq, eq'] at mem; exact mem
  subst same
  exact ⟨k, l'', _, eq'.trans (by rw [eq])⟩

theorem linesApart_writePieces : ∀ (ps : List (Nat × Nat)) {d e : Dev} (_ : LinesApart d e) (bs : List Byte),
    LinesApart (writePieces d ps bs) (writePieces e ps bs)
  | [], _, _, apart, _ => apart
  | p :: ps, _, _, apart, _ => linesApart_writePieces ps (linesApart_engWrite apart p.1 _) _

/-- To write changes memory, the words marked in it and the host lines alone. -/
theorem writePieces_eq (d : Dev) (ps : List (Nat × Nat)) (bs : List Byte) :
    ∃ m l u, writePieces d ps bs = { d with mem := m, upset := u, hostLines := l } := by
  induction ps generalizing d bs with
  | nil => exact ⟨d.mem, d.hostLines, d.upset, rfl⟩
  | cons p ps ih =>
    obtain ⟨m, l, first⟩ := engWrite_eq d p.1 (bs.take p.2)
    obtain ⟨m', l', u, rest⟩ := ih (engWrite d p.1 (bs.take p.2)) (bs.drop p.2)
    exact ⟨m', l', u, rest.trans (by rw [first])⟩

/-- Outside a sweep no write meets a coefficient in use (R364). -/
theorem guardPieces_free {d : Dev} (free : sweeping d = false) : ∀ (ps : List (Nat × Nat)) (bs : List Byte), guardPieces d ps bs = .ok ()
  | [], _ => rfl
  | p :: ps, bs => by
    have first : coefGuard d p.1 (bs.take p.2) = .ok () := if_neg (by simp [free])
    show (coefGuard d p.1 (bs.take p.2) >>= fun _ => guardPieces d ps (bs.drop p.2)) = _
    rw [first]
    exact guardPieces_free free ps _

/-- The device in which a COPY has moved its bytes, and counted them at RCELL when asked to. -/
def copied (d : Dev) (t : HostTask) (from_ to_ : List (Nat × Nat)) : Dev :=
  let e := writePieces (readPieces d from_).2 to_ (readPieces d from_).1
  if bitAt (argOf t.words 3) 0 then engineCount e (fld (argOf t.words 3) 17 9) (fld (argOf t.words 3) 8 4) [] else e

/-- A COPY outside a sweep moves its bytes and completes (R482). -/
theorem copyComplete_good {d : Dev} {i : Nat} {t : HostTask} (pending : pendingTask d i 8 = some t) :
    let n := fld (argOf t.words 2) 31 0
    let from_ := pieces64 (argOf t.words 0 % 2 ^ 48) n
    let to_ := pieces64 (argOf t.words 1 % 2 ^ 48) n
    Movable ⟨[], d⟩ (from_ ++ to_) → linkServes d (from_ ++ to_) = true → sweeping d = false → grantedAll d (rgf d 0x20_1010 15 8) 49 false from_ = true →
    grantedAll d (rgf d 0x20_1010 7 0) 49 true to_ = true → copyComplete d i = .ok (endShare (copied d t from_ to_) i 0 0) := by
  intro n from_ to_ ⟨good, inside, settled, sound⟩ serves free reads writes
  obtain ⟨k, l, read⟩ := readPieces_eq from_ sound
  have guarded : guardPieces (readPieces d from_).2 to_ (readPieces d from_).1 = .ok () := guardPieces_free (by rw [read]; exact free) _ _
  have settled' := settlePieces_settled settled
  have shape : copyComplete d i = (settlePieces d (from_ ++ to_) >>= fun d =>
      guardPieces (readPieces d from_).2 to_ (readPieces d from_).1 >>= fun _ => pure (endShare (copied d t from_ to_) i 0 0)) := by
    unfold copyComplete
    rw [pending]
    dsimp only
    rw [show badPiece d (pieces64 (argOf t.words 0 % 2 ^ 48) (fld (argOf t.words 2) 31 0) ++ pieces64 (argOf t.words 1 % 2 ^ 48)
      (fld (argOf t.words 2) 31 0)) = none from good]
    dsimp only
    rw [if_neg (by rw [inside]; decide), if_neg (by rw [serves]; decide), if_neg (by rw [reads, writes]; decide)]
    rfl
  rw [shape, settled']
  show (guardPieces (readPieces d from_).2 to_ (readPieces d from_).1 >>= fun _ => pure (endShare (copied d t from_ to_) i 0 0)) = _
  rw [guarded]
  rfl

/-- A count looks neither at memory nor at the host lines. -/
theorem engineCount_congr (d : Dev) (m : Tab Byte) (u : Tab Nat) (l : List Nat) (f : Nat) (c h k : Nat) :
    cellOf (engineCount { d with mem := m, upset := u, hostLines := l, fresh := f } c h []) k = cellOf (engineCount d c h []) k := by
  have up : portUp { d with mem := m, upset := u, hostLines := l, fresh := f } (cellPort c) = portUp d (cellPort c) := rfl
  unfold engineCount countAt
  rw [up]
  split <;> rfl

/-- What a copy makes of the cells. -/
theorem cellOf_copied {d : Dev} (t : HostTask) (from_ to_ : List (Nat × Nat)) (sound : d.upset = []) (k : Nat) : cellOf (copied d t from_ to_) k =
    cellOf (if bitAt (argOf t.words 3) 0 then engineCount d (fld (argOf t.words 3) 17 9) (fld (argOf t.words 3) 8 4) [] else d) k := by
  obtain ⟨f, l, read⟩ := readPieces_eq from_ sound
  obtain ⟨m, l', u, written⟩ := writePieces_eq (readPieces d from_).2 to_ (readPieces d from_).1
  have moved : writePieces (readPieces d from_).2 to_ (readPieces d from_).1 = { d with mem := m, upset := u, hostLines := l', fresh := f } := by
    rw [written, read]
  unfold copied
  rw [moved]
  dsimp only
  split
  · exact engineCount_congr ..
  · rfl

/-- What a copy makes of memory. -/
theorem rdB_copied {d : Dev} (t : HostTask) (from_ to_ : List (Nat × Nat)) (sound : d.upset = []) (b : Nat) :
    rdB (copied d t from_ to_) b = rdB (writePieces d to_ (readPieces d from_).1) b := by
  obtain ⟨f, l, read⟩ := readPieces_eq from_ sound
  obtain ⟨_, _, _, apart⟩ := linesApart_writePieces to_ ⟨f, l, d.upset, read⟩ (readPieces d from_).1
  have moved : rdB (writePieces (readPieces d from_).2 to_ (readPieces d from_).1) b = rdB (writePieces d to_ (readPieces d from_).1) b := by
    rw [apart]
    rfl
  unfold copied
  dsimp only
  split
  · rw [engineCount, rdB_mem (countAt_mem ..), moved]
  · exact moved

/-- It touches neither the host's side nor the faults. -/
theorem copied_frame {d : Dev} (t : HostTask) (from_ to_ : List (Nat × Nat)) (sound : d.upset = []) :
    (copied d t from_ to_).host = d.host ∧ (copied d t from_ to_).raised = d.raised := by
  have both {β : Type} {F : Dev → β} (hF : ∀ d m u l k, F { d with mem := m, upset := u, hostLines := l, fresh := k } = F d)
      (hC : ∀ d c q, F (countAt d c q) = F d) : F (copied d t from_ to_) = F d := by
    have moved : F (writePieces (readPieces d from_).2 to_ (readPieces d from_).1) = F d :=
      (writePieces_frame (fun d m u l => hF d m u l d.fresh) ..).trans (readPieces_frame (fun d k l => hF d d.mem d.upset l k) from_ sound)
    unfold copied
    dsimp only
    split
    · exact (hC ..).trans moved
    · exact moved
  have host (d : Dev) (c : Nat) (q : Credit) : (countAt d c q).host = d.host := by
    unfold countAt
    split <;> rfl
  exact ⟨both (F := (·.host)) (fun _ _ _ _ _ => rfl) host, both (F := (·.raised)) (fun _ _ _ _ _ => rfl) fun d c q => countAt_raised d c q⟩

/-! ### The statement -/

/-- Settles O47: both commands move their bytes in the device as it stands, and end their task; records go to host memory alone. -/
theorem progloadAndCopyComplete : Obligations.ProgloadAndCopyComplete := by
  unfold Obligations.ProgloadAndCopyComplete
  intro s i t ready alone taken own
  refine ⟨fun pending => ?_, fun pending => ?_⟩
  · intro src first n ps aligned le ⟨good, inside, settled, sound⟩ serves granted
    exact progload_completes ready alone taken own le (taskOf_pendingTask pending) sound
      (progloadComplete_good pending aligned good inside settled serves granted)
  · intro n from_ to_ a movable serves free reads writes
    have sound := movable.2.2.2
    obtain ⟨host, raised⟩ := copied_frame t from_ to_ sound
    have found : taskOf (copied s.dev t from_ to_) i = some t := by rw [taskOf, host]; exact taskOf_pendingTask pending
    obtain ⟨gone, below⟩ := endShare_alone found alone taken own 0 0
    have keeps := endShare_frame (F := (·.raised)) (.of_frame fun _ _ _ _ _ _ _ _ => rfl) (copied s.dev t from_ to_) i 0 0
    refine ⟨_, (exec_copyComplete i s).trans (happen_ok rfl ready.1 (copyComplete_good pending movable serves free reads writes)
      (keeps.trans (raised.trans ready.2))), gone, fun c => ?_, fun b low => ?_⟩
    · exact (endShare_frame (F := (cellOf · c)) (.of_frame fun _ _ _ _ _ _ _ _ => rfl) ..).trans (cellOf_copied t from_ to_ sound c)
    · exact (below b low).trans (rdB_copied t from_ to_ sound b)

end Sys2Proof.Machine
end

section
/-! SUPPORT. Droop detectors, junction sensors and the power controller (18_clocks_power_supply.md, R568, R570, R584–R587). -/

namespace Sys2Proof.Machine
open Sys2Proof.Safety

theorem exec_droopTrip (g : Nat) (tripped : Bool) (s : State) : exec (.droopTrip g tripped) s =
    happen (.droopTrip g tripped) live (fun d => .ok (droopTrip d g tripped)) s := rfl
theorem exec_stretchDecay (w : Nat) (s : State) : exec (.stretchDecay w) s = happen (.stretchDecay w) clocked (fun d => .ok (stretchDecay d w)) s := rfl
theorem exec_thermalSensorRead (l : List Int) (s : State) : exec (.thermalSensorRead l) s =
    happen (.thermalSensorRead l) live (fun d => .ok (sensorRead d l)) s := rfl
theorem exec_powerQuantum (p1 p10 : Nat) (s : State) : exec (.powerQuantum p1 p10) s =
    happen (.powerQuantum p1 p10) live (fun d => .ok (powerQuantum d p1 p10)) s := rfl

/-- A detector that trips anew counts, and sets the stretch of its wing (R568). -/
theorem droopTrip_new {d : Dev} {g : Nat} (new : (wingOf d (g / 12)).tripped.contains g = false) : droopTrip d g true =
    putWing (putRgf d (clkStr (g / 12)) 55 48 (satAdd 8 (rgf d (clkStr (g / 12)) 55 48) 1)) (g / 12)
      { wingOf d (g / 12) with
        tripped := ((wingOf d (g / 12)).tripped.filter (· != g)) ++ [g], stretch := cdiv d / 2
        prev := wingStretch d (wingOf d (g / 12)), from_ := d.root + 3, decay := false } := by
  have ratio : cdiv (putRgf d (clkStr (g / 12)) 55 48 (satAdd 8 (rgf d (clkStr (g / 12)) 55 48) 1)) = cdiv d :=
    rgf_putRgf_other _ _ _ _ _ _ (by unfold clkStr; omega)
  simp only [droopTrip, new, if_true, Bool.false_eq_true, if_false, ratio]
  rfl

/-- The stretch of an untripped wing decays after an edge. -/
theorem stretchDecay_due {d : Dev} {w : Nat} (free : (wingOf d w).tripped = []) (decays : (wingOf d w).decay = true) : stretchDecay d w =
    putWing d w { wingOf d w with stretch := (wingOf d w).stretch - 1, decay := false } := by
  simp only [stretchDecay, free, decays, List.isEmpty_nil, Bool.and_self, if_true]

/-! ### The sensors -/

/-- A maximum is one of the values, or the first. -/
theorem foldl_max_mem : ∀ (l : List Int) (a : Int), l.foldl max a ∈ a :: l
  | [], a => by simp
  | x :: t, a => by
    rw [List.foldl_cons]
    have := foldl_max_mem t (max a x)
    rcases List.mem_cons.1 this with top | later
    · rw [top]
      rcases max_choice a x with h | h <;> simp [h]
    · exact List.mem_cons_of_mem _ (List.mem_cons_of_mem _ later)

/-- The highest reading is a reading. -/
theorem maxReading_mem {l : List Int} (some_ : l ≠ []) : maxReading l ∈ l := by
  obtain ⟨x, t, rfl⟩ := List.exists_cons_of_ne_nil some_
  have := foldl_max_mem (x :: t) x
  simpa [maxReading] using this

/-- Among 72 readings every die has some, and they are readings. -/
theorem maxReading_die {l : List Int} (all : l.length = 72) {k : Nat} (hk : k < 5) : maxReading (dieReadings l k) ∈ l := by
  have some_ : dieReadings l k ≠ [] := by
    rw [← List.length_pos_iff, dieReadings, List.length_take, List.length_drop]
    split <;> omega
  exact List.drop_subset _ _ (List.take_subset _ _ (maxReading_mem some_))

/-- A reading in a 16-bit field is read back. -/
theorem s16_to16 {x : Int} (low : -32768 ≤ x) (high : x < 32768) : s16 (to16 x % 2 ^ 16) = x := by
  unfold s16 to16
  split <;> omega

/-- A die's register after the readings of die `j`. -/
theorem tnow_readDie (first : Bool) (l : List Int) (d : Dev) (j k : Nat) : tnow (readDie first l d j) k =
    if k = j then s16 (to16 (maxReading (dieReadings l k)) % 2 ^ 16) else tnow d k := by
  unfold tnow readDie
  dsimp only
  by_cases same : k = j
  · subst same
    rw [if_pos rfl, rgf_putRgf_field _ _ _ (by decide) (by decide), rgf_putRgf_same _ _ _ (by decide)]
  · rw [if_neg same, rgf_putRgf_other _ _ _ _ _ _ (by unfold thmDie; omega), rgf_putRgf_other _ _ _ _ _ _ (by unfold thmDie; omega)]

/-- Each die listed shows its highest reading, however often it is listed. -/
theorem tnow_foldl_readDie (first : Bool) (l : List Int) (ks : List Nat) (d : Dev) (k : Nat) : tnow (ks.foldl (readDie first l) d) k =
    if k ∈ ks then s16 (to16 (maxReading (dieReadings l k)) % 2 ^ 16) else tnow d k := by
  induction ks generalizing d with
  | nil => simp
  | cons j t ih =>
    rw [List.foldl_cons, ih, tnow_readDie]
    by_cases same : k = j
    · simp [same]
    · simp [same]

/-- What looks at no register of a die is left by the readings. -/
theorem readDie_frame {β : Type} {F : Dev → β} (hR : ∀ d k v, F (putRg d (thmDie k) v) = F d) (first : Bool) (l : List Int) (ks : List Nat) (d : Dev) :
    F (ks.foldl (readDie first l) d) = F d :=
  foldl_frame F _ (fun _ _ => (hR ..).trans (hR ..)) ks d

/-- The device notes that readings have come, of which `top` is the highest. -/
def noteSensed (d : Dev) (top : Int) : Dev :=
  { d with pwr := { d.pwr with sensed := true, cool := if top < 1520 then some (d.pwr.cool.getD (ticks d)) else none } }

theorem rg_noteSensed (d : Dev) (top : Int) (o : Nat) : rg (noteSensed d top) o = rg d o := rfl

/-- The device that has taken readings in (R586). -/
def sensed (d : Dev) (l : List Int) : Dev := noteSensed ((List.range 5).foldl (readDie (!d.pwr.sensed) l) d) (maxReading l)

theorem rg_sensed_pwrStat (d : Dev) (l : List Int) : rg (sensed d l) pwrStat = rg d pwrStat := by
  rw [sensed, rg_noteSensed]
  exact readDie_frame (F := (rg · pwrStat)) (fun d k v => (rg_putRg ..).trans (if_neg (by unfold thmDie pwrStat; omega))) ..

/-- Readings below 100 °C, in no thermal freeze: the alert is released, and no more. -/
theorem sensorRead_cool {d : Dev} {l : List Int} (all : l.length = 72) (cool : ∀ t ∈ l, t < 1600) (free : rgf d pwrStat 1 1 = 0) :
    sensorRead d l = thermAlertOff (sensed d l) := by
  have some_ : l ≠ [] := by rintro rfl; cases all
  have top : ¬1600 ≤ maxReading l := by have := cool _ (maxReading_mem some_); omega
  have stat := rg_sensed_pwrStat d l
  have free' : ¬rgf (sensed d l) pwrStat 1 1 = 1 := by rw [rgf, stat, ← rgf, free]; decide
  have none_ : hotSensor l = none := by
    have cold : l.zipIdx.find? (fun p => decide (1760 ≤ p.1)) = none := by
      rw [List.find?_eq_none]
      intro p hp
      have := cool p.1 (List.fst_mem_of_mem_zipIdx hp)
      simp only [decide_eq_true_eq]
      omega
    simp [hotSensor, cold]
  unfold sensorRead
  simp only [none_]
  rw [if_neg top]
  simp only [sensed, noteSensed] at free' ⊢
  rw [if_neg free']

/-- The release of the alert is an event, for which there is room. -/
theorem thermAlertOff_frame_room {β : Type} {F : Dev → β} (hF : ∀ d h, F { d with host := h } = F d)
    (hA : ∀ d, F { d with pwr := { d.pwr with thermAlert := false } } = F d) {d : Dev} (room : d.host.held.length < 256) :
    F (thermAlertOff d) = F d := by
  unfold thermAlertOff
  split
  · exact (postEvent_frame_room hF (d := { d with pwr := { d.pwr with thermAlert := false } }) room ..).trans (hA d)
  · rfl

theorem thermAlert_thermAlertOff {d : Dev} (room : d.host.held.length < 256) : (thermAlertOff d).pwr.thermAlert = false := by
  unfold thermAlertOff
  split
  · exact postEvent_frame_room (F := (·.pwr.thermAlert)) (fun _ _ => rfl) (d := { d with pwr := { d.pwr with thermAlert := false } }) room ..
  · next off => exact Bool.eq_false_iff.2 off

/-- What neither the registers of the dies nor the sensors' part of the power state is, readings leave. -/
theorem sensed_frame {β : Type} {F : Dev → β} (hR : ∀ d k v, F (putRg d (thmDie k) v) = F d)
    (hP : ∀ d b c, F { d with pwr := { d.pwr with sensed := b, cool := c } } = F d) (d : Dev) (l : List Int) : F (sensed d l) = F d :=
  (hP ..).trans (readDie_frame hR ..)

/-- What readings below 100 °C make of the device. -/
theorem sensorRead_effect {d : Dev} {l : List Int} (all : l.length = 72) (range : ∀ t ∈ l, -32768 ≤ t ∧ t < 1600) (free : rgf d pwrStat 1 1 = 0)
    (room : EventRoom d) : (∀ k, k < 5 → tnow (sensorRead d l) k = maxReading (dieReadings l k)) ∧ (sensorRead d l).pwr.sensed = true ∧
    (sensorRead d l).pwr.thermAlert = false ∧ (sensorRead d l).pwr.freeze = d.pwr.freeze ∧ (sensorRead d l).cells = d.cells ∧
    (sensorRead d l).mem = d.mem ∧ (sensorRead d l).raised = d.raised := by
  rw [sensorRead_cool all (fun t ht => (range t ht).2) free]
  have held : (sensed d l).host = d.host := sensed_frame (fun _ _ _ => rfl) (fun _ _ _ => rfl) d l
  have fits : (sensed d l).host.held.length < 256 := by rw [held]; omega
  have kept {β : Type} {F : Dev → β} (hF : ∀ d h, F { d with host := h } = F d)
      (hA : ∀ d, F { d with pwr := { d.pwr with thermAlert := false } } = F d) := thermAlertOff_frame_room hF hA fits
  refine ⟨fun k hk => ?_, (kept (F := (·.pwr.sensed)) (fun _ _ => rfl) fun _ => rfl).trans rfl, thermAlert_thermAlertOff fits,
    (kept (F := (·.pwr.freeze)) (fun _ _ => rfl) fun _ => rfl).trans (sensed_frame (F := (·.pwr.freeze)) (fun _ _ _ => rfl) (fun _ _ _ => rfl) d l),
    (kept (F := (·.cells)) (fun _ _ => rfl) fun _ => rfl).trans (sensed_frame (F := (·.cells)) (fun _ _ _ => rfl) (fun _ _ _ => rfl) d l),
    (kept (F := (·.mem)) (fun _ _ => rfl) fun _ => rfl).trans (sensed_frame (F := (·.mem)) (fun _ _ _ => rfl) (fun _ _ _ => rfl) d l),
    (kept (F := (·.raised)) (fun _ _ => rfl) fun _ => rfl).trans (sensed_frame (F := (·.raised)) (fun _ _ _ => rfl) (fun _ _ _ => rfl) d l)⟩
  have shown : tnow (thermAlertOff (sensed d l)) k = tnow (sensed d l) k := kept (F := (tnow · k)) (fun _ _ => rfl) fun _ => rfl
  have noted : tnow (sensed d l) k = tnow ((List.range 5).foldl (readDie (!d.pwr.sensed) l) d) k := by
    rw [tnow, rgf, sensed, rg_noteSensed, ← rgf, ← tnow]
  obtain ⟨low, high⟩ := range _ (maxReading_die all hk)
  rw [shown, noted, tnow_foldl_readDie, if_pos (List.mem_range.2 hk), s16_to16 low (by omega)]

/-! ### The power controller -/

/-- What looks neither at the held events, nor at the registers of the dies, nor at the throttling, is blind to the throttling of a wing. -/
structure ThrottleBlind {β : Type} (F : Dev → β) : Prop where
  host : ∀ d h, F { d with host := h } = F d
  dies : ∀ d k v, F (putRg d (thmDie k) v) = F d
  throttling : ∀ d t r, F { d with pwr := { d.pwr with tgated := t, tr := r } } = F d

/-- A posted event adds at most one to the held ones. -/
theorem held_postEvent {d : Dev} (room : d.host.held.length < 256) (type : Nat) (a b : W64) :
    (postEvent d type a b).host.held.length = d.host.held.length + 1 := by
  have free : ¬256 ≤ d.host.held.length := by omega
  simp [postEvent, holdEvent, free, pushHeld]

/-- The throttling of a wing before its event (R587). -/
def throttled (d : Dev) (w : Nat) : Dev :=
  let e := putRgf d (thmDie w) 23 16 (thermGates d w)
  let chosen := rotate d (12 * w) 12 (tabGet (fun _ => 0) d.pwr.tr w) (thermGates d w)
  { e with pwr := { e.pwr with
      tgated := e.pwr.tgated ++ chosen
      tr := tabPut (fun _ => 0) e.pwr.tr w (nextStart chosen (12 * w) 12 (tabGet (fun _ => 0) d.pwr.tr w)) } }

/-- It ends with at most one event. -/
theorem throttle_eq (d : Dev) (w : Nat) : throttle d w = throttled d w ∨ ∃ k v, throttle d w = postEvent (throttled d w) 7 k v := by
  unfold throttle
  extract_lets
  split
  · exact .inr ⟨_, _, rfl⟩
  · split
    · exact .inr ⟨_, _, rfl⟩
    · exact .inl rfl

theorem throttle_frame_room {β : Type} {F : Dev → β} (blind : ThrottleBlind F) {d : Dev} (room : d.host.held.length < 256) (w : Nat) :
    F (throttle d w) = F d ∧ (throttle d w).host.held.length ≤ d.host.held.length + 1 := by
  have before : F (throttled d w) = F d := (blind.throttling ..).trans (blind.dies ..)
  rcases throttle_eq d w with none_ | ⟨k, v, event⟩
  · rw [none_]
    exact ⟨before, Nat.le_succ _⟩
  · rw [event]
    exact ⟨(postEvent_frame_room blind.host (d := throttled d w) room ..).trans before, (held_postEvent (d := throttled d w) room ..).le⟩

theorem foldl_throttle_frame_room {β : Type} {F : Dev → β} (blind : ThrottleBlind F) : ∀ (l : List Nat) {d : Dev},
    d.host.held.length + l.length ≤ 256 → F (l.foldl throttle d) = F d
  | [], _, _ => rfl
  | w :: t, d, room => by
    have fits : d.host.held.length + (t.length + 1) ≤ 256 := room
    obtain ⟨kept, grows⟩ := throttle_frame_room blind (show d.host.held.length < 256 by omega) w
    exact (foldl_throttle_frame_room blind t (by omega)).trans kept

/-- Gating touches cells alone. -/
theorem gateCell_frame {β : Type} {F : Dev → β} (hC : ∀ d c f, F (modCell d c f) = F d) (d : Dev) (c : Nat) : F (gateCell d c) = F d := by
  unfold gateCell
  dsimp only
  split
  · rfl
  · split
    · exact hC ..
    · exact hC ..

/-- The end of a gating touches cells and trace. -/
theorem ungateCell_frame {β : Type} {F : Dev → β} (hF : ∀ d c g k, F { d with cells := c, gals := g, fresh := k } = F d)
    (hR : ∀ d g v, F (putRg d (trcReg g 0x18) v) = F d) (d : Dev) (c cause : Nat) : F (ungateCell d c cause) = F d := by
  have hC := modCell_frame hF
  have thaw (d : Dev) : F (thawCell d c) = F d := by
    unfold thawCell
    split
    · rfl
    · exact hC ..
  have gap (d : Dev) (dwt : Nat) : F (gapRec d c cause dwt) = F d := (emitRec_frame hF hR ..).trans (flushRun_frame hF hR ..)
  unfold ungateCell
  extract_lets x d₁ d₂
  have first : F d₁ = F d := hC ..
  have second : F d₂ = F d := by
    unfold d₂
    split
    · exact (gap ..).trans first
    · exact first
  split
  · rfl
  · split
    · exact first
    · split
      · exact second
      · exact (thaw _).trans second

/-- The device at a boundary of the power controller, with the galleries that the cap asks for gated (R584). -/
def quantumBegun (d : Dev) (p1 p10 : Nat) : Dev :=
  let chosen := rotate d 0 48 d.pwr.r (capGates d p1 p10)
  let e := putRgf d pwrStat 47 40 (capGates d p1 p10)
  { e with pwr := { e.pwr with quantum := some e.wt, gated := chosen, tgated := [], r := nextStart chosen 0 48 e.pwr.r } }

/-- What throttling, gating and the end of gating leave, a boundary leaves as it begins. -/
theorem powerQuantum_frame_room {β : Type} {F : Dev → β} (blind : ThrottleBlind F)
    (hF : ∀ d c g k, F { d with cells := c, gals := g, fresh := k } = F d) (hR : ∀ d g v, F (putRg d (trcReg g 0x18) v) = F d) {d : Dev} {p1 p10 : Nat}
    (now : ¬(rgf d 0x80_0100 31 0 = 0 ∨ d.wt % rgf d 0x80_0100 31 0 ≠ 0 ∨ d.pwr.quantum = some d.wt)) (room : EventRoom d) :
    F (powerQuantum d p1 p10) = F (quantumBegun d p1 p10) := by
  have throttles := foldl_throttle_frame_room blind (List.range 4) (d := quantumBegun d p1 p10) (by
    show d.host.held.length + 4 ≤ 256
    omega)
  have ungates (l : List Nat) (cause : Nat → Nat) (d : Dev) :
      F (l.foldl (fun d g => (galleryCells g).foldl (fun d c => ungateCell d c (cause g)) d) d) = F d :=
    foldl_frame F _ (fun d g => foldl_frame F _ (fun d c => ungateCell_frame hF hR d c _) _ d) l d
  have gates (l : List Nat) (d : Dev) : F (l.foldl (fun d g => (galleryCells g).foldl gateCell d) d) = F d :=
    foldl_frame F _ (fun d g => foldl_frame F _ (gateCell_frame (modCell_frame hF)) _ d) l d
  unfold powerQuantum
  extract_lets q was thermal n chosen d₁ d₂ d₃ now' d₄
  rw [if_neg now]
  exact (gates ..).trans ((ungates _ (fun g => if thermal.contains g then 2 else 1) _).trans throttles)

/-- The number of galleries that the cap gates fits its field. -/
theorem capGates_lt (d : Dev) (p1 p10 : Nat) : capGates d p1 p10 < 256 := by
  have field : rgf d pwrStat 47 40 < 256 := Nat.mod_lt _ (by decide)
  have gals : (mapGals d).length ≤ 48 := (List.length_filter_le ..).trans (by simp)
  unfold capGates
  dsimp only
  split
  · omega
  · split <;> omega

/-- What a boundary of the power controller makes of the device (R584). -/
theorem powerQuantum_effect {d : Dev} {p1 p10 : Nat}
    (now : ¬(rgf d 0x80_0100 31 0 = 0 ∨ d.wt % rgf d 0x80_0100 31 0 ≠ 0 ∨ d.pwr.quantum = some d.wt)) (room : EventRoom d) :
    (powerQuantum d p1 p10).pwr.quantum = some d.wt ∧ rgf (powerQuantum d p1 p10) pwrStat 47 40 = capGates d p1 p10 ∧
    (powerQuantum d p1 p10).pwr.gated = rotate d 0 48 d.pwr.r (capGates d p1 p10) ∧ (powerQuantum d p1 p10).mem = d.mem ∧
    (powerQuantum d p1 p10).raised = d.raised := by
  have plain {β : Type} {F : Dev → β} (blind : ThrottleBlind F) (hF : ∀ d c g k, F { d with cells := c, gals := g, fresh := k } = F d)
      (hR : ∀ d g v, F (putRg d (trcReg g 0x18) v) = F d) := powerQuantum_frame_room (p1 := p1) (p10 := p10) blind hF hR now room
  have shown := plain (F := (rg · pwrStat)) ⟨fun _ _ => rfl, fun d k v => (rg_putRg ..).trans (if_neg (by unfold thmDie pwrStat; omega)), fun _ _ _ => rfl⟩
    (fun _ _ _ _ => rfl) fun d g v => (rg_putRg ..).trans (if_neg (by unfold trcReg pwrStat; omega))
  refine ⟨plain (F := (·.pwr.quantum)) ⟨fun _ _ => rfl, fun _ _ _ => rfl, fun _ _ _ => rfl⟩ (fun _ _ _ _ => rfl) fun _ _ _ => rfl, ?_,
    plain (F := (·.pwr.gated)) ⟨fun _ _ => rfl, fun _ _ _ => rfl, fun _ _ _ => rfl⟩ (fun _ _ _ _ => rfl) fun _ _ _ => rfl,
    plain (F := (·.mem)) ⟨fun _ _ => rfl, fun _ _ _ => rfl, fun _ _ _ => rfl⟩ (fun _ _ _ _ => rfl) fun _ _ _ => rfl,
    plain (F := (·.raised)) ⟨fun _ _ => rfl, fun _ _ _ => rfl, fun _ _ _ => rfl⟩ (fun _ _ _ _ => rfl) fun _ _ _ => rfl⟩
  have begun_ : rg (quantumBegun d p1 p10) pwrStat = rg (putRgf d pwrStat 47 40 (capGates d p1 p10)) pwrStat := rfl
  rw [rgf, shown, begun_, ← rgf, rgf_putRgf_same _ _ _ (by decide)]
  exact Nat.mod_eq_of_lt (capGates_lt ..)

/-! ### The statement -/

/-- Settles O56: the events of the sensors and of the power controller have room, so they only join the held ones; throttling and gating leave PWR_STAT. -/
theorem clocksAndSensors : Obligations.ClocksAndSensors := by
  unfold Obligations.ClocksAndSensors
  intro s calm
  refine ⟨fun g lives hg new => ?_, fun w runs hw free decays => ?_, fun l lives all range free room => ?_, fun p1 p10 lives h1 h10 => ?_⟩
  · exact (exec_droopTrip g true s).trans (happen_ok hg lives (congrArg _ (droopTrip_new new)) calm)
  · exact (exec_stretchDecay w s).trans (happen_ok (decide_eq_true hw) runs (congrArg _ (stretchDecay_due free decays)) calm)
  · obtain ⟨shown, sensed_, alert, freeze, cells, mem, raised⟩ := sensorRead_effect all range free room
    have wf : (Instr.thermalSensorRead l).wf = true := by
      simp only [Instr.wf, all, beq_self_eq_true, Bool.true_and, List.all_eq_true, Bool.and_eq_true, decide_eq_true_eq]
      intro t ht
      have := range t ht
      omega
    exact ⟨_, (exec_thermalSensorRead l s).trans (happen_ok wf lives rfl (raised.trans calm)), shown, sensed_, alert, freeze, cells, mem⟩
  · have wf : (Instr.powerQuantum p1 p10).wf = true :=
      Bool.and_eq_true_iff.2 ⟨decide_eq_true h1, decide_eq_true h10⟩
    refine ⟨fun none_ => ?_, fun some_ boundary new room => ?_⟩
    · have eff : powerQuantum s.dev p1 p10 = s.dev := if_pos (none_.imp_right .inl)
      exact (exec_powerQuantum p1 p10 s).trans (happen_ok wf lives (congrArg _ eff) calm)
    · have now : ¬(rgf s.dev 0x80_0100 31 0 = 0 ∨ s.dev.wt % rgf s.dev 0x80_0100 31 0 ≠ 0 ∨ s.dev.pwr.quantum = some s.dev.wt) := by
        rintro (h | h | h)
        · exact some_ h
        · exact h boundary
        · exact new h
      obtain ⟨quantum, stat, gated, mem, raised⟩ := powerQuantum_effect (p1 := p1) (p10 := p10) now room
      exact ⟨_, (exec_powerQuantum p1 p10 s).trans (happen_ok wf lives rfl (raised.trans calm)), quantum, stat, gated, mem⟩

end Sys2Proof.Machine
end

section
/-! SUPPORT. A dump's event goes to the event queue at once when 256 events wait, and the entry may stand below the dump (14_host_link.md, 17_observation.md,
R479, R560). With every channel of the depot fitted at the largest size that its register holds, the depot spans the window of host memory and goes on above it,
so that a dump above that window is placed in the depot. The last statement, that a dump changes no byte below its base, fails in such a state. -/

namespace Sys2Proof.Machine
open Sys2Proof.Safety

/-- A dump is due at 2^47 in a depot of 8 × 65,535 GiB; 256 events of type 1 wait, the event queue is enabled at offset 0 of host memory, and the link is up. -/
def dumpOverHost : Dev :=
  { coldDev with
    actMap := 0
    reg := [(0x20_0100, 1 <<< 63), (0x20_1000, 2 <<< 8), (0x305_0000, 0x8000_0000_0000), (0x305_0008, 1), (0x30A_0000, 0xFF00_0000_FFFF)]
    dump := some { port := 0, bundle := 0, wt := 0, task := none }
    host := { hostCold with held := List.replicate 256 { dev := 0, type := 1, stamp := 0, wt := 0, arg0 := 0, arg1 := 0 } } }

theorem exec_dumpDone (ok : Bool) (s : State) : exec (.dumpDone ok) s =
    happen (.dumpDone ok) live (fun d => let r := dumpDone d ok; .ok (endShareOf r.2 r.1 0 0)) s := rfl

/-- The dump belongs to no task, and no fault is raised at its end. -/
theorem dumpDone_dumpOverHost : (dumpDone dumpOverHost true).1 = none ∧ (dumpDone dumpOverHost true).2.raised = [] := by decide +kernel

/-- Byte 7 of the first entry of the event queue holds the type of the event. -/
theorem rdB_dumpDone_dumpOverHost : rdB (dumpDone dumpOverHost true).2 (hostBase + 7) = 1 := by decide +kernel

theorem place_dumpOverHost : place dumpOverHost (dumpBase dumpOverHost) = .depot (2 ^ 47 - depotBase) ∧
    place dumpOverHost (dumpBase dumpOverHost + dumpLen - 1) = .depot (2 ^ 47 - depotBase + dumpLen - 1) := by decide +kernel

/-- The end of the dump of `dumpOverHost`. -/
theorem exec_dumpDone_dumpOverHost :
    exec (.dumpDone true) ⟨[], dumpOverHost⟩ = .next { (⟨[], dumpOverHost⟩ : State) with dev := (dumpDone dumpOverHost true).2 } := by
  obtain ⟨noTask, noFault⟩ := dumpDone_dumpOverHost
  have eff : endShareOf (dumpDone dumpOverHost true).2 (dumpDone dumpOverHost true).1 0 0 = (dumpDone dumpOverHost true).2 := by rw [noTask]; rfl
  rw [exec_dumpDone]
  refine happen_ok rfl rfl (d := (dumpDone dumpOverHost true).2) ?_ noFault
  exact congrArg _ eff

/-- A command that changes a byte below an address. -/
theorem not_keptBelow {c : Instr} {s t : State} {d : Dev} {a b : Nat} (ex : exec c s = .next { s with dev := d })
    (changed : rdB d a ≠ rdB s.dev a) (below : a < b) (next : exec c s = .next t) : ¬∀ a, a < b → rdB t.dev a = rdB s.dev a := by
  rw [ex] at next
  cases next
  exact fun kept => changed (kept a below)

/-- Refutes O53: at the end of the dump of `dumpOverHost` the event that waits longest is written at the base of host memory, below the dump. -/
theorem not_resetsAndDumpsEnd : ¬ Obligations.ResetsAndDumpsEnd := by
  unfold Obligations.ResetsAndDumpsEnd
  intro h
  obtain ⟨first, last⟩ := place_dumpOverHost
  obtain ⟨-, -, -, dump⟩ := h ⟨[], dumpOverHost⟩ rfl rfl
  obtain ⟨t, next, -, -, -, below⟩ := dump _ _ _ rfl (by decide +kernel) rfl first last true
  exact not_keptBelow exec_dumpDone_dumpOverHost (by rw [rdB_dumpDone_dumpOverHost]; decide +kernel) (by decide +kernel) next below

end Sys2Proof.Machine
end

section
/-! SUPPORT. Resets and the boot (16_faults_and_recovery.md, 18_clocks_power_supply_and_boot.md, R522, R577, R595). -/

namespace Sys2Proof.Machine
open Sys2Proof.Safety

theorem exec_modRstNAssert (s : State) : exec .modRstNAssert s = happen .modRstNAssert (fun _ => true) (fun d => .ok (assertReset d)) s := rfl
theorem exec_coldReset (s : State) : exec .coldReset s = happen .coldReset (fun _ => true) (fun d => .ok (coldReset d)) s := rfl
theorem exec_bootComplete (ms : List (Option Dimm)) (burnt : Nat) (s : State) : exec (.bootComplete ms burnt) s =
    happen (.bootComplete ms burnt) live (fun d => .ok (bootComplete d ms burnt)) s := rfl

/-! ### The cold reset -/

/-- Nothing runs on the flash: a cut changes nothing. -/
theorem cutUpdate_idle {d : Dev} (noUpd : d.sec.upd = none) : cutUpdate d = d := by rw [cutUpdate, noUpd]

theorem cutMailbox_idle {d : Dev} (noOp : d.sec.mbox = none) : cutMailbox d = d := by rw [cutMailbox, noOp]

section FlashFrame
variable {β : Type} {F : Dev → β} (hF : ∀ (d : Dev) k fl bl, F { d with fresh := k, sec := { d.sec with flash := fl, blank := bl } } = F d)
include hF

theorem cutMailbox_frame (d : Dev) : F (cutMailbox d) = F d := by
  unfold cutMailbox
  split
  · split
    · rename_i op _ _ _
      obtain ⟨k, drawn⟩ := drawBytes_eq (mbRange d op).2 d
      unfold flashUnspec
      dsimp only
      rw [drawn]
      exact hF d k _ d.sec.blank
    · rfl
  · rfl

theorem cutUpdate_frame (d : Dev) : F (cutUpdate d) = F d := by
  unfold cutUpdate
  split
  · split
    · exact hF d (d.fresh + 1) _ _
    · rfl
  · rfl

theorem cutFlash_frame (d : Dev) : F (cutUpdate (cutMailbox d)) = F d := (cutUpdate_frame hF _).trans (cutMailbox_frame hF d)

end FlashFrame

theorem coldReset_eq {d : Dev} (powered : d.pwr.on = true) (held : d.pwr.rstN = false) :
    coldReset d = { coldOf d with pwr := { (coldOf d).pwr with rstN := true }, sec := { (coldOf d).sec with tap := tapRise (coldOf d).sec.tap } } := by
  rw [coldReset, powered, held]
  rfl

theorem mem_coldOf (d : Dev) : (coldOf d).mem = tabClear (fun a => !decide (hostBase ≤ a)) d.mem := by
  have kept : (coldOf d).mem = (cutUpdate (cutMailbox d)).mem.filter fun e => decide (hostBase ≤ e.1) := rfl
  rw [kept, cutFlash_frame (F := (·.mem)) (fun _ _ _ _ => rfl)]
  simp [tabClear]

theorem on_coldOf (d : Dev) : (coldOf d).pwr.on = d.pwr.on := cutFlash_frame (F := (·.pwr.on)) (fun _ _ _ _ => rfl) d

theorem fuses_coldOf (d : Dev) : (coldOf d).sec.fuses = d.sec.fuses := cutFlash_frame (F := (·.sec.fuses)) (fun _ _ _ _ => rfl) d

theorem cables_coldOf (d : Dev) : (coldOf d).fab.cables = d.fab.cables := cutFlash_frame (F := (·.fab.cables)) (fun _ _ _ _ => rfl) d

theorem flash_coldOf {d : Dev} (noUpd : d.sec.upd = none) (noOp : d.sec.mbox = none) : (coldOf d).sec.flash = d.sec.flash := by
  have kept : (coldOf d).sec.flash = (cutUpdate (cutMailbox d)).sec.flash := rfl
  rw [kept, cutMailbox_idle noOp, cutUpdate_idle noUpd]

/-! ### The boot -/

/-- What the steps of a boot after the start of the steward leave: READY and BOOTFAIL, the flash, the state of the life cycle, the alarm and the faults. -/
def bootView (d : Dev) : W64 × Tab (Option Byte) × Option Boot × Nat × Option AlmTab × List FaultReq :=
  (rg d 0, d.sec.flash, d.sec.boot, lcs d, d.alm, d.raised)

theorem bootView_putRg (d : Dev) {o : Nat} (v : W64) (ne : 0 ≠ o) : bootView (putRg d o v) = bootView d := by
  unfold bootView
  rw [rg_putRg, if_neg ne]
  rfl

theorem bootView_putRgf (d : Dev) {o : Nat} (hi lo v : Nat) (ne : 0 ≠ o) : bootView (putRgf d o hi lo v) = bootView d := bootView_putRg d _ ne

theorem bootView_putBytes (d : Dev) {o : Nat} (bs : List Byte) (pos : 0 < o) : bootView (putBytes d o bs) = bootView d :=
  foldl_frame bootView _ (fun d _ => bootView_putRg d _ (by omega)) _ d

theorem bootView_showFuses (d : Dev) : bootView (showFuses d) = bootView d := by
  unfold showFuses
  extract_lets f a b
  have shown : bootView b = bootView d := by
    unfold b a
    rw [bootView_putRg _ _ (by decide), bootView_putRgf _ _ _ _ (by decide), bootView_putRgf _ _ _ _ (by decide), bootView_putRgf _ _ _ _ (by decide)]
  split
  · exact (bootView_putBytes _ _ (by decide)).trans shown
  · exact shown

theorem bootView_newChallenge (d : Dev) : bootView (newChallenge d) = bootView d := by
  unfold newChallenge
  extract_lets r
  exact bootView_putBytes _ _ (by decide)

/-- The steward of a slot runs, and the rest of the view is kept. -/
theorem bootView_startSteward (d : Dev) (k : Nat) :
    ∃ b : Boot, b.slot = k ∧ bootView (startSteward d k) = bootView { d with sec := { d.sec with boot := some b } } := by
  unfold startSteward
  extract_lets b svn ver m
  refine ⟨b, rfl, ?_⟩
  rw [bootView_newChallenge, bootView_putBytes _ _ (by decide), bootView_putRg _ _ (by decide), bootView_putRgf _ _ _ _ (by decide), bootView_showFuses]

theorem bootView_ldgUse (d : Dev) (k : Nat) : bootView (ldgUse d k) = bootView d := by
  unfold ldgUse
  extract_lets a bs
  refine (bootView_putRg a _ (by decide)).trans ?_
  unfold a ldgMarks
  rw [bootView_putRgf _ _ _ _ (by decide), bootView_putRgf _ _ _ _ (by decide)]

theorem bootView_loadRoute (d : Dev) (bs : List Byte) : bootView (loadRoute d bs) = bootView d := by
  unfold loadRoute
  extract_lets put
  have routed (d : Dev) {o : Nat} (k : Nat) (ne : 0 ≠ o) : bootView (put d o k) = bootView d := bootView_putRg d _ ne
  rw [foldl_frame bootView _ fun d k => routed d _ (by omega), routed _ _ (by decide), routed _ _ (by decide)]

theorem bootView_loadPower (d : Dev) (bs : List Byte) : bootView (loadPower d bs) = bootView d := by
  unfold loadPower
  extract_lets
  rw [bootView_putRgf _ _ _ _ (by decide), bootView_putRg _ _ (by decide)]

theorem bootView_cellOut (d : Dev) (c : Nat) : bootView (cellOut d c) = bootView d :=
  flushRun_frame (F := bootView) (fun _ _ _ _ => rfl) (fun d g v => bootView_putRg d v (by unfold trcReg; omega)) d c

theorem bootView_thawCell (d : Dev) (c : Nat) : bootView (thawCell d c) = bootView d := by
  unfold thawCell
  split <;> rfl

theorem bootView_wipeMem (d : Dev) (p : Nat → Bool) : bootView (wipeMem d p) = bootView d := rfl

theorem bootView_modPort (d : Dev) (p : Nat) (f : Port → Port) : bootView (modPort d p f) = bootView d := rfl

theorem bootView_flags (d : Dev) (v : Nat) : bootView { d with sec := { d.sec with flags := v } } = bootView d := rfl

theorem bootView_applyMap (d : Dev) (m : BitVec 1024) : bootView (applyMap d m) = bootView d := by
  unfold applyMap
  extract_lets old cells gs stores ports
  have cellsKept : bootView cells = bootView d := by
    refine foldl_frame bootView _ (fun d c => ?_) _ d
    dsimp only
    split
    · exact bootView_cellOut d c
    · split
      · exact bootView_thawCell d c
      · rfl
  have storesKept : bootView stores = bootView cells := by
    unfold stores
    split
    · rfl
    · exact bootView_wipeMem _ _
  have portsKept : bootView ports = bootView stores := by
    unfold ports
    exact foldl_frame bootView _ (fun d p => bootView_modPort d p _) _ _
  exact portsKept.trans (storesKept.trans cellsKept)

theorem bootView_loadLedger (d : Dev) : bootView (loadLedger d) = bootView d := by
  unfold loadLedger
  extract_lets a bs b
  have loaded : bootView b = bootView d := by
    unfold b a
    rw [bootView_loadPower, bootView_loadRoute, bootView_ldgUse]
  exact (bootView_applyMap _ _).trans ((bootView_flags b _).trans loaded)

theorem bootView_loadDepot (d : Dev) (ms : List (Option Dimm)) : bootView (loadDepot d ms) = bootView d := by
  unfold loadDepot
  dsimp only
  split <;> exact bootView_putRg d _ (by decide)

theorem bootView_commitSvn (d : Dev) (svn n : Nat) (commit : Bool) : bootView (commitSvn d svn commit n) = bootView d := by
  unfold commitSvn
  split
  · exact bootView_showFuses _
  · rfl

/-- Only a device whose life cycle has ended its use clears its owner at the boot. -/
theorem finishClearing_early {d : Dev} (early : lcs d < 3) : finishClearing d = d := by
  unfold finishClearing
  simp [early]

/-- A boot without a slot that passes. -/
theorem bootComplete_fail {d : Dev} (boots : booting d = true) (noSlot : bootSlot d = none) (ms : List (Option Dimm)) (n : Nat) :
    bootComplete d ms n = putRgf d 0 1 1 1 := by
  unfold bootComplete
  rw [boots, noSlot]
  rfl

/-- A boot from a slot, on a device whose life cycle goes on and whose links have trained: the view of its end. -/
theorem bootView_bootComplete {d : Dev} {k : Nat} (boots : booting d = true) (slot : bootSlot d = some k) (early : lcs d < 3) (trained : linksTrained d = true)
    (ms : List (Option Dimm)) (n : Nat) : ∃ b : Boot, b.slot = k ∧
      bootView (bootComplete d ms n) = (setFld (rg d 0) 0 0 1, d.sec.flash, some b, lcs d, none, d.raised) := by
  obtain ⟨b, slotB, started⟩ := bootView_startSteward d k
  refine ⟨b, slotB, ?_⟩
  have goes : lcs d ≠ 4 := by omega
  have still : finishClearing (startSteward d k) = startSteward d k := by
    refine finishClearing_early ?_
    have : lcs (startSteward d k) = lcs d := congrArg (·.2.2.2.1) started
    omega
  unfold bootComplete
  rw [boots, slot]
  simp only [Bool.not_true, Bool.false_eq_true, if_false, if_neg goes, trained, still]
  rw [bootView_commitSvn]
  have loaded := ((bootView_loadDepot _ ms).trans (bootView_loadLedger _)).trans started
  generalize loadDepot (loadLedger (startSteward d k)) ms = e at loaded ⊢
  unfold bootView at loaded ⊢
  simp only [Prod.mk.injEq] at loaded
  obtain ⟨reg, flash, boot, life, -, raised⟩ := loaded
  have ready : rg (putRgf e 0 0 0 1) 0 = setFld (rg e 0) 0 0 1 := by simp [putRgf]
  simp only [Prod.mk.injEq]
  exact ⟨ready.trans (congrArg (setFld · 0 0 1) reg), flash, boot, life, trivial, raised⟩

/-! ### The statement -/

/-- Settles O57. A cold reset keeps what `coldOf` keeps of the device after its flash operations are cut; the steps of a boot keep the view `bootView`. -/
theorem coldResetAndBoot : Obligations.ColdResetAndBoot := by
  unfold Obligations.ColdResetAndBoot
  intro s raised
  refine ⟨fun up => ?_, fun powered held => ?_, fun ms n up boots eight => ⟨fun noSlot => ?_, fun k slot early trained => ?_⟩⟩
  · have eff : assertReset s.dev = { s.dev with pwr := { s.dev.pwr with rstN := false } } := by
      unfold assertReset
      exact if_pos up
    rw [Yields, exec_modRstNAssert]
    exact happen_ok rfl rfl (congrArg _ eff) raised
  · have next : exec .coldReset s = .next { s with dev := coldReset s.dev } := by
      rw [exec_coldReset]
      refine happen_ok rfl rfl rfl ?_
      rw [coldReset_eq powered held]
      rfl
    refine ⟨_, next, ?_⟩
    show live (coldReset s.dev) = true ∧ _
    rw [coldReset_eq powered held]
    refine ⟨?_, rfl, rfl, rfl, fuses_coldOf _, cables_coldOf _, ?_, fun a => ?_, flash_coldOf⟩
    · show ((coldOf s.dev).pwr.on && true) = true
      rw [on_coldOf, powered]
      rfl
    · show (fld (tabGet regReset [] 0).toNat 0 0 == 1) = false
      decide
    · show tabGet memDefault (coldOf s.dev).mem a = _
      rw [mem_coldOf, tabGet_clear]
      by_cases host : hostBase ≤ a
      · simp [host, rdB]
      · simp [host, memDefault]
  · rw [Yields, exec_bootComplete]
    exact happen_ok (by simp [Instr.wf, eight]) up (congrArg _ (bootComplete_fail boots noSlot ms n)) raised
  · obtain ⟨b, slotB, ended⟩ := bootView_bootComplete boots slot early trained ms n
    unfold bootView at ended
    simp only [Prod.mk.injEq] at ended
    obtain ⟨reg, flash, boot, -, alm, faults⟩ := ended
    have next : exec (.bootComplete ms n) s = .next { s with dev := bootComplete s.dev ms n } := by
      rw [exec_bootComplete]
      exact happen_ok (by simp [Instr.wf, eight]) up rfl (faults.trans raised)
    refine ⟨_, next, ?_, ?_, ?_, alm, flash⟩
    · show (rgf _ _ _ _ == 1) = true
      rw [rgf, reg, fld_setFld_same _ _ (by decide)]
      rfl
    · have noFail : rgf s.dev 0 1 1 ≠ 1 := by
        simp only [booting, bootFail, Bool.and_eq_true, Bool.not_eq_true', beq_eq_false_iff_ne] at boots
        exact boots.1.2
      show (rgf _ _ _ _ == 1) = false
      rw [rgf, reg, fld_setFld_other _ _ (by decide) (.inr (by decide))]
      exact beq_eq_false_iff_ne.2 noFail
    · show (bootComplete s.dev ms n).sec.boot.map (·.slot) = some k
      rw [boot, ← slotB]
      rfl

end Sys2Proof.Machine
end

section
/-! SUPPORT. The flash mailbox (20_module_and_connectors.md, R627, R628, R634): a write of MB_FCTL from either side, and the end of an operation. -/

namespace Sys2Proof.Machine
open Sys2Proof.Safety

theorem exec_flashErase (bus : Bool) (s : State) : exec (.flashErase bus) s = happen (.flashErase bus) (mailboxReached bus) (fun d => mailboxWrite d 1 bus) s := rfl
theorem exec_flashProgram (bus : Bool) (s : State) :
    exec (.flashProgram bus) s = happen (.flashProgram bus) (mailboxReached bus) (fun d => mailboxWrite d 2 bus) s := rfl
theorem exec_flashRead (bus : Bool) (s : State) : exec (.flashRead bus) s = happen (.flashRead bus) (mailboxReached bus) (fun d => mailboxWrite d 3 bus) s := rfl
theorem exec_flashOperationDone (ok : Bool) (s : State) :
    exec (.flashOperationDone ok) s = happen (.flashOperationDone ok) (fun d => d.pwr.on) (fun d => .ok (mailboxDone d ok)) s := rfl

/-! ### A write transaction of the management bus -/

theorem mgmtWrite_short (d : Dev) (off : Nat) {bs : List Byte} (short : bs.length < 8) : mgmtWrite d off bs = .ok d := by
  unfold mgmtWrite
  rw [Nat.div_eq_of_lt short]
  rfl

theorem mgmtWrite_one (d : Dev) (off : Nat) {bs : List Byte} (whole : 8 ≤ bs.length) (one : bs.length < 16) :
    mgmtWrite d off bs = mgmtReg d off (w64 (leNat (bs.take 8))) := by
  unfold mgmtWrite
  rw [show bs.length / 8 = 1 from by omega]
  exact bind_pure _

/-- The bus writes a register outside the frames of the unit ports, without staged bits: no lock stops it. -/
theorem writeReg_mgmt {d : Dev} {off : Nat} {v : W64} {r : RegRow} (hr : regAt off = some r) (plain : r.st = 0) (out : off < 0x200_0000 ∨ 0x240_0000 ≤ off) :
    writeReg d .mgmt off v = .ok ((writeOwn d .mgmt off v).getD (writeByCode d off r v)) := by
  have frame : ¬(0x200_0000 ≤ off ∧ off < 0x240_0000) := by omega
  cases own : writeOwn d .mgmt off v <;> simp [writeReg, hr, plain, frame, own]

/-! ### The operation is taken -/

/-- Operation `op` stands in MB_FCTL and is busy. -/
def mboxTaken (d : Dev) (op : Nat) : Dev :=
  { putRgf (putRgf d 0xC0_2000 1 0 op) 0xC0_2000 7 7 1 with sec := { d.sec with mbox := some (op, d.sec.upd.isSome) } }

theorem writeMbox_idle {d : Dev} {op : Nat} (idle : rgf d 0xC0_2000 7 7 = 0) (pos : 0 < op) (lt : op < 4) : writeMbox d (w64 op) = mboxTaken d op := by
  have named : fld (w64 op).toNat 1 0 = op := by interval_cases op <;> decide
  unfold writeMbox
  rw [if_neg (by omega), named]
  exact if_neg pos.ne'

theorem rgf_mboxTaken (d : Dev) {op : Nat} (lt : op < 4) : rgf (mboxTaken d op) 0xC0_2000 7 7 = 1 ∧ rgf (mboxTaken d op) 0xC0_2000 1 0 = op := by
  have word (hi lo : Nat) : rgf (mboxTaken d op) 0xC0_2000 hi lo = rgf (putRgf (putRgf d 0xC0_2000 1 0 op) 0xC0_2000 7 7 1) 0xC0_2000 hi lo := rfl
  rw [word, word, rgf_putRgf_same _ _ _ (by decide), rgf_putRgf_field _ _ _ (by decide) (by decide), rgf_putRgf_same _ _ _ (by decide)]
  exact ⟨rfl, Nat.mod_eq_of_lt lt⟩

theorem writeOwn_mbFctl (d : Dev) (src : Src) (v : W64) : writeOwn d src 0xC0_2000 v = some (writeMbox d v) := by simp [writeOwn]

theorem mbFctl_plain : (regAt 0xC0_2000).map (·.st) = some 0 := by decide +kernel

/-- A write of MB_FCTL from the host link. -/
theorem mailboxWrite_link {s : State} {op : Nat} (w : Writable s 0xC0_2000) (idle : rgf s.dev 0xC0_2000 7 7 = 0) (pos : 0 < op) (lt : op < 4) :
    mailboxWrite s.dev op false = .ok (mboxTaken s.dev op) := by
  obtain ⟨-, -, ready, free, -, known, alone⟩ := w
  have written := writeReg_own free mbFctl_plain (.inl (by decide)) (writeOwn_mbFctl s.dev .link (w64 op))
  rw [writeMbox_idle idle pos lt] at written
  show linkWrite s.dev 0xC0_2000 (w64 op) = _
  simp [linkWrite, hostReg, alone, ready, written]
  intro n
  simp [n] at known

/-- A write of MB_FCTL from the management bus. -/
theorem mailboxWrite_bus {d : Dev} {op : Nat} (serves : mgmtServes d 0xC0_2000 1 = true) (idle : rgf d 0xC0_2000 7 7 = 0) (pos : 0 < op) (lt : op < 4) :
    mailboxWrite d op true = .ok (noteBus (mboxTaken d op) 0xC0_2000 (w64 op)) := by
  obtain ⟨r, hr, plain⟩ := Option.map_eq_some_iff.1 mbFctl_plain
  have bytes : leNat ((leBytes 8 op).take 8) = op := by
    rw [List.take_of_length_le (by simp), leNat_leBytes]
    omega
  have named : mgmtServes d 0xC0_2000 (w64 op) = true := serves
  have notBusy : opBusy d 0xC0_2000 = false := by simp [opBusy, idle]
  show mgmtWrite d 0xC0_2000 (leBytes 8 op) = _
  rw [mgmtWrite_one _ _ (by simp) (by simp), bytes, mgmtReg, if_pos named, busReg, writeReg_mgmt hr plain (.inl (by decide)), writeOwn_mbFctl,
    Option.getD_some, writeMbox_idle idle pos lt, notBusy]
  rfl

/-- Each of the three operations is taken from either side. -/
theorem mailbox_takes {c : Instr} {s : State} {op : Nat} {bus : Bool} (ex : exec c s = happen c (mailboxReached bus) (fun d => mailboxWrite d op bus) s)
    (wf : c.wf = true) (alive : live s.dev = true) (calm : s.dev.raised = []) (link : bus = false → Writable s 0xC0_2000)
    (served : bus = true → mgmtServes s.dev 0xC0_2000 1 = true) (idle : rgf s.dev 0xC0_2000 7 7 = 0) (pos : 0 < op) (lt : op < 4) :
    ∃ t, exec c s = .next t ∧ rgf t.dev 0xC0_2000 7 7 = 1 ∧ rgf t.dev 0xC0_2000 1 0 = op ∧ t.dev.sec.mbox = some (op, s.dev.sec.upd.isSome) ∧
      t.dev.sec.flash = s.dev.sec.flash ∧ t.dev.mem = s.dev.mem := by
  obtain ⟨busy, named⟩ := rgf_mboxTaken s.dev lt
  cases bus with
  | false =>
    have w := link rfl
    exact ⟨_, ex.trans (happen_ok wf w.1 (mailboxWrite_link w idle pos lt) calm), busy, named, rfl, rfl, rfl⟩
  | true =>
    have powered : s.dev.pwr.on = true := by
      simp only [live, Bool.and_eq_true] at alive
      exact alive.1
    exact ⟨_, ex.trans (happen_ok wf powered (mailboxWrite_bus (served rfl) idle pos lt) calm), busy, named, rfl, rfl, rfl⟩

/-! ### The bytes of the flash and of the buffer -/

/-- The bytes that a run of writes leaves in the flash. -/
theorem tabGet_flashWrite (f : Tab (Option Byte)) (a i : Nat) (bs : List Byte) :
    tabGet (fun _ => none) (bs.zipIdx.foldl (fun f b => tabPut (fun _ => none) f (a + b.2) (some b.1)) f) (a + i) =
      if lt : i < bs.length then some bs[i] else tabGet (fun _ => none) f (a + i) := by
  induction bs using List.reverseRecOn with
  | nil => simp
  | append_singleton bs b ih =>
    rw [List.zipIdx_append, List.foldl_append]
    simp only [List.zipIdx_singleton, List.foldl_cons, List.foldl_nil, tabGet_put, Nat.zero_add]
    by_cases last : i = bs.length
    · subst last
      simp
    · have ne : a + i ≠ a + bs.length := by omega
      rw [if_neg ne, ih]
      by_cases lt : i < bs.length
      · simp [lt, Nat.lt_succ_of_lt lt, List.getElem_append_left]
      · have out : ¬i < bs.length + 1 := by omega
        simp [lt, out]

theorem flashRead_flashWrite (d : Dev) (a : Nat) (bs : List Byte) : flashRead (flashWrite d a bs) a bs.length = bs := by
  refine List.ext_getElem (by simp [flashRead]) fun i hi lt => ?_
  have byte : flashByte (flashWrite d a bs) (a + i) = bs[i] := by
    unfold flashByte flashWrite
    rw [tabGet_flashWrite, dif_pos lt]
    rfl
  simp [flashRead, byte]

/-- An erased sector reads as ones. -/
theorem flashByte_flashErase (d : Dev) {a i : Nat} (lt : i < 4096) : flashByte (flashErase d a) (a / 4096 * 4096 + i) = 0xFF := by
  have sector : (a / 4096 * 4096 + i) / 4096 = a / 4096 := by omega
  unfold flashByte flashErase flashClear
  dsimp only
  rw [tabGet_clear, sector]
  simp

/-- A number of `n` bytes is the number of its bytes. -/
theorem leBytes_leNat (bs : List Byte) : leBytes bs.length (leNat bs) = bs := by
  refine List.ext_getElem (by simp) fun i hi lt => ?_
  simp only [leBytes, List.getElem_map, List.getElem_range]
  clear hi
  induction bs generalizing i with
  | nil => simp at lt
  | cons b t ih =>
    cases i with
    | zero =>
      refine BitVec.eq_of_toNat_eq ?_
      simp [leNat]
      omega
    | succ i =>
      have rest : (b.toNat + 256 * leNat t) >>> (8 * (i + 1)) = leNat t >>> (8 * i) := by
        rw [Nat.mul_add, Nat.add_comm (8 * i), Nat.shiftRight_add]
        congr 1
        simp [Nat.shiftRight_eq_div_pow]
        omega
      rw [leNat, rest, List.getElem_cons_succ]
      exact ih i (by simpa using lt)

theorem leNat_lt : ∀ bs : List Byte, leNat bs < 2 ^ (8 * bs.length)
  | [] => by simp [leNat]
  | b :: t => by
    have := leNat_lt t
    have := b.isLt
    rw [leNat, List.length_cons, Nat.mul_add, Nat.pow_add]
    omega

/-- Eight bytes in a word. -/
theorem leBytes_word {bs : List Byte} (eight : bs.length = 8) : leBytes 8 (w64 (leNat bs)).toNat = bs := by
  have lt := leNat_lt bs
  rw [eight] at lt
  have word : (w64 (leNat bs)).toNat = leNat bs := Nat.mod_eq_of_lt lt
  rw [word]
  simpa [eight] using leBytes_leNat bs

/-- Words written to consecutive registers. -/
theorem rg_putRg_range (f : Nat → W64) (o : Nat) (n : Nat) (d : Dev) {j : Nat} (lt : j < n) :
    rg ((List.range n).foldl (fun d k => putRg d (o + 8 * k) (f k)) d) (o + 8 * j) = f j := by
  induction n with
  | zero => omega
  | succ n ih =>
    rw [List.range_succ, List.foldl_append, List.foldl_cons, List.foldl_nil, rg_putRg]
    by_cases last : j = n
    · rw [if_pos (by omega), last]
    · rw [if_neg (by omega)]
      exact ih (by omega)

/-- A list is its pieces of eight. -/
theorem flatMap_chunks (bs : List Byte) (n : Nat) : ((List.range n).flatMap fun k => (bs.drop (8 * k)).take 8) = bs.take (8 * n) := by
  induction n with
  | zero => simp
  | succ n ih =>
    rw [List.range_succ, List.flatMap_append, ih, Nat.mul_add, List.take_add]
    simp

/-- Bytes put into registers are read back. -/
theorem regBytes_putBytes (d : Dev) (o : Nat) {bs : List Byte} {n : Nat} (len : bs.length = 8 * n) : regBytes (putBytes d o bs) o n = bs := by
  have chunk (k : Nat) (lt : k < n) : leBytes 8 (rg (putBytes d o bs) (o + 8 * k)).toNat = (bs.drop (8 * k)).take 8 := by
    have word : rg (putBytes d o bs) (o + 8 * k) = w64 (leNat ((bs.drop (8 * k)).take 8)) :=
      rg_putRg_range (fun k => w64 (leNat ((bs.drop (8 * k)).take 8))) o _ d (by omega)
    rw [word]
    refine leBytes_word ?_
    rw [List.length_take, List.length_drop]
    omega
  have chunks : regBytes (putBytes d o bs) o n = (List.range n).flatMap fun k => (bs.drop (8 * k)).take 8 :=
    List.flatMap_congr fun k hk => chunk k (List.mem_range.1 hk)
  rw [chunks, flatMap_chunks, List.take_of_length_le (by omega)]

theorem length_regBytes (d : Dev) (o n : Nat) : (regBytes d o n).length = 8 * n := by
  simp [regBytes, List.length_flatMap]
  omega

theorem putBytes_frame {β : Type} {F : Dev → β} (hF : ∀ d o v, F (putRg d o v) = F d) (d : Dev) (o : Nat) (bs : List Byte) : F (putBytes d o bs) = F d :=
  foldl_frame F _ (fun d _ => hF d _ _) _ d

/-! ### The end of an operation -/

/-- The mailbox is free again, with a RESULT. -/
def mboxEnd (d : Dev) (r : Nat) : Dev := putRgf (putRgf { d with sec := { d.sec with mbox := none } } 0xC0_2000 15 8 r) 0xC0_2000 7 7 0

theorem rgf_mboxEnd (d : Dev) {r : Nat} (lt : r < 256) : rgf (mboxEnd d r) 0xC0_2000 15 8 = r ∧ rgf (mboxEnd d r) 0xC0_2000 7 7 = 0 := by
  unfold mboxEnd
  rw [rgf_putRgf_field _ _ _ (by decide) (by decide), rgf_putRgf_same _ _ _ (by decide), rgf_putRgf_same _ _ _ (by decide)]
  exact ⟨Nat.mod_eq_of_lt lt, rfl⟩

theorem mboxEnd_mem (d : Dev) (r : Nat) : (mboxEnd d r).mem = d.mem := rfl

theorem mboxEnd_sec (d : Dev) (r : Nat) : (mboxEnd d r).sec = { d.sec with mbox := none } := rfl

theorem flashByte_mboxEnd (d : Dev) (r a : Nat) : flashByte (mboxEnd d r) a = flashByte d a := rfl

theorem flashRead_mboxEnd (d : Dev) (r a n : Nat) : flashRead (mboxEnd d r) a n = flashRead d a n := rfl

theorem flashWrite_raised (d : Dev) (a : Nat) (bs : List Byte) : (flashWrite d a bs).raised = d.raised := rfl

theorem regBytes_mboxEnd (d : Dev) (r n : Nat) : regBytes (mboxEnd d r) 0xC0_2100 n = regBytes d 0xC0_2100 n := by
  refine List.flatMap_congr fun k _ => ?_
  have other : rg (mboxEnd d r) (0xC0_2100 + 8 * k) = rg d (0xC0_2100 + 8 * k) :=
    (rg_putRgf_other _ _ _ _ (by omega)).trans (rg_putRgf_other _ _ _ _ (by omega))
  rw [other]

theorem mailboxDone_eq {d : Dev} {op : Nat} {b : Bool} (runs : d.sec.mbox = some (op, b)) (due : (b && d.sec.upd.isSome) = false) :
    mailboxDone d true = mboxEnd (if mbRefused d op = none then mailboxEffect d op true else d) ((mbRefused d op).getD 0) := by
  unfold mailboxDone
  rw [runs]
  dsimp only
  rw [due]
  cases mbRefused d op <;> rfl

theorem mailboxDone_refused {d : Dev} {op k : Nat} {b : Bool} (runs : d.sec.mbox = some (op, b)) (due : (b && d.sec.upd.isSome) = false)
    (bad : mbRefused d op = some k) : mailboxDone d true = mboxEnd d k := by
  rw [mailboxDone_eq runs due, bad]
  rfl

theorem mailboxDone_served {d : Dev} {op : Nat} {b : Bool} (runs : d.sec.mbox = some (op, b)) (due : (b && d.sec.upd.isSome) = false)
    (good : mbRefused d op = none) : mailboxDone d true = mboxEnd (mailboxEffect d op true) 0 := by
  rw [mailboxDone_eq runs due, good]
  rfl

theorem mbRefused_lt {d : Dev} {op k : Nat} (bad : mbRefused d op = some k) : k < 256 := by
  unfold mbRefused at bad
  dsimp only at bad
  split at bad
  · cases bad; decide
  · split at bad
    · cases bad; decide
    · split at bad
      · cases bad; decide
      · cases bad

theorem mailboxEffect_erase (d : Dev) : mailboxEffect d 1 true = flashErase d (mbAddr d) := rfl

theorem mailboxEffect_program {d : Dev} (erased : (flashRead d (mbAddr d) 256).all (· == 0xFF) = true) :
    mailboxEffect d 2 true = flashWrite d (mbAddr d) (regBytes d 0xC0_2100 32) := if_pos erased

theorem mailboxEffect_read (d : Dev) : mailboxEffect d 3 true = putBytes d 0xC0_2100 (flashRead d (mbAddr d) 256) := rfl

/-- The end of an operation, from the effect that it had. -/
theorem mailbox_ends {s : State} {e : Dev} {r : Nat} (alive : live s.dev = true) (done : mailboxDone s.dev true = mboxEnd e r) (lt : r < 256)
    (calm : e.raised = []) (mem : e.mem = s.dev.mem) : exec (.flashOperationDone true) s = .next { s with dev := mboxEnd e r } ∧
      rgf (mboxEnd e r) 0xC0_2000 15 8 = r ∧ rgf (mboxEnd e r) 0xC0_2000 7 7 = 0 ∧ (mboxEnd e r).sec.mbox = none ∧ (mboxEnd e r).mem = s.dev.mem := by
  have powered : s.dev.pwr.on = true := by
    simp only [live, Bool.and_eq_true] at alive
    exact alive.1
  obtain ⟨result, free⟩ := rgf_mboxEnd e lt
  exact ⟨(exec_flashOperationDone true s).trans (happen_ok rfl powered (congrArg _ done) calm), result, free,
    congrArg (·.mbox) (mboxEnd_sec e r), (mboxEnd_mem e r).trans mem⟩

/-! ### The statement -/

/-- Settles O59. -/
theorem flashMailbox : Obligations.FlashMailbox := by
  unfold Obligations.FlashMailbox
  intro s alive calm
  refine ⟨fun bus link served idle => ⟨?_, ?_, ?_⟩, fun op b runs due => ⟨fun k bad => ?_, fun good => ⟨?_, ?_, ?_⟩⟩⟩
  · exact mailbox_takes (exec_flashErase bus s) rfl alive calm link served idle (by decide) (by decide)
  · exact mailbox_takes (exec_flashProgram bus s) rfl alive calm link served idle (by decide) (by decide)
  · exact mailbox_takes (exec_flashRead bus s) rfl alive calm link served idle (by decide) (by decide)
  · obtain ⟨next, ended⟩ := mailbox_ends alive (mailboxDone_refused runs due bad) (mbRefused_lt bad) calm rfl
    exact ⟨_, next, ended, congrArg (·.flash) (mboxEnd_sec s.dev k)⟩
  · rintro rfl
    have done := mailboxDone_served runs due good
    rw [mailboxEffect_erase] at done
    obtain ⟨next, ended⟩ := mailbox_ends alive done (by decide) calm rfl
    exact ⟨_, next, ended, fun i lt => (flashByte_mboxEnd ..).trans (flashByte_flashErase s.dev lt)⟩
  · rintro rfl erased
    have done := mailboxDone_served runs due good
    rw [mailboxEffect_program erased] at done
    obtain ⟨next, ended⟩ := mailbox_ends alive done (by decide) ((flashWrite_raised ..).trans calm) (flashWrite_mem ..)
    have written := flashRead_flashWrite s.dev (mbAddr s.dev) (regBytes s.dev 0xC0_2100 32)
    rw [length_regBytes] at written
    exact ⟨_, next, ended, (flashRead_mboxEnd ..).trans written⟩
  · rintro rfl
    have done := mailboxDone_served runs due good
    rw [mailboxEffect_read] at done
    have kept {β : Type} {F : Dev → β} (hF : ∀ d o v, F (putRg d o v) = F d) := putBytes_frame hF s.dev 0xC0_2100 (flashRead s.dev (mbAddr s.dev) 256)
    obtain ⟨next, ended⟩ := mailbox_ends alive done (by decide) ((kept (F := (·.raised)) fun _ _ _ => rfl).trans calm) (kept (F := (·.mem)) fun _ _ _ => rfl)
    refine ⟨_, next, ended, ?_, ?_⟩
    · exact (congrArg (·.flash) (mboxEnd_sec ..)).trans (kept (F := (·.sec.flash)) fun _ _ _ => rfl)
    · exact (regBytes_mboxEnd _ 0 32).trans (regBytes_putBytes _ _ (by simp [flashRead]))

end Sys2Proof.Machine
end

section
/-! SUPPORT. The management bus and boundary scan (20_module_and_connectors.md, R624–R626, R631, R632). -/

namespace Sys2Proof.Machine
open Sys2Proof.Safety

theorem exec_dynamicAddressAssign (a : Nat) (s : State) :
    exec (.dynamicAddressAssign a) s = happen (.dynamicAddressAssign a) (fun d => d.pwr.on) (fun d => .ok (assignAddress d a)) s := rfl
theorem exec_tapReset (s : State) : exec .tapReset s = happen .tapReset (fun d => d.pwr.on) (fun d => .ok (tapClear d)) s := rfl
theorem exec_tapInstruction (die : Nat) (o : TapOp) (s : State) :
    exec (.tapInstruction die o) s = happen (.tapInstruction die o) (fun d => d.pwr.on) (fun d => .ok (tapLoad d die o)) s := rfl
theorem exec_mgmtBusWrite (off : Nat) (bs : List Byte) (s : State) :
    exec (.mgmtBusWrite off bs) s = happen (.mgmtBusWrite off bs) (fun d => d.pwr.on) (fun d => mgmtWrite d off bs) s := rfl

/-! ### The nonce registers -/

/-- The registers of the nonce: every bit may be written, and none has a rule of its own. -/
theorem regAt_nonce {off : Nat} (low : 0xC0_0080 ≤ off) (high : off < 0xC0_00C0) (whole : off % 8 = 0) :
    ∃ r, regAt off = some r ∧ r.st = 0 ∧ BitVec.ofNat 64 r.rw = BitVec.allOnes 64 := by
  have rows : ∀ k < 8, (regAt (0xC0_0080 + 8 * k)).map (fun r => (r.st, BitVec.ofNat 64 r.rw)) = some (0, BitVec.allOnes 64) := by decide +kernel
  obtain ⟨r, hr, row⟩ := Option.map_eq_some_iff.1 (rows ((off - 0xC0_0080) / 8) (by omega))
  rw [show 0xC0_0080 + 8 * ((off - 0xC0_0080) / 8) = off from by omega] at hr
  exact ⟨r, hr, Prod.mk.inj row⟩

theorem writeOwn_nonce {off : Nat} (low : 0xC0_0080 ≤ off) (high : off < 0xC0_00C0) (d : Dev) (src : Src) (v : W64) : writeOwn d src off v = none := by
  unfold writeOwn
  repeat' rw [if_neg (by omega)]

theorem writeByCode_allOnes {r : RegRow} (full : BitVec.ofNat 64 r.rw = BitVec.allOnes 64) (d : Dev) (off : Nat) (v : W64) : writeByCode d off r v = putRg d off v := by
  unfold writeByCode
  dsimp only
  rw [full, BitVec.and_allOnes, BitVec.not_allOnes, BitVec.and_zero, BitVec.zero_or]

/-- A nonce register takes what either side writes. -/
theorem writeReg_nonce_mgmt {off : Nat} (low : 0xC0_0080 ≤ off) (high : off < 0xC0_00C0) (whole : off % 8 = 0) (d : Dev) (v : W64) :
    writeReg d .mgmt off v = .ok (putRg d off v) := by
  obtain ⟨r, hr, plain, all⟩ := regAt_nonce low high whole
  rw [writeReg_mgmt hr plain (.inl (by omega)), writeOwn_nonce low high, Option.getD_none, writeByCode_allOnes all]

theorem writeReg_nonce_link {off : Nat} (low : 0xC0_0080 ≤ off) (high : off < 0xC0_00C0) (whole : off % 8 = 0) {d : Dev} (free : lockw d = false) (v : W64) :
    writeReg d .link off v = .ok (putRg d off v) := by
  obtain ⟨r, hr, plain, all⟩ := regAt_nonce low high whole
  rw [writeReg_byCode free hr plain (.inl (by omega)) (writeOwn_nonce low high ..), writeByCode_allOnes all]

/-- The bus writes a nonce register that it serves, and the write is noted for the host link's of the same NCLK. -/
theorem mgmtWrite_nonce {d : Dev} {off : Nat} {bs : List Byte} (eight : 8 ≤ bs.length) (one : bs.length < 16)
    (serves : mgmtServes d off (w64 (leNat (bs.take 8))) = true) (low : 0xC0_0080 ≤ off) (high : off < 0xC0_00C0) (whole : off % 8 = 0) :
    mgmtWrite d off bs = .ok (noteBus (putRg d off (w64 (leNat (bs.take 8)))) off (w64 (leNat (bs.take 8)))) := by
  have free : opBusy d off = false := by
    have cmd : off ≠ 0xC0_0018 := by omega
    have box : off ≠ 0xC0_2000 := by omega
    simp [opBusy, cmd, box]
  rw [mgmtWrite_one _ _ eight one, mgmtReg, if_pos serves, busReg, writeReg_nonce_mgmt low high whole, free]
  rfl

/-- What the bus does not serve it discards. -/
theorem mgmtWrite_unserved {d : Dev} {off : Nat} {bs : List Byte} (one : bs.length < 16)
    (out : bs.length < 8 ∨ mgmtServes d off (w64 (leNat (bs.take 8))) = false) : mgmtWrite d off bs = .ok d := by
  rcases Nat.lt_or_ge bs.length 8 with short | eight
  · exact mgmtWrite_short d off short
  · have unserved := out.resolve_left (by omega)
    rw [mgmtWrite_one _ _ eight one, mgmtReg, unserved]
    rfl

/-- The host link's write acts before the bus's of the same NCLK. -/
theorem hostReg_nonce {d : Dev} {off : Nat} {v w : W64} (low : 0xC0_0080 ≤ off) (high : off < 0xC0_00C0) (whole : off % 8 = 0) (free : lockw d = false)
    (bus : busNow d off = [w]) : hostReg d off v = .ok (putRg (putRg d off v) off w) := by
  have kept : busUndo d off = d := by
    unfold busUndo
    rw [if_neg (by omega), if_neg (by omega)]
  have first := writeReg_nonce_link low high whole free v
  have second := writeReg_nonce_mgmt low high whole (putRg d off v) w
  simp only [hostReg, bus, kept, first]
  exact (bind_pure _).trans second

/-! ### The statement -/

/-- Settles O60. -/
theorem managementAndBoundaryScan : Obligations.ManagementAndBoundaryScan := by
  unfold Obligations.ManagementAndBoundaryScan
  intro s powered calm
  refine ⟨fun a lt => ?_, ?_, fun die o ok => ?_, fun off bs lt one => ⟨fun out => ?_, fun eight serves low high whole => ?_⟩,
    fun off v w low high whole free bus => hostReg_nonce low high whole free bus⟩
  · have assigned : assignAddress s.dev a = { s.dev with sec := { s.dev.sec with addr := some a } } := if_pos powered
    exact (exec_dynamicAddressAssign a s).trans (happen_ok (decide_eq_true lt) powered (congrArg _ assigned) calm)
  · exact (exec_tapReset s).trans (happen_ok rfl powered rfl calm)
  · have loaded : tapLoad s.dev die o = { s.dev with sec := { s.dev.sec with tap := s.dev.sec.tap.set die (tapActs s.dev o) } } := if_pos powered
    have next := (exec_tapInstruction die o s).trans (happen_ok ok powered (congrArg _ loaded) calm)
    cases o <;> exact next
  · exact (exec_mgmtBusWrite off bs s).trans (happen_ok (decide_eq_true lt) powered (mgmtWrite_unserved one out) calm)
  · exact (exec_mgmtBusWrite off bs s).trans (happen_ok (decide_eq_true lt) powered (mgmtWrite_nonce eight one serves low high whole) calm)

end Sys2Proof.Machine
end
